-- ==== Sys2Proof/Word.lean ====
section
/-!
DEFINITION. The word types of the W48 (R4, R24, R53): 64-bit registers, 32-bit instruction words,
bytes and the 32-bit lane masks, little-endian throughout.
-/

namespace Sys2Proof

/-- A 64-bit register value (R53). -/
abbrev Word := BitVec 64

/-- A 32-bit instruction word (R24). -/
abbrev Word32 := BitVec 32

/-- The smallest addressable unit of every space (R4). -/
abbrev Byte := BitVec 8

/-- One bit per lane of a group; bit `i` stands for lane `i` (R101). -/
abbrev LaneMask := BitVec 32

/-- The number of lanes of a group (R81). -/
abbrev lanes : Nat := 32

/-- A lane number (R81). -/
abbrev LaneId := Fin 32

end Sys2Proof
end

