-- ==== Sys2Proof/Machine/SMap.lean ====
section
/-!
DEFINITION. Sparse maps with a default: lists of (key, value) pairs in one canonical form, keys
strictly rising and no entry equal to the default. Memory is such a map from addresses to bytes.
-/

namespace Sys2Proof.Machine

/-- A sparse map from numbers: what an unlisted key reads as is given to each operation. -/
abbrev SMap (α : Type) := List (Nat × α)

/-- The value at `k`, `d` where nothing is listed. -/
def smGet {α : Type} (d : α) : SMap α → Nat → α
  | [], _ => d
  | (j, x) :: r, k => if j = k then x else smGet d r k

/-- Lists `v` at `k`, keeping the keys in order. -/
def smPut {α : Type} : SMap α → Nat → α → SMap α
  | [], k, v => [(k, v)]
  | (j, x) :: r, k, v =>
    if k < j then (k, v) :: (j, x) :: r
    else if k = j then (k, v) :: r
    else (j, x) :: smPut r k v

/-- Lists nothing at `k`. -/
def smErase {α : Type} (m : SMap α) (k : Nat) : SMap α := m.filter fun e => e.1 != k

/-- Writes `v` at `k`; writing the default unlists the key. -/
def smSet {α : Type} [DecidableEq α] (d : α) (m : SMap α) (k : Nat) (v : α) : SMap α :=
  if v = d then smErase m k else smPut m k v

/-- Changes the value at `k`. -/
def smMod {α : Type} [DecidableEq α] (d : α) (m : SMap α) (k : Nat) (f : α → α) : SMap α :=
  smSet d m k (f (smGet d m k))

/-- Keys strictly rise. -/
def smSorted {α : Type} : SMap α → Bool
  | [] => true
  | [_] => true
  | a :: b :: r => a.1 < b.1 && smSorted (b :: r)

/-- The canonical form: keys strictly rise and no entry holds the default. -/
def smWf {α : Type} [DecidableEq α] (d : α) (m : SMap α) : Bool :=
  smSorted m && m.all fun e => decide (e.2 ≠ d)

/-- A memory: bytes by address, in canonical form. -/
abbrev Memory := List Host.Cell

/-- What an unlisted byte of every memory reads as: zero (R186 for the scratchpad; for HBM, bank
memory and host memory a DESIGN CHOICE, unsafe, log 7). -/
def memDefault : Byte := 0

/-- The canonical form of a memory. -/
def Memory.wf (m : Memory) : Bool := smWf memDefault m

/-- The byte at an address. -/
def memGet (m : Memory) (a : Nat) : Byte := smGet memDefault m a

/-- Writes one byte. -/
def memSet (m : Memory) (a : Nat) (b : Byte) : Memory := smSet memDefault m a b

/-- Writes bytes at ascending addresses from `a`. -/
def memWrite : Memory → Nat → List Byte → Memory
  | m, _, [] => m
  | m, a, b :: bs => memWrite (memSet m a b) (a + 1) bs

/-- The `n` bytes from `a`, lowest address first. -/
def memRead (m : Memory) (a n : Nat) : List Byte := (List.range n).map fun i => memGet m (a + i)

/-- Little-endian number of a list of bytes (R4). -/
def leNat : List Byte → Nat
  | [] => 0
  | b :: bs => b.toNat + 256 * leNat bs

/-- The `n` little-endian bytes of a number (R4). -/
def leBytes : Nat → Nat → List Byte
  | 0, _ => []
  | n + 1, x => BitVec.ofNat 8 x :: leBytes n (x / 256)

/-- The `n`-byte little-endian value at `a`. -/
def memLoad (m : Memory) (a n : Nat) : Nat := leNat (memRead m a n)

/-- Stores the low `n` bytes of `x` at `a`, little-endian. -/
def memStore (m : Memory) (a n x : Nat) : Memory := memWrite m a (leBytes n x)

end Sys2Proof.Machine
end

