-- ==== Sys2Proof/Types.lean ====
section
/-!
DEFINITION. The plain data that instructions and events carry: the fields of an instruction word
(R26 to R28) and the arguments of the commands and events of the opcode table.
-/

namespace Sys2Proof

/-- The fields of one instruction, as R26 (word 0), R27 (word 1) and R28 (word 2, literal) lay them
out; `d`, `a`, `b` hold the 7-bit operand numbers with DH, AH, BH as bit 6. In a form without a word
the word's fields are 0 (R29). The major opcode is not a field: the constructor names it. -/
structure Fields where
  len   : BitVec 2 := 0
  stall : BitVec 3 := 0
  fn    : BitVec 2 := 0
  d     : BitVec 7 := 0
  a     : BitVec 7 := 0
  b     : BitVec 7 := 0
  c     : BitVec 7 := 0
  gp    : BitVec 3 := 0
  gn    : Bool := false
  md    : BitVec 4 := 0
  sbsN  : BitVec 3 := 0
  sbsV  : Bool := false
  sbw   : BitVec 8 := 0
  xf    : BitVec 2 := 0
  imm   : BitVec 32 := 0
  lit   : BitVec 64 := 0
deriving DecidableEq, Repr

/-- A bind record, four doublewords (R298). -/
structure BindRec where
  dw0 : Word := 0
  dw1 : Word := 0
  dw2 : Word := 0
  dw3 : Word := 0
deriving DecidableEq, Repr

/-- One bind record of a placement plan with the core slot it is meant for: `site`, `core`, `slot`
name the slot the S-mode scheduler writes it to (R297, R299). -/
structure PlanSlot where
  site : Nat
  core : Nat
  slot : Nat
  bind : BindRec
deriving DecidableEq, Repr

/-- A bind set: one record for each of the NP + NC groups, all on one tile (R297). -/
structure BindSet where
  node  : Nat
  slots : List PlanSlot
deriving DecidableEq, Repr

/-- A placement plan: the ordered bind sets and the spawn bind records (R297). -/
structure Plan where
  sets   : List BindSet := []
  spawns : List PlanSlot := []
deriving DecidableEq, Repr

/-- A numbered route in partition-logical coordinates (R334 to R336). -/
structure Route where
  num  : Nat
  src  : Nat × Nat
  dst  : Nat × Nat
  via  : List (Nat × Nat) := []
deriving DecidableEq, Repr

/-- One router's part of a partition route table: the links of a site that the tag may use, and the
detour entries (destination site, output link); links are 0 north, 1 east, 2 south, 3 west
(R331, R332). -/
structure RouterEntry where
  site    : Nat
  links   : List Nat := []
  detours : List (Nat × Nat) := []
deriving DecidableEq, Repr

/-- The tables of PART_GROW (R361, R376): the full new route table, and the full new bank-address hash table as a list of banks, each as site
and number on it, which the units of 64 bytes take in turn (log 23). -/
structure GrowTables where
  routes : List RouterEntry := []
  hash   : List (Nat × Nat) := []
deriving DecidableEq, Repr

/-- Where an export stream goes (R376): the destination module, and the host address of the stream buffer. -/
structure StreamDest where
  module : Nat := 0
  buffer : Nat := 0
deriving DecidableEq, Repr

/-- Where an import stream comes from (R376): the host address of the stream buffer, and the route table that its header record
carries (log 50). -/
structure StreamHead where
  buffer : Nat := 0
  table  : List RouterEntry := []
deriving DecidableEq, Repr

/-- The partition descriptor of R357. -/
structure PartDesc where
  prot    : Bool := false
  bwshare : Nat := 16
  resq    : Nat := 0
  hbmq    : Nat := 0
  bmunits : Nat := 0
  maxctx  : Nat := 1
deriving DecidableEq, Repr

/-- The castling plan of R318: interval in milliseconds and the rings, each a list of sites. -/
structure CastlePlan where
  interval : Nat := 4
  rings    : List (List Nat) := []
deriving DecidableEq, Repr

/-- A peer table record (R347). -/
structure PeerRec where
  valid   : Bool := false
  altv    : Bool := false
  module  : Nat := 0
  rpart   : Nat := 0
  rctx    : Nat := 0
  port    : Nat := 0
  altport : Nat := 0
  rgrid   : Nat := 0
  expbase : Nat := 0
  expsize : Nat := 0
deriving DecidableEq, Repr

/-- The context descriptor of R303; `ctl` is the control word of R304. -/
structure CtxDescr where
  ctl      : Word := 0
  savebase : Word := 0
  savesize : Word := 0
  period   : BitVec 32 := 0
  toff     : Word := 0
  key      : Word := 0
  key2     : Word := 0
deriving DecidableEq, Repr

/-- The header flit of an Etsel packet (R344). -/
structure EtselHdr where
  dmod  : Nat := 0
  smod  : Nat := 0
  dpart : Nat := 0
  spart : Nat := 0
  vl    : Nat := 0
  ndata : Nat := 0
  tag   : Nat := 0
  addr  : Word := 0
  mask  : BitVec 32 := 0
  actl  : BitVec 32 := 0
  bytes : Nat := 0
  last  : Bool := false
deriving DecidableEq, Repr

/-- An Etsel packet as received: its header, whether its GCM tag checks (R346), and its data bytes
after decryption with their poison (log 44); `ctx` and `grid` are the context and grid that the sender's peer entry names (R347), for
which the header has no field. -/
structure Etsel where
  port  : Nat := 0
  hdr   : EtselHdr := {}
  tagOk : Bool := true
  data  : List Byte := []
  poi   : List Bool := []
  ctx   : Nat := 0
  grid  : Nat := 0
deriving DecidableEq, Repr

/-- A page record of an export stream (R366): page index, major counter, the minor counter of each line, the lines carried with their
ciphertext, and the MAC (R367). -/
structure PageRecord where
  page   : Nat := 0
  major  : Nat := 0
  minors : List Nat := []
  carried : List Nat := []
  mac    : BitVec 128 := 0
  data   : List (Nat × List Byte) := []
deriving DecidableEq, Repr

/-- A mesh flit: its sideband, its 128 bytes of payload, and the site and link where it stands (R330 to R333): `site` is the
router, `inLink` the link it arrived on, `stall` that the next router stalls its channel; `op` and `lane` the access or element that its
loss would fail; `path` the sites of its numbered route still ahead of it (R337). -/
structure Flit where
  tag    : Nat := 0
  chan   : Nat := 0
  src    : Nat := 0
  dst    : Nat := 0
  site   : Nat := 0
  inLink : Nat := 4
  stall  : Bool := false
  op     : Nat := 0
  lane   : Nat := 0
  path   : List Nat := []
  data   : List Byte := []
deriving DecidableEq, Repr

/-- One tile's energy measurement of the last millisecond (R386), from its sensors. -/
structure EnergySample where
  site    : Nat := 0
  energy  : Nat := 0
  ballast : Nat := 0
deriving DecidableEq, Repr

/-- One tile's power and temperature measurement of the last interval (R381, R384). -/
structure PowerSample where
  site  : Nat := 0
  temp  : Nat := 0
  power : Nat := 0
deriving DecidableEq, Repr

/-- One entry of the wafer record (R374). -/
structure WaferEntry where
  chan   : Nat := 0
  frames : Nat := 10172
  trim   : BitVec 32 := 0
  state  : Nat := 0
deriving DecidableEq, Repr

/-- The eight SPDM measurement requests and their transport (R371): the physical function or the
virtual function that is asked, and the measurement block index. -/
structure SpdmReq where
  virt  : Bool := false
  fnum  : Nat := 0
  index : Nat := 1
deriving DecidableEq, Repr

/-- What a training finds (R345, R349): an Etsel port's round trip in flits, a host port's protocol (PCI Express or CXL) and its
GT/s. -/
structure Trained where
  trip  : Nat := 0
  cxl   : Bool := false
  speed : Nat := 0
deriving DecidableEq, Repr

end Sys2Proof
end

