-- ==== Sys2Proof/Machine/Data.lean ====
section
/-!
DEFINITION. The plain data of copies, groups, accumulators, teams, queues, kernels and contexts, which the state holds and an export
stream carries (R365).
-/

namespace Sys2Proof.Machine

/-! ### Copies and messages (R247 to R256, R337 to R340) -/

/-- A range-scoreboard entry (R171, R255): the owning team, whether it is a destination entry, the
range in the window, and the holder: a copy or message identifier, or an MMA's identifier. -/
structure RangeEnt where
  team : Nat
  dest : Bool
  lo   : Nat
  hi   : Nat
  copy : Option Nat
  mma  : Option Nat
  share : Bool := false
deriving DecidableEq, Repr

/-- A dimension record of a copy descriptor (R249). -/
structure CopyDim where
  sstride : Int
  dstride : Int
  size    : Nat
  start   : Int
  extent  : Nat
deriving DecidableEq, Repr

/-- A copy descriptor as read at execution (R248). -/
structure CopyDesc where
  ndim   : Nat := 0
  styp   : Nat := 0
  dtyp   : Nat := 0
  rnd    : Nat := 0
  sat    : Bool := false
  sspace : Nat := 0
  dspace : Nat := 0
  route  : Nat := 0
  src    : Word := 0
  dst    : Word := 0
  fill   : Word := 0
  multi  : Word := 0
  dims   : List CopyDim := []
  follow : List Byte := []
deriving DecidableEq, Repr

/-- The kinds of copy a tile counts (R247, R339). -/
inductive CopyKind where
  | plain | multicast | follow | message
deriving DecidableEq, Repr

/-- A receiver of a CPYM or XSEND (R254, R337): its team, whether the lookup was made and the site it found, whether the
receiving tile has accepted the share and at which site (R255), and whether it has landed or been dropped. -/
structure Recv where
  team   : Nat
  looked : Bool := false
  site   : Option Nat := none
  taken  : Option Nat := none
  done   : Bool := false
deriving DecidableEq, Repr

/-- A copy or message issued and not complete (R247, R252, R254, R339): its kind, the group, team and site
it was issued by, the base its scratchpad source is read from (for a message its offset), its batch and descriptor; the
elements written so far, its channel; whether it met a host error; its receivers; the bytes of a message or
the assembled writes of a multicast; for a message to another module the peer entry, and whether it was sent
or delivered, when, and by which port; when its last element was written, and whether its follow-on MMA has entered the array and ended; `got` the source elements
that a host or another module has answered (R252); `snap` the window that it reads its source from once its team has given it up, with
its poison (R322, R394; log 98). -/
structure Copy where
  id      : Nat
  kind    : CopyKind
  gid     : Nat
  team    : Nat
  site    : Nat
  part    : Nat
  sbase   : Nat := 0
  batch   : BitVec 32
  desc    : CopyDesc := {}
  total   : Nat := 0
  doneEl  : List Nat := []
  chan    : Option Nat := none
  hostErr : Bool := false
  recv    : List Recv := []
  route   : Nat := 0
  rben    : Bool := false
  rbar    : Nat := 0
  bytes   : List (Nat × Byte × Bool) := []
  remote  : Option Nat := none
  sent    : Bool := false
  time    : Word := 0
  port    : Nat := 0
  got     : List (Nat × List Byte × List Bool) := []
  snap    : Option (SMap Byte × SMap Bool) := none
  landAt  : Option Word := none
  followIn : Bool := false
  followDone : Bool := false
  sbs     : Option Nat := none
deriving DecidableEq, Repr

/-! ### The group (R81 to R103) -/

/-- A 64-bit register with its eight poison bits, one per byte (R77), and the bit errors of its word that no read has met:
1 for one bit, 2 for two (R198). -/
structure Reg where
  val : Word := 0
  poi : Byte := 0
  err : BitVec 2 := 0
deriving DecidableEq, Repr

/-- A v register in all 32 lanes. -/
abbrev VReg := Vector Reg 32

/-- The three lane states of R88. -/
inductive LaneState where
  | live | parked | exited
deriving DecidableEq, Repr

/-- The state of one lane (R82): `hw` is the hardware return stack, most recent entry first, at most
8 entries; `spilled` the spilled count n of R97; `draw` the draw counter of R73; `tgt` where a lane goes that
has executed its CALL, CALLX or RET while other lanes of the path trapped (R99, log 24); `fill` the return address that
a RET has read from a host or remote page (R97, R201). -/
structure Lane where
  pcv     : Word := 0
  st      : LaneState := .exited
  yld     : Bool := false
  hw      : List Word := []
  spilled : BitVec 32 := 0
  draw    : BitVec 32 := 0
  tgt     : Option Word := none
  fill    : Option Reg := none
deriving DecidableEq, Repr

/-- A register name for the dependences of R37 to R39; `sr` is a special register. -/
inductive RegId where
  | v (n : Nat) | s (n : Nat) | p (n : Nat) | sr (n : Nat)
deriving DecidableEq, Repr

/-- A fixed-latency result that has not landed: the registers it writes and in which lanes, its latency
L (R37), its distance so far (R36), the FCLK in which it lands, the flags it sets and the scoreboard
slot it lowers then (R39, R76). -/
structure Pend where
  regs  : List RegId
  lanes : LaneMask := 0
  lat   : Nat
  dist  : Nat := 0
  land  : Word := 0
  flags : BitVec 6 := 0
  sbs   : Option Nat := none
deriving DecidableEq, Repr

/-- STATE of a phase token (R225). -/
inductive TokState where
  | idle | pending | complete
deriving DecidableEq, Repr

/-- A phase token (R225), with the operations its release covers and the L1 lines of the core it
still has to write back, each under its `lineName` (R222, R226). -/
structure Tok where
  st    : TokState := .idle
  acq   : Bool := false
  rel   : Bool := false
  scope : Nat := 0
  cover : List Nat := []
  lines : List Nat := []
deriving DecidableEq, Repr

/-- A release that an instruction waits for (R229, R233, R280, R282): the operations it covers and
the L1 lines to write back. -/
structure Rel where
  scope : Nat := 0
  cover : List Nat := []
  lines : List Nat := []
deriving DecidableEq, Repr

/-- A batch slot (R257), whether a copy of the batch wrote a global byte (R232), and its place among the batches that have completed
(R241). -/
structure BatchSlot where
  nfault : Nat := 0
  code   : Nat := 0
  bar    : Nat := 0
  bound  : Bool := false
  out    : Nat := 0
  glob   : Bool := false
  order  : Nat := 0
deriving DecidableEq, Repr

/-- The batch record of a group with its BARV wait record (R257). -/
structure Batch where
  issued   : BitVec 32 := 0
  done     : BitVec 32 := 0
  slots    : Vector BatchSlot 8 := Vector.replicate 8 {}
  bvValid  : Bool := false
  bvParity : Bool := false
  bvBar    : Nat := 0
deriving DecidableEq, Repr

/-- The states of a group slot (R86), in the order of R299. -/
inductive GState where
  | free | bound | ready | held | trapped | suspended | stopped | draining
deriving DecidableEq, Repr

/-- Why a held group cannot issue (R86 and the chapters that hold groups). -/
inductive Hold where
  | none | stall | sbw | regs | slotFull | parked | sleep | rpop | pwait | bwait | cwait | aalloc
  | mmaQueue | engine | copies | range | accBusy | queueClosed | queue | acquire | trapping
  | migrating | cseal | access | reads
deriving DecidableEq, Repr

/-- The REASON codes of a team image (R311). -/
inductive StopReason where
  | castling | safePoint | forced | quiesce
deriving DecidableEq, Repr

/-- A barrier arrival whose release is not complete (R233, R241); `parity` that of a BARA that has been counted. -/
structure Arrive where
  bar    : Nat
  rel    : Rel
  parity : Option Bool := none
deriving DecidableEq, Repr

/-- One group slot and the group in it (R82, R83, R86, R299). `fnew` are the flags of completions in this FCLK, which
join sr.fflags when it ends (R76, R128); `bwait` is the barrier and parity of a BWAIT under way, `ended` the ERR of the
completion that ended the group's wait at a barrier (R244), `sealDue` that the open batch of a group whose last lane has exited waits to be
sealed (R261), `staged` a copy that has executed and is held before it issues, with the ranges that it
needs, or an empty copy (R251, R255). -/
structure Group where
  st        : GState := .free
  hold      : Hold := .none
  stallEnd  : Word := 0
  bind      : BindRec := {}
  err       : Bool := false
  gid       : Nat := 0
  teamid    : BitVec 32 := 0
  gridid    : BitVec 32 := 0
  consumer  : Bool := false
  copyr     : Bool := false
  regs      : Nat := 0
  depth     : Nat := 0
  v         : SMap VReg := []
  s         : SMap Reg := []
  p         : SMap LaneMask := []
  lane      : Vector Lane 32 := Vector.replicate 32 {}
  sb        : Vector Nat 8 := Vector.replicate 8 0
  tok       : Vector Tok 8 := Vector.replicate 8 {}
  batch     : Batch := {}
  sealDue   : Bool := false
  moved     : Bool := false
  fflags    : BitVec 6 := 0
  fnew      : BitVec 6 := 0
  trapcause : BitVec 6 := 0
  trapaddr  : Word := 0
  donemask  : LaneMask := 0
  srseed    : Word := 0
  ctl       : BitVec 2 := 0
  period    : BitVec 32 := 0
  elapsed   : Nat := 0
  sub       : BitVec 10 := 0
  pin       : Bool := false
  acc       : Vector (Option Nat) 8 := Vector.replicate 8 none
  pend      : List Pend := []
  arrive    : Option Arrive := none
  bwait     : Option (Nat × Bool) := none
  ended     : Option Bool := none
  staged    : Option (Option (Copy × List RangeEnt)) := none
  trapReq   : Option (BitVec 6 × Word × LaneMask) := none
  sleepEnd  : Option Word := none
  sleepSb   : Option Nat := none
  holdReq   : Bool := false
  stopReq   : Option StopReason := none
  lastIssue : Word := 0
  lastReady : Word := 0
deriving DecidableEq, Repr

/-! ### Accumulators and MMAs (R156 to R182) -/

/-- Accumulator states (R159, R160). -/
inductive AccState where
  | free | zeroed | accumulating | stalled | draining
deriving DecidableEq, Repr

/-- A physical accumulator (R158 to R160): elements c(i, j) at key 64 i + j. -/
structure Acc where
  st    : AccState := .free
  c     : SMap Word32 := []
  poi   : SMap Bool := []
  owner : Nat := 0
  name  : Nat := 0
  fault : Bool := false
deriving DecidableEq, Repr

/-- An entry of the MMA queue (R156, R177, R181, R182): the accumulator, the operands (a register
fragment, or a pair of R168), scales and side lists, progress counter and flags so far; `stop` the progress at
which a requested stop ends it (R178); `ready` the FCLK from which its first k-step may start (R180, R184), `endAt` the
FCLK in which its newest k-step ended (R175). -/
structure MmaEnt where
  acc     : Nat
  x       : Bool
  ty      : Nat
  areg    : Nat
  breg    : Nat
  apair   : Option (Word × Word) := none
  bpair   : Option (Word × Word) := none
  apoi    : Bool := false
  bpoi    : Bool := false
  ctrl    : BitVec 32 := 0
  prog    : Nat := 0
  flags   : BitVec 6 := 0
  counted : Bool := false
  addr    : Word := 0
  id      : Nat := 0
  sbs     : Option Nat := none
  copy    : Option Nat := none
  inArray : Bool := true
  stop    : Option Nat := none
  ready   : Word := 0
  endAt   : Word := 0
deriving DecidableEq, Repr

/-! ### Teams, queues, kernels and contexts -/

/-- Where a team is (R309, R319, R337). -/
inductive TeamState where
  | absent | starting | resident | stopping | transit | saved | ended
deriving DecidableEq, Repr

/-- A saved accumulator of a team image: group, logical name, contents, physical number at the stop, MMAs (R181). -/
structure SavedAcc where
  gid  : Nat
  name : Nat
  acc  : Acc
  phys : Nat := 0
  mmas : List MmaEnt := []
deriving DecidableEq, Repr

/-- A team image (R310 to R312): the groups present with their core and slot, the accumulator
records, the window and its poison while it is in transit, the reason and the stop time and site; of a saved image its slot and the offset in the save area at which it stands (R316, R322);
`ranges` are the entries that
its copies held on the range scoreboard, `list` the copy list: of each copy in flight at the stop its identifier and entry, `shares` those of
incoming shares and messages (R312).
A saved image stands in the save area as bytes too (R316), and its window there alone. -/
structure Image where
  groups : List (Nat × Nat × Group) := []
  accs   : List SavedAcc := []
  window : SMap Byte := []
  wpoi   : SMap Bool := []
  reason : StopReason := .castling
  site   : Nat := 0
  time   : Word := 0
  order  : Nat := 0
  slot   : Nat := 0
  base   : Nat := 0
  ranges : List RangeEnt := []
  list   : List (Nat × List Byte) := []
  shares : List (Nat × List Byte) := []
deriving DecidableEq, Repr

/-- A team (R81, R186, R238, R279, R283): its place, window base and size W, barrier words, and those that stood at the start of this
FCLK (R244), the node
it was launched on, its uncommitted records and the nodes it is a worker team of; `landed` that its image has left for
the site it moves to, `landAt` when its last byte lands there, `down` that it has (R319); `begun` that a group of it has issued (R275), `forced` that groups of it were still running when the budget of
a pre-emption ended (R315). -/
structure Team where
  st      : TeamState := .absent
  ctx     : Nat := 0
  grid    : BitVec 32 := 0
  teamid  : BitVec 32 := 0
  kern    : Nat := 0
  node    : Nat := 0
  site    : Nat := 0
  wbase   : Nat := 0
  wsize   : Nat := 0
  nbars   : Nat := 0
  bars    : Vector Word 16 := Vector.replicate 16 0
  shown   : Vector Word 16 := Vector.replicate 16 0
  slots   : List Nat := []
  uncommitted : Nat := 0
  worker  : List Nat := []
  reason  : StopReason := .castling
  rel     : Option Rel := none
  pinEnd  : Option Word := none
  image   : Option Image := none
  landed  : Bool := false
  landAt  : Word := 0
  down    : Bool := false
  begun   : Bool := false
  forced  : Bool := false
  setNo   : Nat := 0
deriving DecidableEq, Repr

/-- A record of a queue (R265, R271). -/
structure Rec where
  node      : Nat := 0
  depth     : Nat := 0
  pri       : Nat := 0
  join      : Nat := 0
  committed : Bool := false
  elig      : Bool := false
  host      : Bool := false
  ovf       : Bool := false
  seq       : Word := 0
  etime     : Word := 0
  payload   : List Byte := []
  ppoi      : List Bool := []
  team      : Nat := 0
  lock      : Option Nat := none
deriving DecidableEq, Repr

/-- A record queue (R268 to R272): pool and overflow capacities, generations and records at key slot
(overflow slots from 2^32), the SEQ counter, closed, timer, the RPOPs waiting in order, the status word at the start of this FCLK (R284), and the FCLK of the last launch (R274). -/
structure Queue where
  home    : Nat := 0
  pool    : Nat := 0
  ovfl    : Nat := 0
  gens    : SMap Byte := []
  recs    : SMap (Option Rec) := []
  seq     : Word := 0
  closed  : Bool := false
  timer   : Option Word := none
  expired : Bool := false
  left    : Word := 0
  waiters : List Nat := []
  shown   : Word := 0
  launched : Option Word := none
deriving DecidableEq, Repr

/-- A node table entry (R263, R292). -/
structure NodeDecl where
  entry : Nat := 0
  timer : Nat := 900
  trap  : Bool := false
  dlim  : Nat := 0
  logr  : Nat := 5
  k     : Nat := 1
deriving DecidableEq, Repr

/-- Kernel states (R289). -/
inductive KernState where
  | absent | loading | loaded | active | retiring
deriving DecidableEq, Repr

/-- A loaded kernel (R289 to R293, R297): `text` and `data` are virtual addresses, `frames` the frames that
hold it. -/
structure Kern where
  st      : KernState := .absent
  text    : Word := 0
  textLen : Nat := 0
  data    : Word := 0
  dataLen : Nat := 0
  np      : Nat := 1
  nc      : Nat := 0
  pregs   : Nat := 16
  cregs   : Nat := 16
  copyr   : Bool := false
  spad    : Nat := 0
  spadZero : Bool := false
  nbars   : Nat := 0
  nodes   : List NodeDecl := []
  entries : List Nat := []
  routes  : List Nat := []
  digest  : BitVec 256 := 0
  plan    : Plan := {}
  queues  : List Queue := []
  frames  : List Nat := []
deriving DecidableEq, Repr

/-- An open run (R286, R294, R295): the team counter, the local indices of each tile and those saved
by a quiesce; `store` the store of DONEVAL under way at its end (R296). -/
structure Run where
  grid     : BitVec 32 := 0
  kern     : Nat := 0
  n        : Nat := 0
  addr     : Word := 0
  store    : Option Nat := none
  msiv     : Nat := 0
  raise    : Bool := false
  doneaddr : Word := 0
  doneval  : Word := 0
  ended    : Bool := false
  counter  : Nat := 0
  locals   : SMap (List Nat) := []
  saved    : List Nat := []
  home     : Nat := 0
  cores    : List Nat := []
deriving DecidableEq, Repr

/-- Context states (R305), in the order of R328. -/
inductive CtxState where
  | destroyed | created | loaded | runnable | running | castling | preempting | saved | faulted
  | migrating | killed | scrubbing
deriving DecidableEq, Repr

/-- A context (R303 to R305, R316, R328). `preempt` is the end of the budget of a pre-emption, `pending` and `pendFault`
a pre-emption and a fault that wait for a castling to end, `evNew` the events of the FCLK `evTime`, `events` those before it (R329), `frames` those of killed kernels that a scrub has to zero. -/
structure Ctx where
  st       : CtxState := .destroyed
  before   : CtxState := .destroyed
  part     : Nat := 0
  desc     : CtxDescr := {}
  kerns    : SMap Kern := []
  runs     : List Run := []
  gridCtr  : BitVec 32 := 0
  counts   : Vector (BitVec 32) 8 := Vector.replicate 8 0
  events   : Byte := 0
  evNew    : Byte := 0
  evTime   : Word := 0
  energy   : Word := 0
  preempt  : Option Word := none
  reason   : StopReason := .safePoint
  pending  : Bool := false
  pendFault : Bool := false
  order    : Nat := 0
  frames   : List Nat := []
  log      : List (BitVec 256) := []
deriving DecidableEq, Repr

/-! ### The stream of an export (R365, R366) -/

/-- The state of a partition that the final round of an export carries beside its lines (R365): its descriptor, the module's FCLK, contexts with their
descriptors, kernels, queues, TOFF and measurement logs, the teams of their save areas, routes, castling plan, peers, keys and replicas; the
sites, channels and frames that these name, in the source's order, and the page-table root. -/
structure SavedPart where
  desc     : PartDesc := {}
  time     : Word := 0
  ctxs     : List (Nat × Ctx) := []
  teams    : List (Nat × Team) := []
  routes   : SMap (Option Route) := []
  plan     : CastlePlan := {}
  peers    : SMap PeerRec := []
  keys     : SMap (Option Word) := []
  replicas : SMap (List Nat) := []
  sites    : List Nat := []
  chans    : List Nat := []
  frames   : List Nat := []
  root     : Nat := 0
deriving DecidableEq, Repr

/-- A record of an export stream: the header, which carries the descriptor and the route table that an import starts from, the 4,192 bytes
of a page record, or the saved state (R365, R366; log 50). -/
inductive StreamRec where
  | header (desc : PartDesc) (table : List RouterEntry)
  | page (bytes : List Byte)
  | saved (x : SavedPart)
deriving DecidableEq, Repr

end Sys2Proof.Machine
end

