-- ==== Sys2Proof/Syntax.lean ====
section
/-!
DEFINITION. One constructor for each of the 420 rows of spec/opcode_table.json. The first 262 are the
instruction forms of R41 and R42, each carrying its `Fields`: a constructor without `Ext` of an opcode that
has a base form is the base form (LEN 0b00), the `Ext` constructor is every longer form (R24, R29). The
others are the events and commands of 95_what_each_step_holds.md, each carrying the agent or operation it
concerns and what comes from outside the device.
-/

namespace Sys2Proof

/-- An instruction form, event or command: one constructor per row of the opcode table. -/
inductive Instr where
  /-- SADD (R108). Base form: scalar 64-bit add, signed or unsigned with optional saturation. -/
  | sadd (f : Fields)
  /-- SADD_EXT (R108). Extended or literal form of the scalar add. -/
  | saddExt (f : Fields)
  /-- IADD (R108). Base form: lane integer add on i32x2. -/
  | iadd (f : Fields)
  /-- IADD_EXT (R108). Extended or literal form of the lane add, with width, SAT and an s-register B. -/
  | iaddExt (f : Fields)
  /-- SSUB (R108). Base form: scalar subtract. -/
  | ssub (f : Fields)
  /-- SSUB_EXT (R108). Extended or literal form of the scalar subtract. -/
  | ssubExt (f : Fields)
  /-- ISUB (R108). Base form: lane subtract. -/
  | isub (f : Fields)
  /-- ISUB_EXT (R108). Extended or literal form of the lane subtract. -/
  | isubExt (f : Fields)
  /-- SMUL (R108). Base form: scalar multiply, low 64 bits. -/
  | smul (f : Fields)
  /-- SMUL_EXT (R108). Extended or literal form of the scalar multiply. -/
  | smulExt (f : Fields)
  /-- IMUL (R108). Base form: lane multiply. -/
  | imul (f : Fields)
  /-- IMUL_EXT (R108). Extended or literal form of the lane multiply. -/
  | imulExt (f : Fields)
  /-- SMULH (R108). Base form: scalar multiply high. -/
  | smulh (f : Fields)
  /-- SMULH_EXT (R108). Extended or literal form of the scalar multiply high. -/
  | smulhExt (f : Fields)
  /-- IMULH (R108). Base form: lane multiply high. -/
  | imulh (f : Fields)
  /-- IMULH_EXT (R108). Extended or literal form of the lane multiply high. -/
  | imulhExt (f : Fields)
  /-- SDIV (R67). Base form: scalar divide rounding toward zero. -/
  | sdiv (f : Fields)
  /-- SDIV_EXT (R67). Extended or literal form of the scalar divide. -/
  | sdivExt (f : Fields)
  /-- IDIV (R67). Base form: lane divide. -/
  | idiv (f : Fields)
  /-- IDIV_EXT (R67). Extended or literal form of the lane divide. -/
  | idivExt (f : Fields)
  /-- SREM (R67). Base form: scalar remainder. -/
  | srem (f : Fields)
  /-- SREM_EXT (R67). Extended or literal form of the scalar remainder. -/
  | sremExt (f : Fields)
  /-- IREM (R67). Base form: lane remainder. -/
  | irem (f : Fields)
  /-- IREM_EXT (R67). Extended or literal form of the lane remainder. -/
  | iremExt (f : Fields)
  /-- SAND (R108). Base form: scalar bitwise AND. -/
  | sand (f : Fields)
  /-- SAND_EXT (R108). Extended or literal form of the scalar AND. -/
  | sandExt (f : Fields)
  /-- IAND (R108). Base form: lane bitwise AND. -/
  | iand (f : Fields)
  /-- IAND_EXT (R108). Extended or literal form of the lane AND. -/
  | iandExt (f : Fields)
  /-- SOR (R108). Base form: scalar bitwise OR. -/
  | sor (f : Fields)
  /-- SOR_EXT (R108). Extended or literal form of the scalar OR. -/
  | sorExt (f : Fields)
  /-- IOR (R108). Base form: lane bitwise OR. -/
  | ior (f : Fields)
  /-- IOR_EXT (R108). Extended or literal form of the lane OR. -/
  | iorExt (f : Fields)
  /-- SXOR (R108). Base form: scalar bitwise XOR. -/
  | sxor (f : Fields)
  /-- SXOR_EXT (R108). Extended or literal form of the scalar XOR. -/
  | sxorExt (f : Fields)
  /-- IXOR (R108). Base form: lane bitwise XOR. -/
  | ixor (f : Fields)
  /-- IXOR_EXT (R108). Extended or literal form of the lane XOR. -/
  | ixorExt (f : Fields)
  /-- SSHL (R108). Base form: scalar shift left. -/
  | sshl (f : Fields)
  /-- SSHL_EXT (R108). Extended or literal form of the scalar shift left. -/
  | sshlExt (f : Fields)
  /-- ISHL (R108). Base form: lane shift left. -/
  | ishl (f : Fields)
  /-- ISHL_EXT (R108). Extended or literal form of the lane shift left. -/
  | ishlExt (f : Fields)
  /-- SSHR (R108). Base form: scalar logical shift right. -/
  | sshr (f : Fields)
  /-- SSHR_EXT (R108). Extended or literal form of the scalar shift right. -/
  | sshrExt (f : Fields)
  /-- ISHR (R108). Base form: lane logical shift right. -/
  | ishr (f : Fields)
  /-- ISHR_EXT (R108). Extended or literal form of the lane shift right. -/
  | ishrExt (f : Fields)
  /-- SSAR (R108). Base form: scalar arithmetic shift right. -/
  | ssar (f : Fields)
  /-- SSAR_EXT (R108). Extended or literal form of the scalar arithmetic shift. -/
  | ssarExt (f : Fields)
  /-- ISAR (R108). Base form: lane arithmetic shift right. -/
  | isar (f : Fields)
  /-- ISAR_EXT (R108). Extended or literal form of the lane arithmetic shift. -/
  | isarExt (f : Fields)
  /-- SMIN (R108). Base form: scalar minimum. -/
  | smin (f : Fields)
  /-- SMIN_EXT (R108). Extended or literal form of the scalar minimum. -/
  | sminExt (f : Fields)
  /-- IMIN (R108). Base form: lane minimum. -/
  | imin (f : Fields)
  /-- IMIN_EXT (R108). Extended or literal form of the lane minimum. -/
  | iminExt (f : Fields)
  /-- SMAX (R108). Base form: scalar maximum. -/
  | smax (f : Fields)
  /-- SMAX_EXT (R108). Extended or literal form of the scalar maximum. -/
  | smaxExt (f : Fields)
  /-- IMAX (R108). Base form: lane maximum. -/
  | imax (f : Fields)
  /-- IMAX_EXT (R108). Extended or literal form of the lane maximum. -/
  | imaxExt (f : Fields)
  /-- SCLZ (R108). Base form: scalar count leading zeros. -/
  | sclz (f : Fields)
  /-- SCLZ_EXT (R108). Extended form of the scalar count leading zeros. -/
  | sclzExt (f : Fields)
  /-- ICLZ (R108). Base form: lane count leading zeros. -/
  | iclz (f : Fields)
  /-- ICLZ_EXT (R108). Extended form of the lane count leading zeros. -/
  | iclzExt (f : Fields)
  /-- SPOPC (R108). Base form: scalar population count. -/
  | spopc (f : Fields)
  /-- SPOPC_EXT (R108). Extended form of the scalar population count. -/
  | spopcExt (f : Fields)
  /-- IPOPC (R108). Base form: lane population count. -/
  | ipopc (f : Fields)
  /-- IPOPC_EXT (R108). Extended form of the lane population count. -/
  | ipopcExt (f : Fields)
  /-- SBFX (R109). Base form: scalar bit-field extract. -/
  | sbfx (f : Fields)
  /-- SBFX_EXT (R109). Extended or literal form of the scalar bit-field extract. -/
  | sbfxExt (f : Fields)
  /-- IBFX (R109). Base form: lane bit-field extract with scalar field specification. -/
  | ibfx (f : Fields)
  /-- IBFX_EXT (R109). Extended or literal form of the lane bit-field extract. -/
  | ibfxExt (f : Fields)
  /-- SBFI (R109). Base form: scalar bit-field insert into the destination. -/
  | sbfi (f : Fields)
  /-- SBFI_EXT (R109). Extended or literal form of the scalar bit-field insert. -/
  | sbfiExt (f : Fields)
  /-- IBFI (R109). Base form: lane bit-field insert. -/
  | ibfi (f : Fields)
  /-- IBFI_EXT (R109). Extended or literal form of the lane bit-field insert. -/
  | ibfiExt (f : Fields)
  /-- SMOV (R110). Base form: scalar move. -/
  | smov (f : Fields)
  /-- SMOV_EXT (R110). Extended or literal form of the scalar move. -/
  | smovExt (f : Fields)
  /-- IMOV (R110). Base form: lane move. -/
  | imov (f : Fields)
  /-- IMOV_EXT (R110). Extended or literal form of the lane move, including from an s register. -/
  | imovExt (f : Fields)
  /-- SSEL (R110). Base form: scalar select on the destination as condition. -/
  | ssel (f : Fields)
  /-- SSEL_EXT (R110). Extended or literal form of the scalar select. -/
  | sselExt (f : Fields)
  /-- ISEL (R110). Base form: lane select on p0, copying A. -/
  | isel (f : Fields)
  /-- ISEL_EXT (R110). Extended or literal form of the lane select on a predicate. -/
  | iselExt (f : Fields)
  /-- SANDN (R111). Base form: scalar AND NOT. -/
  | sandn (f : Fields)
  /-- SANDN_EXT (R111). Extended or literal form of SANDN. -/
  | sandnExt (f : Fields)
  /-- SROT (R111). Base form: scalar rotate left. -/
  | srot (f : Fields)
  /-- SROT_EXT (R111). Extended or literal form of SROT. -/
  | srotExt (f : Fields)
  /-- SLEA (R111). Base form: scalar add as load-effective-address without scale or displacement. -/
  | slea (f : Fields)
  /-- SLEA_EXT (R111). Extended form of SLEA with scale and displacement. -/
  | sleaExt (f : Fields)
  /-- SCMP (R111). Base form: scalar three-way compare. -/
  | scmp (f : Fields)
  /-- SCMP_EXT (R111). Extended or literal form of SCMP. -/
  | scmpExt (f : Fields)
  /-- IMAD (R112). Base form: lane multiply-add with the destination as addend. -/
  | imad (f : Fields)
  /-- IMAD_EXT (R112). Extended or literal form of IMAD. -/
  | imadExt (f : Fields)
  /-- IABS (R112). Base form: lane absolute value. -/
  | iabs (f : Fields)
  /-- IABS_EXT (R112). Extended form of IABS. -/
  | iabsExt (f : Fields)
  /-- INEG (R112). Base form: lane negate. -/
  | ineg (f : Fields)
  /-- INEG_EXT (R112). Extended form of INEG. -/
  | inegExt (f : Fields)
  /-- INOT (R112). Base form: lane bitwise NOT. -/
  | inot (f : Fields)
  /-- INOT_EXT (R112). Extended form of INOT. -/
  | inotExt (f : Fields)
  /-- ISAD (R112). Base form: lane sum of absolute differences. -/
  | isad (f : Fields)
  /-- ISAD_EXT (R112). Extended or literal form of ISAD. -/
  | isadExt (f : Fields)
  /-- IDOT4 (R112). Base form: four-way 8-bit dot product into i32x2. -/
  | idot4 (f : Fields)
  /-- IDOT4_EXT (R112). Extended or literal form of IDOT4. -/
  | idot4Ext (f : Fields)
  /-- PSETI (R113). Base form: predicate from 32-bit equality compare of lane values. -/
  | pseti (f : Fields)
  /-- PSETI_EXT (R113). Extended or literal form of PSETI with condition, width and scalar operands. -/
  | psetiExt (f : Fields)
  /-- PLOP (R114). Base form: plop.false, clearing the predicate. -/
  | plop (f : Fields)
  /-- PLOP_EXT (R114). Extended form of PLOP with a truth table. -/
  | plopExt (f : Fields)
  /-- PMOV (R115). Base form: predicate copy pD := pB. -/
  | pmov (f : Fields)
  /-- PMOV_EXT (R115). Extended form of the predicate copy. -/
  | pmovExt (f : Fields)
  /-- PMOV_MASK (R115). Base form: predicate from bit laneid of an s register or literal. -/
  | pmovMask (f : Fields)
  /-- PMOV_MASK_EXT (R115). Extended or literal form of the mask-to-predicate move. -/
  | pmovMaskExt (f : Fields)
  /-- VOTE (R116). Group-synchronous any, all or ballot over parked lanes. -/
  | vote (f : Fields)
  /-- BRA (R118). Base form: branch of guarded path lanes to a word offset. -/
  | bra (f : Fields)
  /-- BRA_EXT (R118). Extended form of BRA with offset in IMM32 and a guard. -/
  | braExt (f : Fields)
  /-- BRP (R118). Base form: branch on 'any' of a predicate over the path. -/
  | brp (f : Fields)
  /-- BRP_EXT (R118). Extended form of BRP with any, all, none or not-all. -/
  | brpExt (f : Fields)
  /-- BRX (R119). Base form: indirect branch to a per-lane register target. -/
  | brx (f : Fields)
  /-- BRX_EXT (R119). Extended form of BRX with displacement or scalar target. -/
  | brxExt (f : Fields)
  /-- CALL (R120). Base form: call, pushing the return address per lane. -/
  | call (f : Fields)
  /-- CALL_EXT (R120). Extended form of CALL. -/
  | callExt (f : Fields)
  /-- CALLX (R120). Base form: indirect call through a register. -/
  | callx (f : Fields)
  /-- CALLX_EXT (R120). Extended form of CALLX. -/
  | callxExt (f : Fields)
  /-- RET (R120). Base form: return from the return stack, or exit at depth 0. -/
  | ret (f : Fields)
  /-- RET_EXT (R120). Extended form of RET. -/
  | retExt (f : Fields)
  /-- LOOP (R121). Base form: decrement scalar counter and branch when non-zero. -/
  | loop (f : Fields)
  /-- LOOP_EXT (R121). Extended form of LOOP. -/
  | loopExt (f : Fields)
  /-- YIELD (R122). Base form: sets the yield bit of guarded path lanes. -/
  | yield (f : Fields)
  /-- YIELD_EXT (R122). Extended form of YIELD. -/
  | yieldExt (f : Fields)
  /-- SLEEP (R123). Base form: yield and hold the group for T FCLK or until a wake. -/
  | sleep (f : Fields)
  /-- SLEEP_EXT (R123). Extended or literal form of SLEEP. -/
  | sleepExt (f : Fields)
  /-- EXIT (R96). Base form: guarded path lanes exit; last exit starts draining and seals the open batch. -/
  | exit (f : Fields)
  /-- EXIT_EXT (R96). Extended form of EXIT. -/
  | exitExt (f : Fields)
  /-- NOP (R124). Base form: no effect beyond stall and scoreboard fields. -/
  | nop (f : Fields)
  /-- NOP_EXT (R124). Extended form of NOP. -/
  | nopExt (f : Fields)
  /-- SAFEPT (R125). Base form: stop at a safe point when pre-emption is pending. -/
  | safept (f : Fields)
  /-- SAFEPT_EXT (R125). Extended form of SAFEPT. -/
  | safeptExt (f : Fields)
  /-- PIN (R126). Base form: sets the group pin flag, deferring castling. -/
  | pin (f : Fields)
  /-- PIN_EXT (R126). Extended form of PIN. -/
  | pinExt (f : Fields)
  /-- UNPIN (R126). Base form: clears the pin flag, possibly letting a castling stop proceed. -/
  | unpin (f : Fields)
  /-- UNPIN_EXT (R126). Extended form of UNPIN. -/
  | unpinExt (f : Fields)
  /-- TRAP (R127). Base form: raises SOFTWARE with a code. -/
  | trap (f : Fields)
  /-- TRAP_EXT (R127). Extended form of TRAP with a code in IMM32. -/
  | trapExt (f : Fields)
  /-- BKPT (R127). Base form: raises BREAK with a code. -/
  | bkpt (f : Fields)
  /-- BKPT_EXT (R127). Extended form of BKPT. -/
  | bkptExt (f : Fields)
  /-- MOVSR (R128). Base form: reads a special register into v registers; sr.moved read clears it. -/
  | movsr (f : Fields)
  /-- MOVSR_EXT (R128). Extended form of MOVSR, including a scalar destination. -/
  | movsrExt (f : Fields)
  /-- MOVRS (R129). Base form: writes sr.fflags, sr.srseed or sr.ctl. -/
  | movrs (f : Fields)
  /-- MOVRS_EXT (R129). Extended or literal form of MOVRS. -/
  | movrsExt (f : Fields)
  /-- FADD (R134). Base form: packed floating add. -/
  | fadd (f : Fields)
  /-- FADD_EXT (R134). Extended form of FADD, including fp8x8 and rounding codes. -/
  | faddExt (f : Fields)
  /-- FSUB (R134). Base form: packed floating subtract. -/
  | fsub (f : Fields)
  /-- FSUB_EXT (R134). Extended form of FSUB. -/
  | fsubExt (f : Fields)
  /-- FMUL (R134). Base form: packed floating multiply. -/
  | fmul (f : Fields)
  /-- FMUL_EXT (R134). Extended form of FMUL. -/
  | fmulExt (f : Fields)
  /-- FFMA (R134). Base form: fused multiply-add with the destination as addend. -/
  | ffma (f : Fields)
  /-- FFMA_EXT (R134). Extended form of FFMA. -/
  | ffmaExt (f : Fields)
  /-- FFMS (R134). Base form: fused multiply-subtract. -/
  | ffms (f : Fields)
  /-- FFMS_EXT (R134). Extended form of FFMS. -/
  | ffmsExt (f : Fields)
  /-- FNFMA (R134). Base form: negated fused multiply-add. -/
  | fnfma (f : Fields)
  /-- FNFMA_EXT (R134). Extended form of FNFMA. -/
  | fnfmaExt (f : Fields)
  /-- FNFMS (R134). Base form: negated fused multiply-subtract. -/
  | fnfms (f : Fields)
  /-- FNFMS_EXT (R134). Extended form of FNFMS. -/
  | fnfmsExt (f : Fields)
  /-- FMINNUM (R135). Base form: minimum preferring numbers. -/
  | fminnum (f : Fields)
  /-- FMINNUM_EXT (R135). Extended form of FMINNUM. -/
  | fminnumExt (f : Fields)
  /-- FMAXNUM (R135). Base form: maximum preferring numbers. -/
  | fmaxnum (f : Fields)
  /-- FMAXNUM_EXT (R135). Extended form of FMAXNUM. -/
  | fmaxnumExt (f : Fields)
  /-- FMINNAN (R135). Base form: minimum propagating NaN. -/
  | fminnan (f : Fields)
  /-- FMINNAN_EXT (R135). Extended form of FMINNAN. -/
  | fminnanExt (f : Fields)
  /-- FMAXNAN (R135). Base form: maximum propagating NaN. -/
  | fmaxnan (f : Fields)
  /-- FMAXNAN_EXT (R135). Extended form of FMAXNAN. -/
  | fmaxnanExt (f : Fields)
  /-- FABS (R135). Base form: clears sign bits. -/
  | fabs (f : Fields)
  /-- FABS_EXT (R135). Extended form of FABS. -/
  | fabsExt (f : Fields)
  /-- FNEG (R135). Base form: inverts sign bits. -/
  | fneg (f : Fields)
  /-- FNEG_EXT (R135). Extended form of FNEG. -/
  | fnegExt (f : Fields)
  /-- FCPYSGN (R135). Base form: copies sign from B. -/
  | fcpysgn (f : Fields)
  /-- FCPYSGN_EXT (R135). Extended form of FCPYSGN. -/
  | fcpysgnExt (f : Fields)
  /-- FCLASS (R136). Base form: writes class codes of elements. -/
  | fclass (f : Fields)
  /-- FCLASS_EXT (R136). Extended form of FCLASS. -/
  | fclassExt (f : Fields)
  /-- FRND (R136). Base form: rounds to integral value. -/
  | frnd (f : Fields)
  /-- FRND_EXT (R136). Extended form of FRND with rounding code. -/
  | frndExt (f : Fields)
  /-- FSCALE (R136). Base form: multiplies by a power of two. -/
  | fscale (f : Fields)
  /-- FSCALE_EXT (R136). Extended form of FSCALE. -/
  | fscaleExt (f : Fields)
  /-- FDOT2 (R137). Base form: dot product into f32x2 with one rounding. -/
  | fdot2 (f : Fields)
  /-- FDOT2_EXT (R137). Extended form of FDOT2. -/
  | fdot2Ext (f : Fields)
  /-- FHADD (R137). Base form: horizontal pairwise add. -/
  | fhadd (f : Fields)
  /-- FHADD_EXT (R137). Extended form of FHADD. -/
  | fhaddExt (f : Fields)
  /-- PSETF (R138). Base form: predicate from eq compare of element 0. -/
  | psetf (f : Fields)
  /-- PSETF_EXT (R138). Extended form of PSETF with condition and element select. -/
  | psetfExt (f : Fields)
  /-- FRCP (R139). Special-function reciprocal. -/
  | frcp (f : Fields)
  /-- FRSQ (R139). Special-function reciprocal square root. -/
  | frsq (f : Fields)
  /-- FSQRT (R139). Special-function square root. -/
  | fsqrt (f : Fields)
  /-- FEXP2 (R139). Special-function base-2 exponential. -/
  | fexp2 (f : Fields)
  /-- FLOG2 (R139). Special-function base-2 logarithm. -/
  | flog2 (f : Fields)
  /-- FSIN (R139). Special-function sine. -/
  | fsin (f : Fields)
  /-- FCOS (R139). Special-function cosine. -/
  | fcos (f : Fields)
  /-- FTANH (R139). Special-function hyperbolic tangent. -/
  | ftanh (f : Fields)
  /-- FSIGM (R139). Special-function logistic sigmoid. -/
  | fsigm (f : Fields)
  /-- CVT (R141). Base form: floating type conversion, part 0, C = D. -/
  | cvt (f : Fields)
  /-- CVT_EXT (R141). Extended form of CVT with part index, rounding and sat. -/
  | cvtExt (f : Fields)
  /-- CVTI (R142). Base form: float-integer conversion under rne. -/
  | cvti (f : Fields)
  /-- CVTI_EXT (R142). Extended form of CVTI. -/
  | cvtiExt (f : Fields)
  /-- CVTF8 (R143). Base form: expands narrow codes to E4M3 from offset 0. -/
  | cvtf8 (f : Fields)
  /-- CVTF8_EXT (R143). Extended form of CVTF8 with window offset. -/
  | cvtf8Ext (f : Fields)
  /-- PACK (R144). Base form: narrows integers with C = 0. -/
  | pack (f : Fields)
  /-- PACK_EXT (R144). Extended or literal form of PACK with width and mode control. -/
  | packExt (f : Fields)
  /-- UNPACK (R144). Base form: widens integers with C = 0. -/
  | unpack (f : Fields)
  /-- UNPACK_EXT (R144). Extended form of UNPACK. -/
  | unpackExt (f : Fields)
  /-- MXSC (R146). Computes an E8M0 block scale into one byte. -/
  | mxsc (f : Fields)
  /-- MXQ (R147). Quantises a block to a block format, choosing MXE escapes. -/
  | mxq (f : Fields)
  /-- MXDQ (R148). Dequantises a block to a wide type. -/
  | mxdq (f : Fields)
  /-- SHFL (R150). Moves whole registers between lanes. -/
  | shfl (f : Fields)
  /-- SHFLX (R151). Moves elements between lanes by selectors. -/
  | shflx (f : Fields)
  /-- BCAST (R152). Group-synchronous broadcast of one element. -/
  | bcast (f : Fields)
  /-- RSCAN (R154). Group-synchronous prefix reduction. -/
  | rscan (f : Fields)
  /-- RRED (R154). Group-synchronous reduction across lanes. -/
  | rred (f : Fields)
  /-- PERM (R155). Byte permutation within a lane. -/
  | perm (f : Fields)
  /-- AALLOC (R162). Binds a logical accumulator name, fails or waits. -/
  | aalloc (f : Fields)
  /-- AFREE (R163). Unbinds an accumulator, which drains. -/
  | afree (f : Fields)
  /-- AZERO (R164). Zeroes an accumulator after earlier MMAs. -/
  | azero (f : Fields)
  /-- MMA (R175). Group-synchronous matrix multiply-accumulate. -/
  | mma (f : Fields)
  /-- MMAX (R175). Group-synchronous block-scaled matrix multiply-accumulate. -/
  | mmax (f : Fields)
  /-- ARD (R167). Reads one accumulator quarter into registers. -/
  | ard (f : Fields)
  /-- AWR (R167). Writes one accumulator quarter from registers. -/
  | awr (f : Fields)
  /-- AKS (R164). Writes the accumulator status word. -/
  | aks (f : Fields)
  /-- LD (R208). Global load through L1 or at the home per policy. -/
  | ld (f : Fields)
  /-- ST (R208). Global store through L1 or at the home. -/
  | st (f : Fields)
  /-- LDS (R209). Scratchpad load. -/
  | lds (f : Fields)
  /-- STS (R209). Scratchpad store. -/
  | sts (f : Fields)
  /-- LDB (R210). Bank-memory load. -/
  | ldb (f : Fields)
  /-- STB (R210). Bank-memory store. -/
  | stb (f : Fields)
  /-- LDC (R211). Group-uniform load into an s register. -/
  | ldc (f : Fields)
  /-- LDP (R212). Polling load at the home that yields the lanes. -/
  | ldp (f : Fields)
  /-- PREF (R213). Prefetches a line into L2 and optionally L1. -/
  | pref (f : Fields)
  /-- CFLUSH (R213). Writes back dirty bytes of L1, optionally L2. -/
  | cflush (f : Fields)
  /-- CINV (R213). Writes back and invalidates an L1 line. -/
  | cinv (f : Fields)
  /-- CPIN (R214). Pins L2 lines of a range, writing a status. -/
  | cpin (f : Fields)
  /-- CUNPIN (R214). Unpins L2 lines of a range. -/
  | cunpin (f : Fields)
  /-- ATOM (R216). Global atomic at the home. -/
  | atom (f : Fields)
  /-- ACAS (R216). Global compare-and-swap, yielding failed lanes. -/
  | acas (f : Fields)
  /-- ATOMS (R216). Scratchpad atomic. -/
  | atoms (f : Fields)
  /-- ATOMB (R216). Bank-memory atomic. -/
  | atomb (f : Fields)
  /-- BRED (R217). Sends sequenced reduction contributions to a bank cell. -/
  | bred (f : Fields)
  /-- BVEC (R216). Packed vector atomic at a bank. -/
  | bvec (f : Fields)
  /-- PHASE (R226). Opens a phase boundary on a token and starts release actions. -/
  | phase (f : Fields)
  /-- PWAIT (R227). Waits for a token and applies its acquire. -/
  | pwait (f : Fields)
  /-- BINIT (R244). Sets up a barrier member count. -/
  | binit (f : Fields)
  /-- BARV (R244). Arrives at a barrier and waits for the phase. -/
  | barv (f : Fields)
  /-- BARA (R244). Arrives at a barrier without waiting. -/
  | bara (f : Fields)
  /-- BWAIT (R244). Waits for barrier parity to change. -/
  | bwait (f : Fields)
  /-- BTEST (R244). Reads a barrier word. -/
  | btest (f : Fields)
  /-- CPY (R256). Issues a tensor copy from a descriptor. -/
  | cpy (f : Fields)
  /-- CPYM (R254). Issues a multicast copy to several teams. -/
  | cpym (f : Fields)
  /-- CPYF (R256). Issues a copy with a follow-on MMA. -/
  | cpyf (f : Fields)
  /-- CSEAL (R259). Seals the open copy batch. -/
  | cseal (f : Fields)
  /-- CWAIT (R259). Waits for a batch to complete. -/
  | cwait (f : Fields)
  /-- CBIND (R259). Binds a batch completion to a barrier arrival. -/
  | cbind (f : Fields)
  /-- CSTAT (R260). Reads a batch status word. -/
  | cstat (f : Fields)
  /-- RALLOC (R279). Allocates queue records per lane. -/
  | ralloc (f : Fields)
  /-- RCOMMIT (R280). Publishes records from staging bytes. -/
  | rcommit (f : Fields)
  /-- RFREE (R281). Releases uncommitted or joining records. -/
  | rfree (f : Fields)
  /-- RJOIN (R282). Decrements record join counts. -/
  | rjoin (f : Fields)
  /-- RPOP (R283). Takes one eligible record into the window. -/
  | rpop (f : Fields)
  /-- SPAWN (R285). Adds consumer groups to the team. -/
  | spawn (f : Fields)
  /-- QSTAT (R284). Reads queue status at the home. -/
  | qstat (f : Fields)
  /-- XSEND (R339). Sends lane registers as a message to another team's window. -/
  | xsend (f : Fields)
  /-- RESULT_LANDING (R37). A fixed-latency result lands in its register. -/
  | resultLanding (k : Nat)
  /-- SCOREBOARD_COMPLETION (R39). A variable-latency instruction completes and lowers its scoreboard slot. -/
  | scoreboardCompletion (id : Nat)
  /-- TRAP_ENTRY (R98). Once earlier instructions land, the group records the cause and enters trapped. -/
  | trapEntry (k : Nat)
  /-- GROUP_SYNC_EXECUTE (R94). A group-synchronous instruction executes once every live lane is parked. -/
  | groupSyncExecute (k : Nat)
  /-- WATCHDOG_EXPIRY (R95). ELAPSED reaches PERIOD and the group traps WATCHDOG. -/
  | watchdogExpiry (k : Nat)
  /-- GROUP_OVERDUE (R308). A ready group waits 48 issue-clock FCLK and is taken by issue slot 1. -/
  | groupOverdue (k : Nat)
  /-- DRAIN_COMPLETE (R86). Outstanding work of a draining group ends; slot freed, accumulators and uncommitted records released. -/
  | drainComplete (k : Nat)
  /-- BIND_RECORD_WRITE (R299). Doubleword 0 written with V = 1 binds a record or sets ERR. -/
  | bindRecordWrite (k : Nat) (r : BindRec)
  /-- SLOT_RESUME (R102). Resume command returns a trapped or suspended group to ready or held. -/
  | slotResume (k : Nat)
  /-- SLOT_KILL (R102). Kill command exits every lane and cancels MMAs. -/
  | slotKill (k : Nat)
  /-- SLOT_HOLD (R100). Hold command requests suspension of a group. -/
  | slotHold (k : Nat)
  /-- SLOT_WITHDRAW (R299). Withdraw command frees a bound slot. -/
  | slotWithdraw (k : Nat)
  /-- GROUP_SUSPEND (R100). A supervisor hold takes effect at the next boundary after earlier work lands. -/
  | groupSuspend (k : Nat)
  /-- STATE_WINDOW_WRITE (R101). Supervisor write to a group's state window. -/
  | stateWindowWrite (k : Nat) (off : Nat) (data : List Byte)
  /-- ACC_RECORD_WRITE (R181). Supervisor write to an accumulator record window. -/
  | accRecordWrite (core : Nat) (n : Nat) (off : Nat) (data : List Byte)
  /-- PLUGIN_ACCESS_FAULT (R17). A plug-in accesses outside its windows; monitor kills it and the context faults. -/
  | pluginAccessFault (ctx : Nat)
  /-- REGISTER_WRITE (R5). Write to a register with no row of its own, per its access code. -/
  | registerWrite (core : Nat) (addr : Nat) (data : Word)
  /-- K_STEP (R175). One k-step of the executing MMA is applied once its reads are granted. -/
  | kStep (core : Nat)
  /-- MMA_COMPLETE (R175). An MMA completes 12 FCLK after its last k-step, ORing flags and releasing holds. -/
  | mmaComplete (core : Nat)
  /-- ACC_POISON_TRAP (R179). The owning group traps POISON at its next boundary. -/
  | accPoisonTrap (k : Nat)
  /-- ACC_DRAIN_COMPLETE (R159). A draining accumulator finishes zeroing and becomes free. -/
  | accDrainComplete (core : Nat) (n : Nat)
  /-- ACC_ALLOC_GRANT (R162). A waiting AALLOC binds a freed accumulator. -/
  | accAllocGrant (k : Nat)
  /-- ACC_HOLD_RELEASE (R167). ARD, AWR, AZERO or AFREE acts once earlier MMAs complete. -/
  | accHoldRelease (k : Nat)
  /-- FOLLOW_ON_MMA (R183). A CPYF's follow-on MMA is presented to the target core's array. -/
  | followOnMma (id : Nat)
  /-- PAGE_WALK (R191). The tile walker completes a translation walk. -/
  | pageWalk (site : Nat) (part : Nat) (va : Word)
  /-- HOME_ACCESS (R206). An access is performed at its home agent, L2 or HBM. -/
  | homeAccess (id : Nat) (lane : Nat)
  /-- MEMORY_RESPONSE (R207). A load or returning atomic value lands in registers. -/
  | memoryResponse (id : Nat) (lane : Nat)
  /-- WRITEBACK_PERFORM (R194). Dirty L1 bytes written back are performed at their home. -/
  | writebackPerform (core : Nat) (line : Nat)
  /-- BANK_ACCESS (R187). An access is performed at a bank ALU. -/
  | bankAccess (id : Nat) (lane : Nat)
  /-- REPLICA_APPLY (R202). A forwarded write is applied at a replica in sequencer order. -/
  | replicaApply (part : Nat) (idx : Nat) (rep : Nat)
  /-- MIGRATION_REPLAY (R203). Held stores and atomics are performed at the new frame after migration. -/
  | migrationReplay (id : Nat) (lane : Nat)
  /-- HOST_ACCESS_ERROR (R201). A host or remote access ends with error completion. -/
  | hostAccessError (id : Nat) (lane : Nat)
  /-- COMPLETION_TIMEOUT (R348). A remote access receives no response within the port timeout. -/
  | completionTimeout (id : Nat) (lane : Nat)
  /-- BRED_CONTRIBUTION (R217). A BRED contribution is applied, held or dropped at the bank. -/
  | bredContribution (id : Nat) (lane : Nat)
  /-- BRED_RESEND (R217). The issuing tile resends a contribution that found no window entry. -/
  | bredResend (id : Nat) (lane : Nat)
  /-- PHASE_RELEASE_COMPLETE (R226). A token's release actions finish and it becomes complete. -/
  | phaseReleaseComplete (k : Nat) (tok : Nat)
  /-- PWAIT_RESUME (R227). A held PWAIT finds its token complete and applies the acquire. -/
  | pwaitResume (k : Nat)
  /-- RELEASE_ATOMIC_PERFORM (R229). A release atomic is performed once its release completes. -/
  | releaseAtomicPerform (id : Nat)
  /-- HOST_WRITE (R236). A host or peer write to device HBM is performed at the home. -/
  | hostWrite (tag : Nat) (pa : Nat) (data : List Byte)
  /-- HOST_READ (R351). A host read of device memory is performed at the home. -/
  | hostRead (tag : Nat) (pa : Nat) (n : Nat)
  /-- BARRIER_ARRIVAL (R241). A group arrival is counted once its team release completes. -/
  | barrierArrival (k : Nat)
  /-- BATCH_ARRIVAL (R233). A bound batch arrives at its barrier once every write is performed. -/
  | batchArrival (k : Nat) (j : Nat)
  /-- BARRIER_WAITER_RELEASE (R244). BARV and BWAIT waiters are released with the acquire. -/
  | barrierWaiterRelease (k : Nat)
  /-- COPY_ADMIT (R247). A held copy issues when the engine, batch or scoreboard has room. -/
  | copyAdmit (k : Nat)
  /-- COPY_START (R247). A copy starts on the lowest free engine channel. -/
  | copyStart (id : Nat)
  /-- COPY_WRITE (R249). A copy element is read and its destination write lands, en passant if remapped. -/
  | copyWrite (id : Nat) (n : Nat)
  /-- COPY_COMPLETE (R247). Every write of a copy is performed; OUT falls and its slot lowers. -/
  | copyComplete (id : Nat)
  /-- CWAIT_RESUME (R259). A held CWAIT ends when its batch completes. -/
  | cwaitResume (k : Nat)
  /-- MULTICAST_SHARE (R254). A CPYM share lands, is dropped or fails at a receiver. -/
  | multicastShare (id : Nat) (r : Nat)
  /-- RANGE_HOLD_RELEASE (R255). Accesses and copies held by a range-scoreboard entry proceed when it clears. -/
  | rangeHoldRelease (k : Nat)
  /-- QUEUE_HOME_CHECK (R277). A queue home checks and reserves the lanes of a queue operation. -/
  | queueHomeCheck (id : Nat) (home : Nat)
  /-- QUEUE_APPLY (R277). Reserved lanes are applied once every home reports pass. -/
  | queueApply (id : Nat)
  /-- QUEUE_TIMER_EXPIRY (R272). The queue timer expires T FCLK after arming. -/
  | queueTimerExpiry (ctx : Nat) (kern : Nat) (node : Nat)
  /-- TEAM_LAUNCH (R274). The launcher starts a team on a bind set with a full or partial sorus. -/
  | teamLaunch (ctx : Nat) (kern : Nat) (node : Nat)
  /-- RPOP_DELIVERY (R283). A waiting RPOP receives a record when one becomes deliverable. -/
  | rpopDelivery (k : Nat)
  /-- QUEUE_REOPEN (R270). Firmware reopens a closed queue; held RALLOCs re-examine. -/
  | queueReopen (ctx : Nat) (kern : Nat) (node : Nat)
  /-- WAKE_EVENT (R123). A wake event ends a team's SLEEP. -/
  | wakeEvent (team : Nat)
  /-- SLEEP_TIMEOUT (R123). sr.time reaches the sleep limit and the wait ends. -/
  | sleepTimeout (k : Nat)
  /-- TEAM_START (R275). A team makes its first issue after the sorus lands and the acquire acts. -/
  | teamStart (team : Nat)
  /-- GRID_COUNTER_FETCH (R286). A tile fetch-adds 8 indices from the team counter. -/
  | gridCounterFetch (ctx : Nat) (grid : Nat) (site : Nat)
  /-- GRID_TEAM_LAUNCH (R286). A grid team is launched on a free bind set with a local index. -/
  | gridTeamLaunch (ctx : Nat) (grid : Nat) (site : Nat)
  /-- RUN (R295). RUN launch line opens a run. -/
  | run (vf : Nat) (line : Nat)
  /-- APPEND (R295). APPEND launch line adds an eligible host record. -/
  | append (vf : Nat) (line : Nat)
  /-- END (R295). END launch line closes a node run for new records. -/
  | endRun (vf : Nat) (line : Nat)
  /-- RUN_END (R296). A run ends: release at sys, DONEVAL store, MSI-X. -/
  | runEnd (ctx : Nat) (grid : Nat)
  /-- CASTLING_INTERVAL (R319). An interval ends and castling stops are requested on ring sites. -/
  | castlingInterval (part : Nat)
  /-- TEAM_STOP (R309). All groups of a team have stopped; release completes and the image is written. -/
  | teamStop (team : Nat)
  /-- CASTLING_MOVE (R319). Once every ring team is stopped, images move to the next site. -/
  | castlingMove (part : Nat) (ring : Nat)
  /-- CASTLING_RESUME (R319). A team resumes 16 FCLK after its last image byte lands. -/
  | castlingResume (team : Nat)
  /-- PIN_LIMIT (R126). The 64 us pin deferral expires; castling proceeds and pins clear. -/
  | pinLimit (team : Nat)
  /-- PREEMPT_BUDGET_EXPIRY (R315). BUDGET passes and remaining groups are forced to stop. -/
  | preemptBudgetExpiry (ctx : Nat)
  /-- TEAM_RESTORE (R317). A saved team is restored on a bind set. -/
  | teamRestore (ctx : Nat) (slot : Nat)
  /-- CONTEXT_KILL_COMPLETE (R326). Every slot free and no copy left; the killed context starts scrubbing. -/
  | contextKillComplete (ctx : Nat)
  /-- CONTEXT_SCRUB_COMPLETE (R327). Context scrub finishes; the number returns to destroyed. -/
  | contextScrubComplete (ctx : Nat)
  /-- CLEAR (R328). Write to CLEAR zeroes selected counters. -/
  | clear (ctx : Nat) (mask : Word)
  /-- EVENTS_READ (R329). Read of EVENTS returns and clears the bits. -/
  | eventsRead (ctx : Nat)
  /-- ENERGY_ACCOUNTING (R386). Each 1 ms, tile energy is divided among contexts and OVHD. -/
  | energyAccounting (samples : List EnergySample)
  /-- FLIT_ARRIVAL (R330). A mesh flit arrives at a router and is forwarded or dropped. -/
  | flitArrival (flit : Flit)
  /-- SITE_FAILURE (R13). A good site fails in service; Roith maps it out and may promote a spare. -/
  | siteFailure (site : Nat) (routerOk : Bool)
  /-- ROUTE_REPAIR (R333). Roith installs repaired tables, routes and castling plan. -/
  | routeRepair (part : Nat) (table : List RouterEntry) (routes : List Route) (plan : CastlePlan)
  /-- LOST_ACCESS_TIMEOUT (R333). An access whose flit was lost completes as an error after 100 us. -/
  | lostAccessTimeout (id : Nat) (lane : Nat)
  /-- TEAM_LOCATION_LOOKUP (R337). A receiver is looked up in the team location table. -/
  | teamLocationLookup (id : Nat)
  /-- XSEND_DELIVERY (R339). An XSEND message lands, is dropped, or fails at its receiver; wake sent. -/
  | xsendDelivery (id : Nat)
  /-- XSEND_ACKNOWLEDGEMENT (R340). The acknowledgement returns and the XSEND completes. -/
  | xsendAcknowledgement (id : Nat)
  /-- ETSEL_READ (R344). Etsel read packet received. -/
  | etselRead (p : Etsel)
  /-- ETSEL_WRITE (R344). Etsel write packet received. -/
  | etselWrite (p : Etsel)
  /-- ETSEL_ATOMIC (R344). Etsel atomic packet received. -/
  | etselAtomic (p : Etsel)
  /-- ETSEL_READ_DATA (R344). Etsel read data response received. -/
  | etselReadData (p : Etsel)
  /-- ETSEL_WRITE_ACKNOWLEDGEMENT (R344). Etsel write acknowledgement received. -/
  | etselWriteAcknowledgement (p : Etsel)
  /-- ETSEL_XSEND (R344). Etsel XSEND packet received. -/
  | etselXsend (p : Etsel)
  /-- ETSEL_ERROR (R344). Etsel error packet received. -/
  | etselError (p : Etsel)
  /-- ETSEL_XSEND_ACKNOWLEDGEMENT (R344). Etsel XSEND acknowledgement received. -/
  | etselXsendAcknowledgement (p : Etsel)
  /-- ETSEL_MANAGEMENT (R344). Etsel management packet received. -/
  | etselManagement (p : Etsel)
  /-- FLIT_CRC_FAILURE (R344). An Etsel flit fails CRC and is replayed go-back-N. -/
  | flitCrcFailure (port : Nat)
  /-- XOFF (R345). XOFF control flit stops new packets on a virtual lane. -/
  | xoff (port : Nat) (vl : Nat)
  /-- XON (R345). XON control flit resumes a virtual lane. -/
  | xon (port : Nat) (vl : Nat)
  /-- LOSS_OF_SIGNAL (R353). A port loses signal and goes down. -/
  | lossOfSignal (port : Nat)
  /-- LANE_FAILURE (R353). A port lane fails; port degraded or down. -/
  | laneFailure (port : Nat)
  /-- TRAINING_COMPLETE (R353). Training succeeds at full or reduced width. -/
  | trainingComplete (port : Nat) (width : Nat) (full : Bool) (found : Trained)
  /-- TRAINING_TIMEOUT (R353). Training does not succeed within 100 ms. -/
  | trainingTimeout (port : Nat)
  /-- HOST_COMPLETION_TIMEOUT (R352). A host request times out; port isolated, function frozen. -/
  | hostCompletionTimeout (port : Nat) (vf : Nat)
  /-- PORT_ISOLATE (R353). Roith isolate command isolates a port. -/
  | portIsolate (port : Nat)
  /-- PORT_FREEZE (R353). Freeze command or sixteen tag failures freeze a port. -/
  | portFreeze (port : Nat)
  /-- EN (R354). Port enable bit write. -/
  | en (port : Nat) (on : Bool)
  /-- RETRAIN (R354). RETRAIN bit starts training. -/
  | retrain (port : Nat)
  /-- UNFREEZE (R354). UNFREEZE bit leaves frozen. -/
  | unfreeze (port : Nat)
  /-- FUNCTION_LEVEL_RESET (R352). A function-level reset unfreezes a frozen function. -/
  | functionLevelReset (vf : Nat)
  /-- SPDM_REQUEST (R371). The MGX answers an SPDM request over DOE. -/
  | spdmRequest (req : SpdmReq)
  /-- LOCK_INTERFACE (R370). TDISP lock of a protected partition's function. -/
  | lockInterface (vf : Nat)
  /-- PART_CARVE (R360). Carves a new partition. -/
  | partCarve (sites : List Nat) (chans : List Nat) (desc : PartDesc) (table : List RouterEntry) (port : Nat) (root : Nat)
  /-- PART_GROW (R361). Adds sites and channels. -/
  | partGrow (part : Nat) (sites : List Nat) (chans : List Nat) (tables : GrowTables) (force : Bool)
  /-- PART_SHRINK (R362). Removes sites and channels. -/
  | partShrink (part : Nat) (sites : List Nat) (chans : List Nat) (force : Bool)
  /-- PART_COMPACT (R363). Moves teams and frames to new sites. -/
  | partCompact (part : Nat) (map : List (Nat × Nat)) (table : List RouterEntry) (plan : CastlePlan) (force : Bool)
  /-- PART_QUOTA (R357). Changes the partition descriptor. -/
  | partQuota (part : Nat) (desc : PartDesc) (force : Bool)
  /-- PART_QUIESCE (R364). Starts the quiesce protocol. -/
  | partQuiesce (part : Nat)
  /-- QUIESCE_COMPLETE (R364). Links drain and the partition enters migrating out. -/
  | quiesceComplete (part : Nat)
  /-- PART_EXPORT (R365). Starts live migration pre-copy. -/
  | partExport (part : Nat) (dest : StreamDest) (threshold : Nat) (force : Bool)
  /-- PRECOPY_ROUND (R365). One pre-copy round of dirty lines ends. -/
  | precopyRound (part : Nat) (order : List Nat)
  /-- PART_IMPORT (R368). Starts applying an export image. -/
  | partImport (sites : List Nat) (chans : List Nat) (desc : PartDesc) (source : StreamHead)
  /-- EXPORT_RECORD (R368). The destination accepts or rejects a page record. -/
  | exportRecord (part : Nat) (r : Machine.StreamRec)
  /-- PART_EXPORT_DONE (R365). Scrubs the source after import. -/
  | partExportDone (part : Nat)
  /-- PART_ABORT (R358). Returns the partition to active. -/
  | partAbort (part : Nat)
  /-- PART_DESTROY (R376). Kills every context and scrubs. -/
  | partDestroy (part : Nat)
  /-- PARTITION_SCRUB_COMPLETE (R369). Scrub finishes and units return to the free pool. -/
  | partitionScrubComplete (part : Nat) (failed : List Nat)
  /-- ROUTES_SET (R334). Installs numbered routes. -/
  | routesSet (part : Nat) (routes : List Route)
  /-- CASTLE_SET (R318). Installs a castling plan. -/
  | castleSet (part : Nat) (plan : CastlePlan)
  /-- PT_INVAL (R191). Invalidates translations of a range. -/
  | ptInval (part : Nat) (addr : Nat) (len : Nat)
  /-- REPLICA_SET (R202). Sets a replica table entry. -/
  | replicaSet (part : Nat) (idx : Nat) (chans : List Nat)
  /-- PIN_RELEASE (R214). Unpins L2 lines of a range. -/
  | pinRelease (part : Nat) (addr : Nat) (len : Nat)
  /-- PAGE_RETIRE (R376). Moves a frame and maps the old one out. -/
  | pageRetire (part : Nat) (frame : Nat) (into : Nat)
  /-- PEER_SET (R347). Writes a peer table entry. -/
  | peerSet (part : Nat) (entry : Nat) (peer : PeerRec)
  /-- KEY_SET (R346). Installs an Etsel stream key. -/
  | keySet (part : Nat) (peer : Nat) (port : Nat) (key : Word)
  /-- VF_BIND (R370). Binds a virtual function to a port and context. -/
  | vfBind (part : Nat) (port : Nat) (ctx : Nat) (force : Bool)
  /-- CTX_CREATE (R303). Creates a context. -/
  | ctxCreate (part : Nat) (desc : CtxDescr)
  /-- CTX_DESC (R304). Changes a context descriptor. -/
  | ctxDesc (ctx : Nat) (desc : CtxDescr)
  /-- CTX_KILL (R326). Kills a context. -/
  | ctxKill (ctx : Nat)
  /-- CTX_PREEMPT (R313). Requests pre-emption of a context. -/
  | ctxPreempt (ctx : Nat)
  /-- CTX_RESUME (R317). Resumes a saved or faulted context. -/
  | ctxResume (ctx : Nat)
  /-- CTX_FAULT (R305). Sends a context to faulted. -/
  | ctxFault (ctx : Nat)
  /-- KERN_LOAD (R293). Loads, measures and maps a kernel image. -/
  | kernLoad (ctx : Nat) (image : List Byte) (sizes : List (Nat × Nat)) (plan : Plan)
  /-- KERN_UNLOAD (R289). Sends a kernel to retiring. -/
  | kernUnload (ctx : Nat) (kern : Nat)
  /-- PLAN_SET (R297). Installs a placement plan. -/
  | planSet (ctx : Nat) (kern : Nat) (plan : Plan)
  /-- PORT_CTL (R354). Writes a port control word. -/
  | portCtl (port : Nat) (value : Word)
  /-- STATUS (R377). Copies a partition status block to a buffer. -/
  | status (part : Nat)
  /-- LOG_READ (R331). Reads a router drop log. -/
  | logRead (site : Nat)
  /-- WREC_READ (R374). Reads the wafer record and amendments. -/
  | wrecRead
  /-- MODULE_RESET (R373). ROM boots the module and applies the wafer record. -/
  | moduleReset
  /-- CONTROL_INTERVAL (R381). Each 10 us, tiles adjust LCLK and ration from power and temperature. -/
  | controlInterval (pnow : Nat) (avg : Nat) (samples : List PowerSample)
  /-- FAST_LIMITER_SAMPLE (R381). A 1 us delivery sample at or above 29.5 kW cuts every ration to 1. -/
  | fastLimiterSample (watts : Nat)
  /-- POWER_CONTROL_WRITE (R382). Tile power block control write applied at the next interval. -/
  | powerControlWrite (site : Nat) (value : Word)
  /-- READ_GRANT (R379). In each LCLK the operand collector grants up to G register-file reads, k-step reads first, then reduces the read backlog Q. -/
  | readGrant (core : Nat)
  /-- STALL_COUNT_EXPIRY (R36). The n FCLK of issue-clock hold after an instruction with STALL = n run out, and the group returns to ready. -/
  | stallCountExpiry (k : Nat)
  /-- RESERVED_MAJOR_OPCODE (R43). A word with a reserved major opcode or unused FN reaches the issue address and traps ILLEGAL_OPCODE. -/
  | reservedMajorOpcode (w : Word32)
  /-- LAUNCH_LINE_WRITE (R295). A host write to a launch line: bytes stored, discarded while GO is non-zero or while the function is frozen, or a GO trigger with an unlisted TYPE refused with code 1. -/
  | launchLineWrite (vf : Nat) (off : Nat) (data : List Byte)
  /-- COMMAND_LINE_WRITE (R375). A write to the Roith command line: bytes stored, discarded while GO is set, or a trigger with an unlisted OP returning code 1. -/
  | commandLineWrite (port : Nat) (off : Nat) (data : List Byte)
  /-- HOST_PORT_COMPLETION (R219). A host port receives the host's global-observation completion, or a back-invalidate response, for a device request. -/
  | hostPortCompletion (id : Nat) (lane : Nat)
  /-- START_INTERFACE (R370). A TDISP request moves a locked interface of the function to RUN. -/
  | startInterface (vf : Nat)
  /-- STOP_INTERFACE (R370). A TDISP request returns the interface from CONFIG_LOCKED, RUN or ERROR to CONFIG_UNLOCKED. -/
  | stopInterface (vf : Nat)
deriving DecidableEq, Repr

end Sys2Proof
end

