-- ==== Sys2Proof/Decode.lean ====
section
/-!
DEFINITION. Decoding and encoding of instruction words: the fields of R26 to R28, the operand classes
and field rules of R28 to R35 with each instruction's own field table, and the opcode map of R41 and R42.
An illegal opcode and a non-zero reserved field are rejected by name, in the order of R40.
-/

namespace Sys2Proof

/-! ### Words and fields (R24, R26 to R29) -/

/-- LEN bit 0: the form has words 1 and 2. -/
abbrev Fields.ext (f : Fields) : Bool := f.len.getLsbD 0

/-- LEN bit 1: a literal follows. -/
abbrev Fields.hasLit (f : Fields) : Bool := f.len.getLsbD 1

/-- The third source: the field C, and in base form the destination register (R29). -/
def Fields.src3 (f : Fields) : BitVec 7 := if f.ext then f.c else f.d

/-- The number of words of a form by LEN (R24). -/
def lenWords (len : BitVec 2) : Nat := 1 + (if len.getLsbD 0 then 2 else 0) + (if len.getLsbD 1 then 2 else 0)

/-- The bytes of an instruction by its LEN. -/
def Fields.bytes (f : Fields) : Nat := 4 * lenWords f.len

/-- Major opcode of a word 0 (R26). -/
def majOf (w0 : Word32) : BitVec 7 := w0.extractLsb' 5 7

/-- The fields of an instruction from its words: word 0; words 1 and 2 (zero in base form); the
literal (zero where there is none). -/
def fieldsOf (w0 w1 w2 : Word32) (lit : Word) : Fields where
  len   := w0.extractLsb' 0 2
  stall := w0.extractLsb' 2 3
  fn    := w0.extractLsb' 12 2
  d     := w1.extractLsb' 2 1 ++ w0.extractLsb' 14 6
  a     := w1.extractLsb' 1 1 ++ w0.extractLsb' 20 6
  b     := w1.extractLsb' 0 1 ++ w0.extractLsb' 26 6
  c     := w1.extractLsb' 3 7
  gp    := w1.extractLsb' 10 3
  gn    := w1.getLsbD 13
  md    := w1.extractLsb' 14 4
  sbsN  := w1.extractLsb' 18 3
  sbsV  := w1.getLsbD 21
  sbw   := w1.extractLsb' 22 8
  xf    := w1.extractLsb' 30 2
  imm   := w2
  lit   := lit

/-- Word 0 of an instruction (R26). -/
def Fields.word0 (f : Fields) (maj : BitVec 7) : Word32 :=
  f.b.extractLsb' 0 6 ++ f.a.extractLsb' 0 6 ++ f.d.extractLsb' 0 6 ++ f.fn ++ maj ++ f.stall ++ f.len

/-- Word 1 of an instruction (R27). -/
def Fields.word1 (f : Fields) : Word32 :=
  f.xf ++ f.sbw ++ BitVec.ofBool f.sbsV ++ f.sbsN ++ f.md ++ BitVec.ofBool f.gn ++ f.gp ++ f.c
    ++ f.d.extractLsb' 6 1 ++ f.a.extractLsb' 6 1 ++ f.b.extractLsb' 6 1

/-- The words of an instruction in ascending address (R24). -/
def Fields.words (f : Fields) (maj : BitVec 7) : List Word32 :=
  f.word0 maj :: (if f.ext then [f.word1, f.imm] else []) ++
    (if f.hasLit then [f.lit.extractLsb' 0 32, f.lit.extractLsb' 32 32] else [])

/-- The fields of the words at the head of a list, or none where the list ends inside the instruction. -/
def splitWords : List Word32 → Option Fields
  | [] => none
  | w0 :: r =>
    match w0.getLsbD 0, w0.getLsbD 1, r with
    | false, false, _ => some (fieldsOf w0 0 0 0)
    | true, false, w1 :: w2 :: _ => some (fieldsOf w0 w1 w2 0)
    | false, true, l0 :: l1 :: _ => some (fieldsOf w0 0 0 (l1 ++ l0))
    | true, true, w1 :: w2 :: l0 :: l1 :: _ => some (fieldsOf w0 w1 w2 (l1 ++ l0))
    | _, _, _ => none

/-! ### Operand classes (R30) and the field table of each instruction -/

/-- The operand classes of R30. `v n` names n consecutive registers (R131), `spair` an even s register
from s2 (R168), `raw` six bits that belong to an offset or code field, `other` a value whose rule
stands in `Shape.ok`. -/
inductive Cls where
  | unused | v (n : Nat) | s | spair | p | ac | br | tk | raw | other
deriving DecidableEq, Repr

/-- An operand field: its class and whether its register is read and written. -/
structure Opd where
  cls : Cls := .unused
  rd  : Bool := false
  wr  : Bool := false
deriving DecidableEq, Repr

/-- What one instruction's fields mean: `base` a base form exists; the four operand fields; `ok` the
rules of MOD, XF, IMM32 and control fields hold; `lit` a literal has a meaning; `g0` the guard must be
p0; `lat` the latency L of R37, 0 for variable latency; `side` the v registers that MMAX names in
IMM32 as (first, count). -/
structure Shape where
  base : Bool := true
  d    : Opd := {}
  a    : Opd := {}
  b    : Opd := {}
  c    : Opd := {}
  ok   : Bool := true
  lit  : Bool := false
  g0   : Bool := false
  lat  : Nat := 0
  side : List (Nat × Nat) := []
deriving DecidableEq, Repr

/-- No operand. -/
def oN : Opd := {}
/-- n v registers read. -/
def oVr (n : Nat) : Opd := { cls := .v n, rd := true }
/-- n v registers written. -/
def oVw (n : Nat) : Opd := { cls := .v n, wr := true }
/-- n v registers read and written. -/
def oVrw (n : Nat) : Opd := { cls := .v n, rd := true, wr := true }
/-- An s register read. -/
def oSr : Opd := { cls := .s, rd := true }
/-- An s register written. -/
def oSw : Opd := { cls := .s, wr := true }
/-- A predicate read. -/
def oPr : Opd := { cls := .p, rd := true }
/-- A predicate written. -/
def oPw : Opd := { cls := .p, wr := true }
/-- An accumulator name. -/
def oAc : Opd := { cls := .ac }
/-- A barrier. -/
def oBr : Opd := { cls := .br }
/-- A token. -/
def oTk : Opd := { cls := .tk }
/-- Six bits of an offset or code field. -/
def oRaw : Opd := { cls := .raw }
/-- A selector or control field. -/
def oOth : Opd := { cls := .other }
/-- A special register read (R128). -/
def oSpR : Opd := { cls := .other, rd := true }
/-- A special register written (R129). -/
def oSpW : Opd := { cls := .other, wr := true }

/-- Source B of class S or a literal. -/
def oSL (f : Fields) : Opd := if f.hasLit then oN else oSr

/-- Source B of class V or a literal. -/
def oVL (f : Fields) : Opd := if f.hasLit then oN else oVr 1

/-- Source B of class V, a literal, or an s register with XF = 0b01 (R105). -/
def oVSL (f : Fields) : Opd := if f.xf = 1 then oSr else oVL f

/-- XF of an instruction whose B is V, literal or S: 0, or 0b01 without a literal (R105). -/
def xfVSL (f : Fields) : Bool := f.xf = 0 || (f.xf = 1 && !f.hasLit)

/-- MOD of an integer instruction (R33): SAT where `sat`, width where `width`. -/
def intMod (f : Fields) (sat width : Bool) : Bool :=
  !f.md.getLsbD 3 && (sat || !f.md.getLsbD 2) && (width || f.md.extractLsb' 0 2 == 0)

/-- The rounding code, MOD[3:1] (R33). -/
def Fields.rn (f : Fields) : Nat := (f.md.extractLsb' 1 3).toNat

/-- Major opcodes 0x00 to 0x13 (R41, R107). -/
def shapeInt (maj : Nat) (f : Fields) : Option Shape :=
  let uns := maj ∈ [0, 1, 2, 3, 4, 5, 9, 0xC, 0xD, 0x10]
  let sat : Bool := maj = 0 || maj = 1 || maj = 2 || maj = 9
  let one : Bool := maj = 0xE || maj = 0xF
  let mul : Bool := maj = 2 || maj = 3
  let div : Bool := maj = 4 || maj = 5
  if f.fn.getLsbD 0 && !decide uns then none
  else if f.fn.getLsbD 1 then
    some { d := oSw, a := if maj = 0x12 then oN else oSr, b := if one then oN else oSL f,
           c := if maj = 0x11 || maj = 0x13 then oSr else oN,
           ok := intMod f sat false && f.xf == 0 && f.imm == 0, lit := !one,
           lat := if mul then 4 else if div then 8 else 2 }
  else
    let field : Bool := maj = 0x10 || maj = 0x11
    some { d := oVw 1, a := if maj = 0x12 then oN else oVr 1,
           b := if one then oN else if field then oSL f else oVSL f,
           c := if maj = 0x11 then oVr 1 else if maj = 0x13 then oPr else oN,
           ok := intMod f sat true && (if one || field then f.xf == 0 else xfVSL f) && f.imm == 0,
           lit := !one, lat := if mul then 5 else if div then 8 else 3 }

/-- Elements per register by FN in 0x30 to 0x43 (R53, R133). -/
def fnCount (fn : BitVec 2) : Nat := if fn = 0 then 2 else if fn = 3 then 8 else 4

/-- Major opcodes 0x30 to 0x43 (R133 to R138). -/
def shapeFloat (maj : Nat) (f : Fields) : Shape :=
  let one : Bool := maj = 0x3B || maj = 0x3C || maj = 0x3E || maj = 0x3F
  let norn : Bool := (0x37 ≤ maj && maj ≤ 0x3E) || maj = 0x43
  let three : Bool := (0x33 ≤ maj && maj ≤ 0x36) || maj = 0x41
  { base := f.fn != 3, d := if maj = 0x43 then oPw else oVw 1, a := oVr 1,
    b := if one then oN else oVSL f,
    c := if three then oVr 1 else if maj = 0x43 then oOth else oN,
    ok := (if norn then f.rn = 0 else f.rn ≤ 4) && (f.fn == 3 || !f.md.getLsbD 0)
      && (if one then f.xf == 0 else xfVSL f) && f.imm == 0
      && (maj != 0x43 || ((f.c.extractLsb' 3 4).toNat ≤ 7 && (f.c.extractLsb' 0 3).toNat < fnCount f.fn)),
    lit := !one, lat := if maj = 0x43 then 3 else 4 }

/-- Width of a floating type code of R141: 0 f32, 1 bf16, 2 f16, 3 e4m3, 4 e5m2. -/
def ftWidth (t : Nat) : Nat := if t = 0 then 32 else if t ≤ 2 then 16 else 8

/-- Width of an integer code of R142: 0 32, 1 16, 2 8, 3 64 bits. -/
def itWidth (t : Nat) : Nat := if t = 0 then 32 else if t = 1 then 16 else if t = 2 then 8 else 64

/-- Shared rules of CVT and CVTI (R141, R142): the part index fits, and C is read where the conversion
narrows. -/
def shapeConv (f : Fields) (ws wd : Nat) (sel : Bool) : Shape :=
  { d := oVw 1, a := oVr 1, b := oOth, c := if wd < ws then oVr 1 else oN,
    ok := sel && f.b.toNat < 64 && f.rn ≤ 5 && f.xf.toNat < max ws wd / min ws wd && f.imm == 0, lat := 4 }

/-- Registers that hold 32 elements of a wide type code of R145. -/
def wideRegs (w : Nat) : Nat := if w = 0 then 16 else 8

/-- Registers that hold 32 elements of a format code of R145. -/
def fmtRegs (t : Nat) : Nat := if t = 2 || t = 3 then 2 else 4

/-- MXSC, MXQ and MXDQ (R145 to R148). -/
def shapeMx (maj : Nat) (f : Fields) : Shape :=
  let fmt := (f.imm.extractLsb' 0 3).toNat
  let wide := (f.imm.extractLsb' 3 2).toNat
  let nw := wideRegs wide
  let nf := fmtRegs fmt
  let ctl : Bool := f.imm.extractLsb' 9 23 == 0 && wide ≤ 2 && fmt ≤ 4 && f.xf == 0
    && (fmt = 3 || !f.imm.getLsbD 8)
  let md : Bool := f.rn ≤ 5 && !f.md.getLsbD 0
  if maj = 0x51 then { base := false, d := oVrw 1, a := oVr nw, ok := ctl && f.md == 0 }
  else if maj = 0x52 then
    { base := false, d := oVw nf, a := oVr nw, b := oVrw 1, c := if fmt = 3 then oVrw 1 else oN, ok := ctl && md }
  else
    { base := false, d := oVw nw, a := oVr nf, b := oVr 1, c := if fmt = 3 then oVr 1 else oN, ok := ctl && md }

/-- Element width of a SHFLX width code (R151). -/
def shflxWidth (m : Nat) : Nat := if m = 0 then 32 else if m = 1 then 16 else if m = 2 then 8 else if m = 3 then 64 else 4

/-- SHFL, SHFLX and BCAST (R150 to R152). -/
def shapeShfl (f : Fields) : Option Shape :=
  if f.fn = 0 then
    some { base := false, d := oVw 1, a := oVr 1, b := oVSL f, ok := xfVSL f && f.imm == 0 && f.md.toNat ≤ 3, lit := true }
  else if f.fn = 3 then none
  else
    let w := shflxWidth f.md.toNat
    let n := (64 / w + 3) / 4
    let b := if f.xf = 0 then oVr n else if f.xf = 1 then oSr else oN
    some { base := false, d := oVw 1, a := oVr 1, b := b, g0 := f.fn == 2,
           ok := f.md.toNat ≤ 4 && f.xf != 3 && (f.fn = 1 || f.xf != 0)
             && (if f.xf = 2 then f.imm.extractLsb' 16 16 == 0 else f.imm == 0) }

/-- RSCAN and RRED (R153); MOD[0] is accepted with every floating type.  DEDUCED (log 74). -/
def shapeRed (rred : Bool) (f : Fields) : Shape :=
  let op := (f.b.extractLsb' 3 3).toNat
  let ty := (f.b.extractLsb' 0 3).toNat
  { base := false, d := if rred && f.xf == 1 then oSw else oVw 1, a := oVr 1, b := oOth, g0 := true,
    ok := f.b.toNat < 64 && op ≤ 5 && f.xf.toNat ≤ 1 && f.imm == 0
      && (if ty < 4 then f.rn = 0
          else op ≤ 2 && (if op = 0 then f.rn ≤ 4 else f.rn = 0)) }

/-- Whether the types of an MMAX type code make A (or B) MXE, and whether they are 4-bit (R173). -/
def mmaxMxe (ty : Nat) (opB : Bool) : Bool := if opB then ty = 6 || ty = 7 else ty = 5 || ty = 7
/-- The 4-bit types of MMAX. -/
def mmax4 (ty : Nat) : Bool := 4 ≤ ty && ty ≤ 7

/-- MMA and MMAX (R172 to R174). -/
def shapeMma (f : Fields) : Option Shape :=
  let a := if f.xf.getLsbD 0 then { cls := .spair, rd := true } else oVr 16
  let b := if f.xf.getLsbD 1 then { cls := .spair, rd := true } else oVr 16
  let ty := f.md.toNat
  if f.fn = 0 then some { base := false, d := oAc, a := a, b := b, ok := ty ≤ 7 && f.imm == 0, g0 := true }
  else if f.fn = 1 then
    let sa := (f.imm.extractLsb' 0 7).toNat
    let sb := (f.imm.extractLsb' 8 7).toNat
    let la := (f.imm.extractLsb' 16 7).toNat
    let lb := (f.imm.extractLsb' 23 7).toNat
    let four := mmax4 ty
    some { base := false, d := oAc, a := a, b := b, g0 := true,
           ok := ty ≤ 8 && f.imm.extractLsb' 30 2 == 0
             && (!four || (!f.imm.getLsbD 7 && !f.imm.getLsbD 15))
             && (if mmaxMxe ty false then la + 3 ≤ 127 else la = 0)
             && (if mmaxMxe ty true then lb + 3 ≤ 127 else lb = 0),
           side := [(sa, 1), (sb, 1)] ++ (if mmaxMxe ty false then [(la, 4)] else [])
             ++ (if mmaxMxe ty true then [(lb, 4)] else []) }
  else none

/-- Registers that a size code of R204 fills. -/
def sizeRegs (m : Nat) : Nat := if m = 5 then 4 else if m = 4 then 2 else 1

/-- The offset operand of a memory instruction: V, or S with XF[0] (R204). -/
def oOff (f : Fields) : Opd := if f.xf.getLsbD 0 then oSr else oVr 1

/-- The control word of an atomic (R215): which OP and TYPE each opcode permits. -/
def atomCtl (maj fn op ty : Nat) : Bool :=
  let f32op : Bool := op = 0 || op = 4 || op = 5 || op = 8 || op = 9
  let scal : Bool := ty ≤ 1 || (ty = 2 && f32op)
  if maj = 0x65 && fn = 0 then op ≤ 8 && scal
  else if maj = 0x65 then op = 9 && ty ≤ 2
  else if maj = 0x66 || (maj = 0x67 && fn = 0) then op ≤ 9 && scal
  else if fn = 1 then op = 0 && ty ≤ 2
  else (op = 0 || (4 ≤ op && op ≤ 7)) && 3 ≤ ty && ty ≤ 6 && (ty != 6 || op = 0 || op = 4 || op = 5)

/-- The atomics 0x65 to 0x67 (R204, R215). -/
def shapeAtom (maj : Nat) (f : Fields) : Option Shape :=
  if (maj = 0x65 && 1 < f.fn.toNat) || (maj = 0x66 && f.fn != 0) || f.fn = 3 then none
  else
    let op := (f.imm.extractLsb' 0 4).toNat
    let ty := (f.imm.extractLsb' 4 3).toNat
    let sc := (f.imm.extractLsb' 8 3).toNat
    let bred : Bool := maj = 0x67 && f.fn = 1
    some { base := false, d := if bred then oVr 1 else if f.xf.getLsbD 1 then oN else oVw 1, a := oSr,
           b := oOff f, c := oVr (if op = 9 then 2 else 1),
           ok := f.md.toNat ≤ 3 && !(bred && f.xf.getLsbD 1) && !f.imm.getLsbD 7
             && f.imm.extractLsb' 11 5 == 0 && sc ≤ 4 && (f.md.toNat != 0 || sc = 0)
             && atomCtl maj f.fn.toNat op ty }

/-- The memory instructions 0x60 to 0x64 (R204). -/
def shapeMem (maj : Nat) (f : Fields) : Option Shape :=
  let sz := (f.md.extractLsb' 0 3).toNat
  let sx := f.md.getLsbD 3
  let x1 : Bool := f.xf.toNat ≤ 1
  let d (n : Nat) := if f.fn.getLsbD 0 then oVr n else oVw n
  let sign : Bool := !sx || (f.fn = 0 && sz ≤ 2)
  if maj = 0x60 || maj = 0x61 then
    if 1 < f.fn.toNat then none
    else some { base := false, d := d (sizeRegs sz), a := oSr, b := oOff f, c := if maj = 0x60 then oSr else oN,
                ok := sz ≤ 5 && sign && x1 }
  else if maj = 0x62 then
    if 1 < f.fn.toNat then none
    else some { base := false, d := d 1, a := oSr, b := oOff f, ok := sz ≤ 3 && sign && x1 }
  else if maj = 0x63 then
    if f.fn = 0 then
      some { base := false, d := oSw, a := oSr, b := oSr, c := oSr, ok := sz ≤ 3 && (!sx || sz ≤ 2) && f.xf == 0 }
    else if f.fn = 1 then
      some { base := false, d := oVw 1, a := oSr, b := oOff f, c := oSr, ok := sz ≤ 3 && (!sx || sz ≤ 2) && x1 }
    else none
  else if f.fn = 3 then
    some { base := false, d := oSw, a := oSr, b := oSr, ok := f.md.toNat ≤ 1 && f.xf == 0 }
  else
    some { base := false, a := oSr, b := oOff f, c := if f.fn = 0 then oSr else oN,
           ok := x1 && (if f.fn = 2 then f.md == 0 else f.md.toNat ≤ 1) }

/-- The encoding table of R41 and R42 with each instruction's field table; none for a reserved MAJ or an
unused FN. -/
def shape (m : BitVec 7) (f : Fields) : Option Shape :=
  let maj := m.toNat
  let plain : Bool := f.md == 0 && f.xf == 0 && f.imm == 0
  let br : Bool := f.md == 0 && f.xf == 0
  if maj ≤ 0x13 then shapeInt maj f
  else if maj ≤ 0x17 then
    if f.fn = 0 || (maj = 0x17 && f.fn = 1) then
      some { d := oSw, a := oSr, b := oSL f, ok := f.md == 0 && (maj = 0x16 || (f.xf == 0 && f.imm == 0)), lit := true, lat := 2 }
    else none
  else if maj = 0x18 || maj = 0x1A || maj = 0x1B then
    if f.fn.toNat ≤ 1 || (maj = 0x1B && f.fn = 2) then
      some { d := oVw 1, a := oVr 1, b := oVSL f, c := oVr 1,
             ok := intMod f (maj = 0x18) (maj != 0x1B) && xfVSL f && f.imm == 0, lit := true, lat := 5 }
    else none
  else if maj = 0x19 then
    if f.fn = 3 then none else some { d := oVw 1, a := oVr 1, ok := intMod f false true && f.xf == 0 && f.imm == 0, lat := 3 }
  else if maj = 0x1C then
    if 1 < f.fn.toNat then none
    else some { d := oPw, a := if f.xf = 2 then oSr else oVr 1, b := if f.xf = 0 then oVL f else oSL f,
                ok := f.rn ≤ 5 && f.xf != 3 && !(f.xf == 1 && f.hasLit) && f.imm == 0, lit := true, lat := 2 }
  else if maj = 0x1D then
    if f.fn = 0 then some { d := oPw, a := oPr, b := oPr, ok := f.xf == 0 && f.imm == 0, lat := 2 }
    else if f.fn = 1 then some { d := oPw, b := oPr, ok := plain, lat := 2 }
    else if f.fn = 2 then some { d := oPw, b := oSL f, ok := plain, lit := true, lat := 2 }
    else none
  else if maj = 0x1E then
    if f.fn = 3 then none
    else some { base := false, d := if f.fn = 2 then oSw else oPw, a := oPr, ok := plain, g0 := true }
  else if maj = 0x20 then
    if f.fn = 0 then some { d := oRaw, a := oRaw, b := oRaw, ok := br }
    else if f.fn = 1 then some { d := oPr, a := oRaw, b := oRaw, ok := f.md == 0 }
    else if f.fn = 2 then some { a := if f.xf = 1 then oSr else oVr 1, ok := f.md == 0 && f.xf.toNat ≤ 1 }
    else none
  else if maj = 0x21 then
    if f.fn = 0 then some { d := oRaw, a := oRaw, b := oRaw, ok := br }
    else if f.fn = 1 then some { a := if f.xf = 1 then oSr else oVr 1, ok := f.md == 0 && f.xf.toNat ≤ 1 }
    else none
  else if maj = 0x22 || maj = 0x25 then if f.fn = 0 then some { ok := plain } else none
  else if maj = 0x23 then
    if f.fn = 0 then some { d := { cls := .s, rd := true, wr := true }, a := oRaw, b := oRaw, ok := br, lat := 2 } else none
  else if maj = 0x24 then
    if f.fn = 0 then some { ok := plain }
    else if f.fn = 1 then some { b := oSL f, ok := plain, lit := true }
    else none
  else if maj = 0x26 then some { ok := plain }
  else if maj = 0x27 then if f.fn.toNat ≤ 1 then some { d := oRaw, a := oRaw, b := oRaw, ok := br } else none
  else if maj = 0x28 then
    if f.fn = 0 then
      some { d := if f.xf = 1 then oSw else oVw 1, a := oSpR, lat := 2,
             ok := f.a.toNat ≤ 0x10 && f.md == 0 && f.xf.toNat ≤ 1 && f.imm == 0 }
    else if f.fn = 1 then some { d := oSpW, b := oSL f, ok := f.d.toNat ≤ 0x10 && plain, lit := true, lat := 2 }
    else none
  else if 0x30 ≤ maj && maj ≤ 0x43 then some (shapeFloat maj f)
  else if 0x44 ≤ maj && maj ≤ 0x4C then
    if f.fn = 3 then none else some { base := false, d := oVw 1, a := oVr 1, ok := plain }
  else if maj = 0x4D then
    if f.fn = 0 then
      let dt := (f.b.extractLsb' 3 3).toNat
      let st := (f.b.extractLsb' 0 3).toNat
      some (shapeConv f (ftWidth st) (ftWidth dt) (dt ≤ 4 && st ≤ 4))
    else none
  else if maj = 0x4E then
    if f.fn = 0 then
      let iw := itWidth (f.b.extractLsb' 3 2).toNat
      let fw := ftWidth (f.b.extractLsb' 0 3).toNat
      let toF := f.b.getLsbD 5
      some (shapeConv f (if toF then iw else fw) (if toF then fw else iw)
        ((f.b.extractLsb' 0 3).toNat ≤ 4 && max iw fw / min iw fw ≤ 4))
    else none
  else if maj = 0x4F then
    if f.fn = 0 then
      let k := f.xf.toNat
      let reach : Bool := 64 < 16 * k + (if f.b = 0 then 32 else 48)
      some { d := oVw 1, a := oVr 1, b := oOth, c := if reach then oVr 1 else oN,
             ok := f.b.toNat ≤ 2 && f.md == 0 && f.imm == 0, lat := 4 }
    else none
  else if maj = 0x50 then
    if f.fn = 0 then some { d := oVw 1, a := oVr 1, b := oVL f, c := oOth, ok := plain && f.c.toNat < 16, lit := true, lat := 4 }
    else if f.fn = 1 then some { d := oVw 1, a := oVr 1, c := oOth, ok := plain && f.c.toNat < 16, lat := 4 }
    else none
  else if 0x51 ≤ maj && maj ≤ 0x53 then if f.fn = 0 then some (shapeMx maj f) else none
  else if maj = 0x54 then shapeShfl f
  else if maj = 0x55 || maj = 0x56 then if f.fn = 0 then some (shapeRed (maj = 0x56) f) else none
  else if maj = 0x57 then
    if f.fn = 0 then
      some { base := false, d := oVw 1, a := oVr 1, b := oVL f, c := if f.xf = 0 then oVr 1 else oN, lit := true,
             ok := f.md == 0 && (f.xf == 1 || (f.xf == 0 && f.imm == 0)) }
    else none
  else if maj = 0x58 then
    if f.fn = 0 then some { base := false, d := oSw, a := oAc, ok := f.md == 0 && f.imm == 0 && f.xf.toNat ≤ 1 }
    else if f.fn = 1 then some { base := false, a := oAc, ok := plain }
    else if f.fn = 2 then some { base := false, d := oAc, ok := plain }
    else none
  else if maj = 0x59 then shapeMma f
  else if maj = 0x5A then
    if f.fn = 0 then some { base := false, d := oVw 16, a := oAc, ok := f.md.toNat ≤ 1 && f.imm == 0 }
    else if f.fn = 1 then some { base := false, d := oAc, a := oVr 16, ok := f.md == 0 && f.imm == 0 }
    else if f.fn = 2 then some { base := false, d := oSw, a := oAc, ok := plain }
    else none
  else if 0x60 ≤ maj && maj ≤ 0x64 then shapeMem maj f
  else if 0x65 ≤ maj && maj ≤ 0x67 then shapeAtom maj f
  else if maj = 0x68 then
    if f.fn = 0 then some { base := false, d := oTk, ok := f.md.toNat ≤ 4 && f.xf != 3 && f.imm == 0 }
    else if f.fn = 1 then some { base := false, a := oTk, ok := plain }
    else none
  else if maj = 0x69 then
    if f.fn = 0 then
      some { base := false, d := oBr, b := if f.xf = 0 then oSr else oN,
             ok := f.md == 0 && (if f.xf = 0 then f.imm == 0 else f.xf == 1 && 1 ≤ f.imm.toNat && f.imm.toNat ≤ 255) }
    else if f.fn = 3 then some { base := false, a := oBr, b := oSr, ok := plain }
    else some { base := false, d := oSw, a := oBr, ok := plain, g0 := true }
  else if maj = 0x6A then if f.fn = 0 then some { base := false, d := oSw, a := oBr, ok := plain } else none
  else if maj = 0x6B then if f.fn = 3 then none else some { base := false, a := oSr, ok := br }
  else if maj = 0x6C then
    if f.fn = 0 then some { base := false, d := oSw, ok := plain }
    else if f.fn = 1 then
      some { base := false, a := if f.xf = 0 then oSr else oN, ok := f.md == 0 && (f.xf == 1 || (f.xf == 0 && f.imm == 0)) }
    else if f.fn = 2 then some { base := false, d := oBr, a := oSr, ok := plain }
    else some { base := false, d := oSw, a := oSr, ok := plain }
  else if maj = 0x6D then
    if f.fn = 0 then
      some { base := false, d := oVw 1, b := if f.xf = 1 then oSr else oVr 1, c := oPw,
             ok := f.md.toNat ≤ 3 && f.xf.toNat ≤ 1 && f.imm.extractLsb' 6 26 == 0 }
    else if f.fn = 1 then
      some { base := false, d := oVr 1, a := oSr, b := if f.xf = 1 then oSr else oVr 1, ok := f.md == 0 && f.xf.toNat ≤ 1 }
    else if f.fn = 2 then some { base := false, d := oVr 1, ok := plain }
    else none
  else if maj = 0x6E then if f.fn = 0 then some { base := false, d := oVr 1, c := oPw, ok := plain } else none
  else if maj = 0x6F then
    if f.fn = 0 then
      some { base := false, d := oSw, a := oSr, ok := f.md == 0 && f.xf.toNat ≤ 1 && f.imm.extractLsb' 6 10 == 0 }
    else none
  else if maj = 0x70 then
    if f.fn = 0 then
      let n := (f.imm.extractLsb' 0 4).toNat
      some { base := false, d := oPw, ok := f.md == 0 && f.xf == 0 && f.imm.extractLsb' 4 4 == 0
               && f.imm.extractLsb' 14 18 == 0 && 1 ≤ n && n ≤ 8 }
    else if f.fn = 1 then some { base := false, d := oSw, ok := f.md == 0 && f.xf == 0 && f.imm.extractLsb' 6 26 == 0 }
    else none
  else if maj = 0x71 then
    if f.fn = 0 then
      let n := if f.md = 0 then 1 else if f.md = 1 then 2 else 4
      some { base := false, a := oVr n, b := oSr, c := oSr, ok := f.md.toNat ≤ 2 && f.xf == 0 }
    else none
  else none

/-- The value range of an operand field by class (R30, R131, R168). -/
def Cls.fits : Cls → BitVec 7 → Bool
  | .unused, x => x == 0
  | .v n, x => x.toNat + n ≤ 128
  | .s, x => x.toNat < 64
  | .spair, x => x.toNat < 64 && !x.getLsbD 0 && x != 0
  | .p, x => x.toNat < 8
  | .ac, x => x.toNat < 8
  | .br, x => x.toNat < 16
  | .tk, x => x.toNat < 8
  | .raw, x => x.toNat < 64
  | .other, _ => true

/-- The checks of R28 to R35 that need no state: true when no reserved or unused field is non-zero. The
third source of a base form is the destination field, which is checked as D. -/
def Shape.fieldsOk (sh : Shape) (f : Fields) : Bool :=
  sh.ok && sh.d.cls.fits f.d && sh.a.cls.fits f.a && sh.b.cls.fits f.b
    && (if f.ext then sh.c.cls.fits f.c else true)
    && (f.sbsV || f.sbsN == 0) && (!sh.g0 || (f.gp == 0 && !f.gn)) && (sh.lit || !f.hasLit)

/-- Why a word is rejected (R40). -/
inductive DecodeErr where
  /-- Cause 0x01: a base form that does not exist (R29, R40). -/
  | illegalOpcode
  /-- Cause 0x02: a reserved or unused field that is not zero (R26 to R35). -/
  | reservedField
  /-- The bytes end inside the instruction; at a fetch this cannot happen. -/
  | truncated
deriving DecidableEq, Repr

/-- The checks of R40, causes 1 and 2, on a major opcode and fields. -/
def checkFields (maj : BitVec 7) (f : Fields) : Except DecodeErr Unit :=
  match shape maj f with
  | none => .error .illegalOpcode
  | some sh =>
    if !sh.base && !f.ext then .error .illegalOpcode
    else if sh.fieldsOk f then .ok () else .error .reservedField

/-- The reserved major opcodes of R43. -/
def reservedMaj (maj : BitVec 7) : Bool :=
  let m := maj.toNat
  m = 0x1F || (0x29 ≤ m && m ≤ 0x2F) || (0x5B ≤ m && m ≤ 0x5F) || 0x72 ≤ m

/-- Base constructor for LEN 0b00, the other for every longer form. -/
def form (f : Fields) (base long : Fields → Instr) : Option Instr :=
  some (if f.len = 0 then base f else long f)

/-- The instruction of a major opcode and fields (R41, R42), where the FN is in use. -/
noncomputable def mkInstr (maj : BitVec 7) (f : Fields) : Option Instr :=
  match maj.toNat, f.fn.toNat with
  | 0x00, 0 => form f .iadd .iaddExt
  | 0x00, 1 => form f .iadd .iaddExt
  | 0x00, 2 => form f .sadd .saddExt
  | 0x00, 3 => form f .sadd .saddExt
  | 0x01, 0 => form f .isub .isubExt
  | 0x01, 1 => form f .isub .isubExt
  | 0x01, 2 => form f .ssub .ssubExt
  | 0x01, 3 => form f .ssub .ssubExt
  | 0x02, 0 => form f .imul .imulExt
  | 0x02, 1 => form f .imul .imulExt
  | 0x02, 2 => form f .smul .smulExt
  | 0x02, 3 => form f .smul .smulExt
  | 0x03, 0 => form f .imulh .imulhExt
  | 0x03, 1 => form f .imulh .imulhExt
  | 0x03, 2 => form f .smulh .smulhExt
  | 0x03, 3 => form f .smulh .smulhExt
  | 0x04, 0 => form f .idiv .idivExt
  | 0x04, 1 => form f .idiv .idivExt
  | 0x04, 2 => form f .sdiv .sdivExt
  | 0x04, 3 => form f .sdiv .sdivExt
  | 0x05, 0 => form f .irem .iremExt
  | 0x05, 1 => form f .irem .iremExt
  | 0x05, 2 => form f .srem .sremExt
  | 0x05, 3 => form f .srem .sremExt
  | 0x06, 0 => form f .iand .iandExt
  | 0x06, 2 => form f .sand .sandExt
  | 0x07, 0 => form f .ior .iorExt
  | 0x07, 2 => form f .sor .sorExt
  | 0x08, 0 => form f .ixor .ixorExt
  | 0x08, 2 => form f .sxor .sxorExt
  | 0x09, 0 => form f .ishl .ishlExt
  | 0x09, 1 => form f .ishl .ishlExt
  | 0x09, 2 => form f .sshl .sshlExt
  | 0x09, 3 => form f .sshl .sshlExt
  | 0x0A, 0 => form f .ishr .ishrExt
  | 0x0A, 2 => form f .sshr .sshrExt
  | 0x0B, 0 => form f .isar .isarExt
  | 0x0B, 2 => form f .ssar .ssarExt
  | 0x0C, 0 => form f .imin .iminExt
  | 0x0C, 1 => form f .imin .iminExt
  | 0x0C, 2 => form f .smin .sminExt
  | 0x0C, 3 => form f .smin .sminExt
  | 0x0D, 0 => form f .imax .imaxExt
  | 0x0D, 1 => form f .imax .imaxExt
  | 0x0D, 2 => form f .smax .smaxExt
  | 0x0D, 3 => form f .smax .smaxExt
  | 0x0E, 0 => form f .iclz .iclzExt
  | 0x0E, 2 => form f .sclz .sclzExt
  | 0x0F, 0 => form f .ipopc .ipopcExt
  | 0x0F, 2 => form f .spopc .spopcExt
  | 0x10, 0 => form f .ibfx .ibfxExt
  | 0x10, 1 => form f .ibfx .ibfxExt
  | 0x10, 2 => form f .sbfx .sbfxExt
  | 0x10, 3 => form f .sbfx .sbfxExt
  | 0x11, 0 => form f .ibfi .ibfiExt
  | 0x11, 2 => form f .sbfi .sbfiExt
  | 0x12, 0 => form f .imov .imovExt
  | 0x12, 2 => form f .smov .smovExt
  | 0x13, 0 => form f .isel .iselExt
  | 0x13, 2 => form f .ssel .sselExt
  | 0x14, 0 => form f .sandn .sandnExt
  | 0x15, 0 => form f .srot .srotExt
  | 0x16, 0 => form f .slea .sleaExt
  | 0x17, 0 => form f .scmp .scmpExt
  | 0x17, 1 => form f .scmp .scmpExt
  | 0x18, 0 => form f .imad .imadExt
  | 0x18, 1 => form f .imad .imadExt
  | 0x19, 0 => form f .iabs .iabsExt
  | 0x19, 1 => form f .ineg .inegExt
  | 0x19, 2 => form f .inot .inotExt
  | 0x1A, 0 => form f .isad .isadExt
  | 0x1A, 1 => form f .isad .isadExt
  | 0x1B, 0 => form f .idot4 .idot4Ext
  | 0x1B, 1 => form f .idot4 .idot4Ext
  | 0x1B, 2 => form f .idot4 .idot4Ext
  | 0x1C, 0 => form f .pseti .psetiExt
  | 0x1C, 1 => form f .pseti .psetiExt
  | 0x1D, 0 => form f .plop .plopExt
  | 0x1D, 1 => form f .pmov .pmovExt
  | 0x1D, 2 => form f .pmovMask .pmovMaskExt
  | 0x1E, 0 => some (.vote f)
  | 0x1E, 1 => some (.vote f)
  | 0x1E, 2 => some (.vote f)
  | 0x20, 0 => form f .bra .braExt
  | 0x20, 1 => form f .brp .brpExt
  | 0x20, 2 => form f .brx .brxExt
  | 0x21, 0 => form f .call .callExt
  | 0x21, 1 => form f .callx .callxExt
  | 0x22, 0 => form f .ret .retExt
  | 0x23, 0 => form f .loop .loopExt
  | 0x24, 0 => form f .yield .yieldExt
  | 0x24, 1 => form f .sleep .sleepExt
  | 0x25, 0 => form f .exit .exitExt
  | 0x26, 0 => form f .nop .nopExt
  | 0x26, 1 => form f .safept .safeptExt
  | 0x26, 2 => form f .pin .pinExt
  | 0x26, 3 => form f .unpin .unpinExt
  | 0x27, 0 => form f .trap .trapExt
  | 0x27, 1 => form f .bkpt .bkptExt
  | 0x28, 0 => form f .movsr .movsrExt
  | 0x28, 1 => form f .movrs .movrsExt
  | 0x30, 0 => form f .fadd .faddExt
  | 0x30, 1 => form f .fadd .faddExt
  | 0x30, 2 => form f .fadd .faddExt
  | 0x30, 3 => form f .fadd .faddExt
  | 0x31, 0 => form f .fsub .fsubExt
  | 0x31, 1 => form f .fsub .fsubExt
  | 0x31, 2 => form f .fsub .fsubExt
  | 0x31, 3 => form f .fsub .fsubExt
  | 0x32, 0 => form f .fmul .fmulExt
  | 0x32, 1 => form f .fmul .fmulExt
  | 0x32, 2 => form f .fmul .fmulExt
  | 0x32, 3 => form f .fmul .fmulExt
  | 0x33, 0 => form f .ffma .ffmaExt
  | 0x33, 1 => form f .ffma .ffmaExt
  | 0x33, 2 => form f .ffma .ffmaExt
  | 0x33, 3 => form f .ffma .ffmaExt
  | 0x34, 0 => form f .ffms .ffmsExt
  | 0x34, 1 => form f .ffms .ffmsExt
  | 0x34, 2 => form f .ffms .ffmsExt
  | 0x34, 3 => form f .ffms .ffmsExt
  | 0x35, 0 => form f .fnfma .fnfmaExt
  | 0x35, 1 => form f .fnfma .fnfmaExt
  | 0x35, 2 => form f .fnfma .fnfmaExt
  | 0x35, 3 => form f .fnfma .fnfmaExt
  | 0x36, 0 => form f .fnfms .fnfmsExt
  | 0x36, 1 => form f .fnfms .fnfmsExt
  | 0x36, 2 => form f .fnfms .fnfmsExt
  | 0x36, 3 => form f .fnfms .fnfmsExt
  | 0x37, 0 => form f .fminnum .fminnumExt
  | 0x37, 1 => form f .fminnum .fminnumExt
  | 0x37, 2 => form f .fminnum .fminnumExt
  | 0x37, 3 => form f .fminnum .fminnumExt
  | 0x38, 0 => form f .fmaxnum .fmaxnumExt
  | 0x38, 1 => form f .fmaxnum .fmaxnumExt
  | 0x38, 2 => form f .fmaxnum .fmaxnumExt
  | 0x38, 3 => form f .fmaxnum .fmaxnumExt
  | 0x39, 0 => form f .fminnan .fminnanExt
  | 0x39, 1 => form f .fminnan .fminnanExt
  | 0x39, 2 => form f .fminnan .fminnanExt
  | 0x39, 3 => form f .fminnan .fminnanExt
  | 0x3A, 0 => form f .fmaxnan .fmaxnanExt
  | 0x3A, 1 => form f .fmaxnan .fmaxnanExt
  | 0x3A, 2 => form f .fmaxnan .fmaxnanExt
  | 0x3A, 3 => form f .fmaxnan .fmaxnanExt
  | 0x3B, 0 => form f .fabs .fabsExt
  | 0x3B, 1 => form f .fabs .fabsExt
  | 0x3B, 2 => form f .fabs .fabsExt
  | 0x3B, 3 => form f .fabs .fabsExt
  | 0x3C, 0 => form f .fneg .fnegExt
  | 0x3C, 1 => form f .fneg .fnegExt
  | 0x3C, 2 => form f .fneg .fnegExt
  | 0x3C, 3 => form f .fneg .fnegExt
  | 0x3D, 0 => form f .fcpysgn .fcpysgnExt
  | 0x3D, 1 => form f .fcpysgn .fcpysgnExt
  | 0x3D, 2 => form f .fcpysgn .fcpysgnExt
  | 0x3D, 3 => form f .fcpysgn .fcpysgnExt
  | 0x3E, 0 => form f .fclass .fclassExt
  | 0x3E, 1 => form f .fclass .fclassExt
  | 0x3E, 2 => form f .fclass .fclassExt
  | 0x3E, 3 => form f .fclass .fclassExt
  | 0x3F, 0 => form f .frnd .frndExt
  | 0x3F, 1 => form f .frnd .frndExt
  | 0x3F, 2 => form f .frnd .frndExt
  | 0x3F, 3 => form f .frnd .frndExt
  | 0x40, 0 => form f .fscale .fscaleExt
  | 0x40, 1 => form f .fscale .fscaleExt
  | 0x40, 2 => form f .fscale .fscaleExt
  | 0x40, 3 => form f .fscale .fscaleExt
  | 0x41, 0 => form f .fdot2 .fdot2Ext
  | 0x41, 1 => form f .fdot2 .fdot2Ext
  | 0x41, 2 => form f .fdot2 .fdot2Ext
  | 0x41, 3 => form f .fdot2 .fdot2Ext
  | 0x42, 0 => form f .fhadd .fhaddExt
  | 0x42, 1 => form f .fhadd .fhaddExt
  | 0x42, 2 => form f .fhadd .fhaddExt
  | 0x42, 3 => form f .fhadd .fhaddExt
  | 0x43, 0 => form f .psetf .psetfExt
  | 0x43, 1 => form f .psetf .psetfExt
  | 0x43, 2 => form f .psetf .psetfExt
  | 0x43, 3 => form f .psetf .psetfExt
  | 0x44, 0 => some (.frcp f)
  | 0x44, 1 => some (.frcp f)
  | 0x44, 2 => some (.frcp f)
  | 0x45, 0 => some (.frsq f)
  | 0x45, 1 => some (.frsq f)
  | 0x45, 2 => some (.frsq f)
  | 0x46, 0 => some (.fsqrt f)
  | 0x46, 1 => some (.fsqrt f)
  | 0x46, 2 => some (.fsqrt f)
  | 0x47, 0 => some (.fexp2 f)
  | 0x47, 1 => some (.fexp2 f)
  | 0x47, 2 => some (.fexp2 f)
  | 0x48, 0 => some (.flog2 f)
  | 0x48, 1 => some (.flog2 f)
  | 0x48, 2 => some (.flog2 f)
  | 0x49, 0 => some (.fsin f)
  | 0x49, 1 => some (.fsin f)
  | 0x49, 2 => some (.fsin f)
  | 0x4A, 0 => some (.fcos f)
  | 0x4A, 1 => some (.fcos f)
  | 0x4A, 2 => some (.fcos f)
  | 0x4B, 0 => some (.ftanh f)
  | 0x4B, 1 => some (.ftanh f)
  | 0x4B, 2 => some (.ftanh f)
  | 0x4C, 0 => some (.fsigm f)
  | 0x4C, 1 => some (.fsigm f)
  | 0x4C, 2 => some (.fsigm f)
  | 0x4D, 0 => form f .cvt .cvtExt
  | 0x4E, 0 => form f .cvti .cvtiExt
  | 0x4F, 0 => form f .cvtf8 .cvtf8Ext
  | 0x50, 0 => form f .pack .packExt
  | 0x50, 1 => form f .unpack .unpackExt
  | 0x51, 0 => some (.mxsc f)
  | 0x52, 0 => some (.mxq f)
  | 0x53, 0 => some (.mxdq f)
  | 0x54, 0 => some (.shfl f)
  | 0x54, 1 => some (.shflx f)
  | 0x54, 2 => some (.bcast f)
  | 0x55, 0 => some (.rscan f)
  | 0x56, 0 => some (.rred f)
  | 0x57, 0 => some (.perm f)
  | 0x58, 0 => some (.aalloc f)
  | 0x58, 1 => some (.afree f)
  | 0x58, 2 => some (.azero f)
  | 0x59, 0 => some (.mma f)
  | 0x59, 1 => some (.mmax f)
  | 0x5A, 0 => some (.ard f)
  | 0x5A, 1 => some (.awr f)
  | 0x5A, 2 => some (.aks f)
  | 0x60, 0 => some (.ld f)
  | 0x60, 1 => some (.st f)
  | 0x61, 0 => some (.lds f)
  | 0x61, 1 => some (.sts f)
  | 0x62, 0 => some (.ldb f)
  | 0x62, 1 => some (.stb f)
  | 0x63, 0 => some (.ldc f)
  | 0x63, 1 => some (.ldp f)
  | 0x64, 0 => some (.pref f)
  | 0x64, 1 => some (.cflush f)
  | 0x64, 2 => some (.cinv f)
  | 0x64, 3 => if f.md = 0 then some (.cpin f) else some (.cunpin f)
  | 0x65, 0 => some (.atom f)
  | 0x65, 1 => some (.acas f)
  | 0x66, 0 => some (.atoms f)
  | 0x67, 0 => some (.atomb f)
  | 0x67, 1 => some (.bred f)
  | 0x67, 2 => some (.bvec f)
  | 0x68, 0 => some (.phase f)
  | 0x68, 1 => some (.pwait f)
  | 0x69, 0 => some (.binit f)
  | 0x69, 1 => some (.barv f)
  | 0x69, 2 => some (.bara f)
  | 0x69, 3 => some (.bwait f)
  | 0x6A, 0 => some (.btest f)
  | 0x6B, 0 => some (.cpy f)
  | 0x6B, 1 => some (.cpym f)
  | 0x6B, 2 => some (.cpyf f)
  | 0x6C, 0 => some (.cseal f)
  | 0x6C, 1 => some (.cwait f)
  | 0x6C, 2 => some (.cbind f)
  | 0x6C, 3 => some (.cstat f)
  | 0x6D, 0 => some (.ralloc f)
  | 0x6D, 1 => some (.rcommit f)
  | 0x6D, 2 => some (.rfree f)
  | 0x6E, 0 => some (.rjoin f)
  | 0x6F, 0 => some (.rpop f)
  | 0x70, 0 => some (.spawn f)
  | 0x70, 1 => some (.qstat f)
  | 0x71, 0 => some (.xsend f)
  | _, _ => none

/-- The major opcode and fields of an instruction form; none for events and commands, which have no words. -/
def opOf : Instr → Option (BitVec 7 × Fields)
  | .sadd f => some (0x00, f)
  | .saddExt f => some (0x00, f)
  | .iadd f => some (0x00, f)
  | .iaddExt f => some (0x00, f)
  | .ssub f => some (0x01, f)
  | .ssubExt f => some (0x01, f)
  | .isub f => some (0x01, f)
  | .isubExt f => some (0x01, f)
  | .smul f => some (0x02, f)
  | .smulExt f => some (0x02, f)
  | .imul f => some (0x02, f)
  | .imulExt f => some (0x02, f)
  | .smulh f => some (0x03, f)
  | .smulhExt f => some (0x03, f)
  | .imulh f => some (0x03, f)
  | .imulhExt f => some (0x03, f)
  | .sdiv f => some (0x04, f)
  | .sdivExt f => some (0x04, f)
  | .idiv f => some (0x04, f)
  | .idivExt f => some (0x04, f)
  | .srem f => some (0x05, f)
  | .sremExt f => some (0x05, f)
  | .irem f => some (0x05, f)
  | .iremExt f => some (0x05, f)
  | .sand f => some (0x06, f)
  | .sandExt f => some (0x06, f)
  | .iand f => some (0x06, f)
  | .iandExt f => some (0x06, f)
  | .sor f => some (0x07, f)
  | .sorExt f => some (0x07, f)
  | .ior f => some (0x07, f)
  | .iorExt f => some (0x07, f)
  | .sxor f => some (0x08, f)
  | .sxorExt f => some (0x08, f)
  | .ixor f => some (0x08, f)
  | .ixorExt f => some (0x08, f)
  | .sshl f => some (0x09, f)
  | .sshlExt f => some (0x09, f)
  | .ishl f => some (0x09, f)
  | .ishlExt f => some (0x09, f)
  | .sshr f => some (0x0A, f)
  | .sshrExt f => some (0x0A, f)
  | .ishr f => some (0x0A, f)
  | .ishrExt f => some (0x0A, f)
  | .ssar f => some (0x0B, f)
  | .ssarExt f => some (0x0B, f)
  | .isar f => some (0x0B, f)
  | .isarExt f => some (0x0B, f)
  | .smin f => some (0x0C, f)
  | .sminExt f => some (0x0C, f)
  | .imin f => some (0x0C, f)
  | .iminExt f => some (0x0C, f)
  | .smax f => some (0x0D, f)
  | .smaxExt f => some (0x0D, f)
  | .imax f => some (0x0D, f)
  | .imaxExt f => some (0x0D, f)
  | .sclz f => some (0x0E, f)
  | .sclzExt f => some (0x0E, f)
  | .iclz f => some (0x0E, f)
  | .iclzExt f => some (0x0E, f)
  | .spopc f => some (0x0F, f)
  | .spopcExt f => some (0x0F, f)
  | .ipopc f => some (0x0F, f)
  | .ipopcExt f => some (0x0F, f)
  | .sbfx f => some (0x10, f)
  | .sbfxExt f => some (0x10, f)
  | .ibfx f => some (0x10, f)
  | .ibfxExt f => some (0x10, f)
  | .sbfi f => some (0x11, f)
  | .sbfiExt f => some (0x11, f)
  | .ibfi f => some (0x11, f)
  | .ibfiExt f => some (0x11, f)
  | .smov f => some (0x12, f)
  | .smovExt f => some (0x12, f)
  | .imov f => some (0x12, f)
  | .imovExt f => some (0x12, f)
  | .ssel f => some (0x13, f)
  | .sselExt f => some (0x13, f)
  | .isel f => some (0x13, f)
  | .iselExt f => some (0x13, f)
  | .sandn f => some (0x14, f)
  | .sandnExt f => some (0x14, f)
  | .srot f => some (0x15, f)
  | .srotExt f => some (0x15, f)
  | .slea f => some (0x16, f)
  | .sleaExt f => some (0x16, f)
  | .scmp f => some (0x17, f)
  | .scmpExt f => some (0x17, f)
  | .imad f => some (0x18, f)
  | .imadExt f => some (0x18, f)
  | .iabs f => some (0x19, f)
  | .iabsExt f => some (0x19, f)
  | .ineg f => some (0x19, f)
  | .inegExt f => some (0x19, f)
  | .inot f => some (0x19, f)
  | .inotExt f => some (0x19, f)
  | .isad f => some (0x1A, f)
  | .isadExt f => some (0x1A, f)
  | .idot4 f => some (0x1B, f)
  | .idot4Ext f => some (0x1B, f)
  | .pseti f => some (0x1C, f)
  | .psetiExt f => some (0x1C, f)
  | .plop f => some (0x1D, f)
  | .plopExt f => some (0x1D, f)
  | .pmov f => some (0x1D, f)
  | .pmovExt f => some (0x1D, f)
  | .pmovMask f => some (0x1D, f)
  | .pmovMaskExt f => some (0x1D, f)
  | .vote f => some (0x1E, f)
  | .bra f => some (0x20, f)
  | .braExt f => some (0x20, f)
  | .brp f => some (0x20, f)
  | .brpExt f => some (0x20, f)
  | .brx f => some (0x20, f)
  | .brxExt f => some (0x20, f)
  | .call f => some (0x21, f)
  | .callExt f => some (0x21, f)
  | .callx f => some (0x21, f)
  | .callxExt f => some (0x21, f)
  | .ret f => some (0x22, f)
  | .retExt f => some (0x22, f)
  | .loop f => some (0x23, f)
  | .loopExt f => some (0x23, f)
  | .yield f => some (0x24, f)
  | .yieldExt f => some (0x24, f)
  | .sleep f => some (0x24, f)
  | .sleepExt f => some (0x24, f)
  | .exit f => some (0x25, f)
  | .exitExt f => some (0x25, f)
  | .nop f => some (0x26, f)
  | .nopExt f => some (0x26, f)
  | .safept f => some (0x26, f)
  | .safeptExt f => some (0x26, f)
  | .pin f => some (0x26, f)
  | .pinExt f => some (0x26, f)
  | .unpin f => some (0x26, f)
  | .unpinExt f => some (0x26, f)
  | .trap f => some (0x27, f)
  | .trapExt f => some (0x27, f)
  | .bkpt f => some (0x27, f)
  | .bkptExt f => some (0x27, f)
  | .movsr f => some (0x28, f)
  | .movsrExt f => some (0x28, f)
  | .movrs f => some (0x28, f)
  | .movrsExt f => some (0x28, f)
  | .fadd f => some (0x30, f)
  | .faddExt f => some (0x30, f)
  | .fsub f => some (0x31, f)
  | .fsubExt f => some (0x31, f)
  | .fmul f => some (0x32, f)
  | .fmulExt f => some (0x32, f)
  | .ffma f => some (0x33, f)
  | .ffmaExt f => some (0x33, f)
  | .ffms f => some (0x34, f)
  | .ffmsExt f => some (0x34, f)
  | .fnfma f => some (0x35, f)
  | .fnfmaExt f => some (0x35, f)
  | .fnfms f => some (0x36, f)
  | .fnfmsExt f => some (0x36, f)
  | .fminnum f => some (0x37, f)
  | .fminnumExt f => some (0x37, f)
  | .fmaxnum f => some (0x38, f)
  | .fmaxnumExt f => some (0x38, f)
  | .fminnan f => some (0x39, f)
  | .fminnanExt f => some (0x39, f)
  | .fmaxnan f => some (0x3A, f)
  | .fmaxnanExt f => some (0x3A, f)
  | .fabs f => some (0x3B, f)
  | .fabsExt f => some (0x3B, f)
  | .fneg f => some (0x3C, f)
  | .fnegExt f => some (0x3C, f)
  | .fcpysgn f => some (0x3D, f)
  | .fcpysgnExt f => some (0x3D, f)
  | .fclass f => some (0x3E, f)
  | .fclassExt f => some (0x3E, f)
  | .frnd f => some (0x3F, f)
  | .frndExt f => some (0x3F, f)
  | .fscale f => some (0x40, f)
  | .fscaleExt f => some (0x40, f)
  | .fdot2 f => some (0x41, f)
  | .fdot2Ext f => some (0x41, f)
  | .fhadd f => some (0x42, f)
  | .fhaddExt f => some (0x42, f)
  | .psetf f => some (0x43, f)
  | .psetfExt f => some (0x43, f)
  | .frcp f => some (0x44, f)
  | .frsq f => some (0x45, f)
  | .fsqrt f => some (0x46, f)
  | .fexp2 f => some (0x47, f)
  | .flog2 f => some (0x48, f)
  | .fsin f => some (0x49, f)
  | .fcos f => some (0x4A, f)
  | .ftanh f => some (0x4B, f)
  | .fsigm f => some (0x4C, f)
  | .cvt f => some (0x4D, f)
  | .cvtExt f => some (0x4D, f)
  | .cvti f => some (0x4E, f)
  | .cvtiExt f => some (0x4E, f)
  | .cvtf8 f => some (0x4F, f)
  | .cvtf8Ext f => some (0x4F, f)
  | .pack f => some (0x50, f)
  | .packExt f => some (0x50, f)
  | .unpack f => some (0x50, f)
  | .unpackExt f => some (0x50, f)
  | .mxsc f => some (0x51, f)
  | .mxq f => some (0x52, f)
  | .mxdq f => some (0x53, f)
  | .shfl f => some (0x54, f)
  | .shflx f => some (0x54, f)
  | .bcast f => some (0x54, f)
  | .rscan f => some (0x55, f)
  | .rred f => some (0x56, f)
  | .perm f => some (0x57, f)
  | .aalloc f => some (0x58, f)
  | .afree f => some (0x58, f)
  | .azero f => some (0x58, f)
  | .mma f => some (0x59, f)
  | .mmax f => some (0x59, f)
  | .ard f => some (0x5A, f)
  | .awr f => some (0x5A, f)
  | .aks f => some (0x5A, f)
  | .ld f => some (0x60, f)
  | .st f => some (0x60, f)
  | .lds f => some (0x61, f)
  | .sts f => some (0x61, f)
  | .ldb f => some (0x62, f)
  | .stb f => some (0x62, f)
  | .ldc f => some (0x63, f)
  | .ldp f => some (0x63, f)
  | .pref f => some (0x64, f)
  | .cflush f => some (0x64, f)
  | .cinv f => some (0x64, f)
  | .cpin f => some (0x64, f)
  | .cunpin f => some (0x64, f)
  | .atom f => some (0x65, f)
  | .acas f => some (0x65, f)
  | .atoms f => some (0x66, f)
  | .atomb f => some (0x67, f)
  | .bred f => some (0x67, f)
  | .bvec f => some (0x67, f)
  | .phase f => some (0x68, f)
  | .pwait f => some (0x68, f)
  | .binit f => some (0x69, f)
  | .barv f => some (0x69, f)
  | .bara f => some (0x69, f)
  | .bwait f => some (0x69, f)
  | .btest f => some (0x6A, f)
  | .cpy f => some (0x6B, f)
  | .cpym f => some (0x6B, f)
  | .cpyf f => some (0x6B, f)
  | .cseal f => some (0x6C, f)
  | .cwait f => some (0x6C, f)
  | .cbind f => some (0x6C, f)
  | .cstat f => some (0x6C, f)
  | .ralloc f => some (0x6D, f)
  | .rcommit f => some (0x6D, f)
  | .rfree f => some (0x6D, f)
  | .rjoin f => some (0x6E, f)
  | .rpop f => some (0x6F, f)
  | .spawn f => some (0x70, f)
  | .qstat f => some (0x70, f)
  | .xsend f => some (0x71, f)
  | .resultLanding _ => none
  | .scoreboardCompletion _ => none
  | .trapEntry _ => none
  | .groupSyncExecute _ => none
  | .watchdogExpiry _ => none
  | .groupOverdue _ => none
  | .drainComplete _ => none
  | .bindRecordWrite _ _ => none
  | .slotResume _ => none
  | .slotKill _ => none
  | .slotHold _ => none
  | .slotWithdraw _ => none
  | .groupSuspend _ => none
  | .stateWindowWrite _ _ _ => none
  | .accRecordWrite _ _ _ _ => none
  | .pluginAccessFault _ => none
  | .registerWrite _ _ _ => none
  | .kStep _ => none
  | .mmaComplete _ => none
  | .accPoisonTrap _ => none
  | .accDrainComplete _ _ => none
  | .accAllocGrant _ => none
  | .accHoldRelease _ => none
  | .followOnMma _ => none
  | .pageWalk _ _ _ => none
  | .homeAccess _ _ => none
  | .memoryResponse _ _ => none
  | .writebackPerform _ _ => none
  | .bankAccess _ _ => none
  | .replicaApply _ _ _ => none
  | .migrationReplay _ _ => none
  | .hostAccessError _ _ => none
  | .completionTimeout _ _ => none
  | .bredContribution _ _ => none
  | .bredResend _ _ => none
  | .phaseReleaseComplete _ _ => none
  | .pwaitResume _ => none
  | .releaseAtomicPerform _ => none
  | .hostWrite _ _ _ => none
  | .hostRead _ _ _ => none
  | .barrierArrival _ => none
  | .batchArrival _ _ => none
  | .barrierWaiterRelease _ => none
  | .copyAdmit _ => none
  | .copyStart _ => none
  | .copyWrite _ _ => none
  | .copyComplete _ => none
  | .cwaitResume _ => none
  | .multicastShare _ _ => none
  | .rangeHoldRelease _ => none
  | .queueHomeCheck _ _ => none
  | .queueApply _ => none
  | .queueTimerExpiry _ _ _ => none
  | .teamLaunch _ _ _ => none
  | .rpopDelivery _ => none
  | .queueReopen _ _ _ => none
  | .wakeEvent _ => none
  | .sleepTimeout _ => none
  | .teamStart _ => none
  | .gridCounterFetch _ _ _ => none
  | .gridTeamLaunch _ _ _ => none
  | .run _ _ => none
  | .append _ _ => none
  | .endRun _ _ => none
  | .runEnd _ _ => none
  | .castlingInterval _ => none
  | .teamStop _ => none
  | .castlingMove _ _ => none
  | .castlingResume _ => none
  | .pinLimit _ => none
  | .preemptBudgetExpiry _ => none
  | .teamRestore _ _ => none
  | .contextKillComplete _ => none
  | .contextScrubComplete _ => none
  | .clear _ _ => none
  | .eventsRead _ => none
  | .energyAccounting _ => none
  | .flitArrival _ => none
  | .siteFailure _ _ => none
  | .routeRepair _ _ _ _ => none
  | .lostAccessTimeout _ _ => none
  | .teamLocationLookup _ => none
  | .xsendDelivery _ => none
  | .xsendAcknowledgement _ => none
  | .etselRead _ => none
  | .etselWrite _ => none
  | .etselAtomic _ => none
  | .etselReadData _ => none
  | .etselWriteAcknowledgement _ => none
  | .etselXsend _ => none
  | .etselError _ => none
  | .etselXsendAcknowledgement _ => none
  | .etselManagement _ => none
  | .flitCrcFailure _ => none
  | .xoff _ _ => none
  | .xon _ _ => none
  | .lossOfSignal _ => none
  | .laneFailure _ => none
  | .trainingComplete _ _ _ _ => none
  | .trainingTimeout _ => none
  | .hostCompletionTimeout _ _ => none
  | .portIsolate _ => none
  | .portFreeze _ => none
  | .en _ _ => none
  | .retrain _ => none
  | .unfreeze _ => none
  | .functionLevelReset _ => none
  | .spdmRequest _ => none
  | .lockInterface _ => none
  | .partCarve _ _ _ _ _ _ => none
  | .partGrow _ _ _ _ _ => none
  | .partShrink _ _ _ _ => none
  | .partCompact _ _ _ _ _ => none
  | .partQuota _ _ _ => none
  | .partQuiesce _ => none
  | .quiesceComplete _ => none
  | .partExport _ _ _ _ => none
  | .precopyRound _ _ => none
  | .partImport _ _ _ _ => none
  | .exportRecord _ _ => none
  | .partExportDone _ => none
  | .partAbort _ => none
  | .partDestroy _ => none
  | .partitionScrubComplete _ _ => none
  | .routesSet _ _ => none
  | .castleSet _ _ => none
  | .ptInval _ _ _ => none
  | .replicaSet _ _ _ => none
  | .pinRelease _ _ _ => none
  | .pageRetire _ _ _ => none
  | .peerSet _ _ _ => none
  | .keySet _ _ _ _ => none
  | .vfBind _ _ _ _ => none
  | .ctxCreate _ _ => none
  | .ctxDesc _ _ => none
  | .ctxKill _ => none
  | .ctxPreempt _ => none
  | .ctxResume _ => none
  | .ctxFault _ => none
  | .kernLoad _ _ _ _ => none
  | .kernUnload _ _ => none
  | .planSet _ _ _ => none
  | .portCtl _ _ => none
  | .status _ => none
  | .logRead _ => none
  | .wrecRead => none
  | .moduleReset => none
  | .controlInterval _ _ _ => none
  | .fastLimiterSample _ => none
  | .powerControlWrite _ _ => none
  | .readGrant _ => none
  | .stallCountExpiry _ => none
  | .reservedMajorOpcode _ => none
  | .launchLineWrite _ _ _ => none
  | .commandLineWrite _ _ _ => none
  | .hostPortCompletion _ _ => none
  | .startInterface _ => none
  | .stopInterface _ => none

/-- What the words at the head of a list hold: a reserved opcode, or a major opcode in use with its fields
(R40 to R43); with the length in bytes. -/
inductive Raw where
  | reserved (w0 : Word32) (bytes : Nat)
  | form (maj : BitVec 7) (f : Fields)
deriving DecidableEq, Repr

/-- The checks of R40, causes 1 and 2, on words in ascending address. A reserved major opcode or an unused FN
is the row of its own in the opcode table (R42, R43). -/
def decodeRaw (ws : List Word32) : Except DecodeErr Raw :=
  match ws with
  | [] => .error .truncated
  | w0 :: _ =>
    if reservedMaj (majOf w0) then .ok (.reserved w0 (4 * lenWords (w0.extractLsb' 0 2)))
    else
      match splitWords ws with
      | none => .error .truncated
      | some f =>
        match shape (majOf w0) f, checkFields (majOf w0) f with
        | none, _ => .ok (.reserved w0 f.bytes)
        | _, .error e => .error e
        | _, .ok () => .ok (.form (majOf w0) f)

/-- The instruction at the head of a list of words, in ascending address, and its length in bytes. -/
noncomputable def decode (ws : List Word32) : Except DecodeErr (Instr × Nat) :=
  match decodeRaw ws with
  | .error e => .error e
  | .ok (.reserved w0 n) => .ok (.reservedMajorOpcode w0, n)
  | .ok (.form maj f) =>
    match mkInstr maj f with
    | none => .error .illegalOpcode
    | some i => .ok (i, f.bytes)

/-- The words of the instruction that four-byte groups of a little-endian byte list hold (R24). -/
def wordsOfBytes : List Byte → List Word32
  | b0 :: b1 :: b2 :: b3 :: r => (b3 ++ b2 ++ b1 ++ b0) :: wordsOfBytes r
  | _ => []

/-- The bytes of words, each little-endian. -/
def bytesOfWords : List Word32 → List Byte
  | [] => []
  | w :: r => w.extractLsb' 0 8 :: w.extractLsb' 8 8 :: w.extractLsb' 16 8 :: w.extractLsb' 24 8 :: bytesOfWords r

/-- Decoding of bytes in ascending address. -/
noncomputable def decodeBytes (bs : List Byte) : Except DecodeErr (Instr × Nat) := decode (wordsOfBytes bs)

/-- The words of an instruction (R24, R26 to R28), for the instruction forms of R41 and R42. -/
def encode (i : Instr) : Option (List Word32) :=
  match opOf i with
  | some (maj, f) => some (f.words maj)
  | none => none

/-- The five words of an instruction whose bits are `w`, bit 0 the least significant bit of the first
word; bits above `nbits` are zero. -/
def tableWords (nbits w : Nat) : List Word32 :=
  let v := w % 2 ^ nbits
  (List.range 5).map fun i => BitVec.ofNat 32 (v / 2 ^ (32 * i))

/-- The instruction this decoder reads from bits numbered as spec/opcode_table.json numbers them. -/
noncomputable def decodeTableWord (nbits w : Nat) : Option Instr :=
  match decodeBytes (bytesOfWords (tableWords nbits w)) with
  | .ok (i, _) => some i
  | .error _ => none

end Sys2Proof
end

