-- ==== Sys2Proof/Machine/State.lean ====
section
/-!
DEFINITION. The state of one W48 module as plain data: every register, memory, queue, table and
status the spec names, and the reasons a step can stop. A part that is absent (a free slot, a
destroyed context, a free partition) is its default record.
-/

namespace Sys2Proof.Machine

/-! ### The core: L1, accumulators and the MMA queue -/

/-- A 64-byte L1 line with valid and dirty bits per byte (R194), poison per word and words with one and with two bit errors
not yet met (R198), replacement
class 0 normal, 1 evict-last, 2 evict-first (R197), of its page the TGT and the physical address of the
line (R189), and the context that stored to it last; `stale` the bytes that a lane of a group has changed at the home by an atomic since
they became valid here, which that lane no longer reads from the line (R206). -/
structure L1Line where
  valid : BitVec 64 := 0
  dirty : BitVec 64 := 0
  data  : SMap Byte := []
  poi   : Byte := 0
  err1  : Byte := 0
  err2  : Byte := 0
  cls   : Nat := 0
  use   : Word := 0
  tgt   : Nat := 0
  pa    : Nat := 0
  ctx   : Nat := 0
  stale : List (Nat × Nat × BitVec 64) := []
deriving DecidableEq, Repr

/-- One core (R16): its L1, accumulators, MMA queue, read backlog Q with the group and the number of reads of each instruction in
it, the oldest first (R379), reads granted for the k-step that starts next, the MMA whose k-step is under way with the LCLK edges that it still takes (R157),
the LCLK edges that have passed in FCLK `edgeAt` (R378),
operations waiting for the vector pipe (R380), and of R308 the round-robin positions at key
16 (issue slot) + priority, and by priority the oldest ready slot and since when it is so; `wait` that it is in lane
wait in this FCLK (R380); and the 64-byte lines of its instruction cache, by partition and
address, the oldest first. -/
structure Core where
  l1      : SMap L1Line := []
  accs    : Vector Acc 8 := Vector.replicate 8 {}
  queue   : List MmaEnt := []
  backlog : Nat := 0
  waits   : List (Nat × Nat) := []
  kgrant  : Nat := 0
  run     : Option (Nat × Nat) := none
  edgeAt  : Word := 0
  edges   : Nat := 0
  pipe    : Nat := 0
  rr      : SMap Nat := []
  oldest  : SMap (Option (Nat × Word)) := []
  wait    : Bool := false
  icache  : List (Nat × List Byte) := []
deriving DecidableEq, Repr

/-! ### The tile -/

/-- A TLB entry: partition, first byte and size of the page, and the leaf (R189, R191). -/
structure TlbEnt where
  part : Nat
  base : Nat
  size : Nat
  leaf : Word
deriving DecidableEq, Repr

/-- A translation miss that an access of a group, or of a copy, waits for (R191): the 64 KiB page, whether the walker found no valid
leaf, and since when a read of the table is lost with its flit (R333). -/
structure Miss where
  k    : Nat
  part : Nat
  page : Nat
  none : Bool := false
  lost : Option Word := Option.none
deriving DecidableEq, Repr

/-- A remap table entry (R321). -/
structure RemapEnt where
  team : Nat
  loc  : Nat
  site : Nat := 0
  base : Word := 0
deriving DecidableEq, Repr

/-- One tile (R14): TLB, misses for its walker in arrival order (R191), range scoreboard, remap table, clocks and power with the control
word as last written (R378 to R382), and the slot-FCLK of
each context since the last energy accounting (R386). -/
structure Tile where
  tlb     : List TlbEnt := []
  walks   : List Miss := []
  range   : List RangeEnt := []
  remap   : List RemapEnt := []
  lclk    : Nat := 1
  ration  : Nat := 6
  gmax    : Nat := 6
  lmax    : Nat := 2
  lmin    : Nat := 0
  ctl     : Word := 0x608
  temp    : Nat := 0
  tempo   : Bool := false
  energy  : Word := 0
  power   : Nat := 0
  occ     : SMap Nat := []
deriving DecidableEq, Repr

/-- One router (R331 to R333): permitted links and detours per tag, links down, the drop log (tag,
source site, channel; newest first, at most 16), and of each output the channel that it sent last and the FCLK after that (R330). -/
structure Router where
  links   : SMap (List Nat) := []
  detours : SMap (List (Nat × Nat)) := []
  down    : List Nat := []
  log     : List (Nat × Nat × Nat) := []
  rr      : SMap Nat := []
  sent    : SMap Nat := []
deriving DecidableEq, Repr

/-! ### Operations in flight -/

/-- The variable-latency instructions that stay in flight after their issue. -/
inductive OpKind where
  | alu | ld | st | lds | sts | ldb | stb | ldc | ldp | atom | acas | atoms | atomb | bred | bvec
  | flush | wback | queue | fill
deriving DecidableEq, Repr

/-- How far one lane's access has come: not performed, waiting for a back-invalidate response (R351), sent
through an Etsel port (R344), held at a migrating page (R203), a contribution to resend (R217), lost with
its flit (R333), performed and its value on the way, or done. -/
inductive Phase where
  | waiting | inval | sent | migrating | resend | lost | performed | done
deriving DecidableEq, Repr

/-- One lane's part of an operation: its address and its translation (physical address, TGT, replica
index), whether it goes through L1 and its replacement class (R197, R208), the bytes it stores or its
atomic operands, the registers' poison by byte, whether a store has left the core (R208), its place among the accesses
held at a migrating page (R203), when and by which port it was sent (R348), and the value performed. -/
structure LaneOp where
  lane  : Nat
  ea    : Word := 0
  pa    : Nat := 0
  tgt   : Nat := 0
  rep   : Option Nat := none
  l1    : Bool := false
  cls   : Nat := 0
  data  : List Byte := []
  data2 : List Byte := []
  poi   : List Bool := []
  seq   : Word := 0
  port  : Nat := 0
  phase : Phase := .waiting
  left  : Bool := false
  held  : Nat := 0
  val   : List Byte := []
  vpoi  : List Bool := []
deriving DecidableEq, Repr

/-- What a queue operation does when it is applied (R277 to R283). -/
inductive QKind where
  | commit | free | join
deriving DecidableEq, Repr

/-- One lane of a queue operation (R277): its handle, for RCOMMIT its staging offset, and the cause that its
home found, 0 for none. -/
structure QLane where
  lane   : Nat
  handle : Word
  ea     : Word := 0
  bad    : Nat := 0
deriving DecidableEq, Repr

/-- A variable-latency instruction in flight (R39, R207): the registers it has yet to write and those
it has yet to read, its scoreboard slot, its lanes, the release it waits for, and the accumulator name it works on. -/
structure Op where
  id     : Nat
  k      : Nat
  kind   : OpKind
  f      : Fields := {}
  part   : Nat := 0
  team   : Nat := 0
  size   : Nat := 0
  lanes  : List LaneOp := []
  sbs    : Option Nat := none
  wr     : List RegId := []
  flags  : BitVec 6 := 0
  rel    : Option Rel := none
  acq    : Option Nat := none
  repl   : Bool := false
  q      : Option QKind := none
  qlanes : List QLane := []
  checked : List Nat := []
  addr   : Word := 0
  time   : Word := 0
  acc    : Option Nat := none
deriving DecidableEq, Repr

/-! ### Partitions, functions, ports and the module -/

/-- A move of sites under way (R319, R363): what stands on the first of each pair goes to the second; `gone` once the
images have left. -/
structure RingMove where
  pairs : List (Nat × Nat) := []
  gone  : Bool := false
deriving DecidableEq, Repr

/-- Partition states (R358), in the order of R377. -/
inductive PartState where
  | free | carving | active | growing | shrinking | compacting | quiescing | migratingOut
  | migratingIn | scrubbing | precopying
deriving DecidableEq, Repr

/-- A growth under way (R361): the site and channel sets with the new ones, the new tables, and the FCLK of its command. -/
structure Growth where
  sites  : List Nat := []
  chans  : List Nat := []
  tables : GrowTables := {}
  since  : Word := 0
deriving DecidableEq, Repr

/-- A partition (R355 to R358, R365, R377). `hash` is the bank-address hash table (R187, R360), `grow` a growth under way (R361), `moving` lists the moves of castling rings and compacted sites under way, `used` the frames that
Roith gave out, `leaving` and `leavingCh` what a shrink has still to scrub, `cmap`, `ctable`, `cplan`, `cchans`, `cframes` and `cmig` a
compaction under way: its sites, tables, channels and frames, and where the leaves stand that it has made migrating (R192, R363), `exportLine` the command line that waits for PART_EXPORT; `ivs` the IV counter of the stream to each peer
partition and `closedStreams` the streams that a failed tag has closed, each with its port (R346), `session` and `dest` the keys of an export or import and where it goes (R365, R367, R376), `xframes` the frames in the stream's order, `majors` and `minors` its
counters by page and by line (R367, R368), `resend` the lines of device memory that have been stored to since the stream carried
them (R365). -/
structure Part where
  st       : PartState := .free
  sites    : List Nat := []
  chans    : List Nat := []
  desc     : PartDesc := {}
  root     : Nat := 0
  table    : List RouterEntry := []
  hash     : List (Nat × Nat) := []
  grow     : Option Growth := none
  routes   : SMap (Option Route) := []
  plan     : CastlePlan := {}
  planFrom : Word := 0
  moving   : List RingMove := []
  peers    : SMap PeerRec := []
  keys     : SMap (Option Word) := []
  closedStreams : List (Nat × Nat) := []
  ivs      : SMap Nat := []
  replicas : SMap (List Nat) := []
  gen      : BitVec 32 := 0
  tagdrop  : BitVec 32 := 0
  routedrop : BitVec 32 := 0
  exporting : Bool := false
  threshold : Nat := 0
  rounds   : Nat := 0
  session  : Nat := 0
  dest     : StreamDest := {}
  xframes  : List Nat := []
  majors   : SMap Nat := []
  minors   : SMap Nat := []
  resend   : List Nat := []
  port     : Nat := 0
  used     : List Nat := []
  leaving  : List Nat := []
  leavingCh : List Nat := []
  cmap     : List (Nat × Nat) := []
  ctable   : List RouterEntry := []
  cplan    : CastlePlan := {}
  cchans   : List (Nat × Nat) := []
  cframes  : List (Nat × Nat) := []
  cmig     : List Nat := []
  exportLine : Option Nat := none
deriving DecidableEq, Repr

/-- TDISP states of a function (R370). -/
inductive Tdisp where
  | unlocked | locked | run | error
deriving DecidableEq, Repr

/-- A launch line: its 128 bytes, and whether it was captured and is being handled (R294, R295). -/
structure Line where
  bytes : SMap Byte := []
  busy  : Bool := false
  pa    : Option Nat := none
deriving DecidableEq, Repr

/-- A virtual function (R349, R350, R352, R370): one per partition; `order` the triggered launch lines as FCLK and index
(R295). -/
structure Vf where
  port   : Nat := 0
  ctx    : Option Nat := none
  frozen : Bool := false
  ide    : Bool := false
  tdisp  : Tdisp := .unlocked
  lines  : SMap Line := []
  order  : List (Nat × Nat) := []
deriving DecidableEq, Repr

/-- Port states (R353), in the order of R354. -/
inductive PortState where
  | down | training | up | degraded | isolated | frozen
deriving DecidableEq, Repr

/-- A packet in the receive buffers of an Etsel port (R345): its number, operation and contents, and of the last packet of a message
the tile that has accepted the message (R255). -/
structure Inbound where
  id    : Nat
  op    : Nat
  pkt   : Etsel
  taken : Option Nat := none
deriving DecidableEq, Repr

/-- A port (R344 to R354): `xoff` the virtual lanes stopped, `fails` the times of recent tag
failures, `since` when training began, `retrain` that a degraded port trains again, `cmd` the Roith command line of a host port's physical function (R375). Of a host port `cxl` and
`speed` are the protocol and the GT/s of the last training (R349); of an Etsel port `rbuf` are the packets that wait in its receive
buffers, `told` the virtual lanes that it has sent XOFF for, each with the FCLK of the last one (R345), `dropped` the sources of the
newest 16 packets for other modules and `drops` how many there were (R344). -/
structure Port where
  st     : PortState := .down
  before : PortState := .down
  en     : Bool := false
  retrain : Bool := false
  cto    : BitVec 16 := 0x03E8
  width  : Nat := 0
  trip   : Nat := 0
  xoff   : List Nat := []
  fails  : List Word := []
  since  : Word := 0
  cxl    : Bool := false
  speed  : Nat := 0
  rbuf   : List Inbound := []
  told   : List (Nat × Nat) := []
  replay : Nat := 0
  dropped : List Nat := []
  drops  : Nat := 0
  cmd    : Line := {}
deriving DecidableEq, Repr

/-- The wafer record in flash (R374) and what signature checks find of it and of the Roith images
(R373). Flash survives reset. -/
structure Flash where
  entries    : SMap WaferEntry := []
  amendments : List (List (Nat × WaferEntry)) := []
  amendOk    : List Bool := []
  version    : Nat := 1
  gen        : Nat := 0
  module     : Nat := 0
  imageA     : Bool := true
  imageB     : Bool := true
  baseOk     : Bool := true
deriving DecidableEq, Repr

/-- Site states (R11), in the order of R374. -/
inductive SiteState where
  | good | spare | mappedOut | hole
deriving DecidableEq, Repr

/-- What leaves the module or reaches a supervisor core: an interrupt, data read by the host, a write to
host memory, an Etsel packet with the context and grid of its peer entry and its 96-bit IV (R346, R347), an XOFF or XON of a
virtual lane (R345), a record of an export stream (R366), a status word, a measurement with its signature and the public key (R371), the interrupt of R98 for a trapped group,
an access fault to the monitor (R17, R100) with the code that R21 gives, 0 where the spec gives none. -/
inductive Output where
  | trapInterrupt (k : Nat)
  | accessFault (addr code : Nat)
  | msix (vf vector : Nat)
  | data (bytes : List Byte)
  | hostData (bytes : List Byte) (poison : List Bool)
  | hostWrite (pa : Nat) (bytes : List Byte) (poison : List Bool)
  | packet (port op : Nat) (hdr : EtselHdr) (bytes : List Byte) (poison : List Bool) (ctx grid iv : Nat)
  | credit (port vl : Nat) (stop : Bool)
  | stream (dest : StreamDest) (r : StreamRec)
  | measurement (block signature key : List Byte)
  | status (op code value : Nat)
  | backInvalidate (pa : Nat)
deriving DecidableEq, Repr

/-- A BRED contribution held in a bank's reorder window (R217): the cell, the sequence number, the
operand and its type, and the context it is charged to. -/
structure BredEnt where
  part : Nat
  cell : Nat
  q    : Word
  x    : Word
  ty   : Nat
  ctx  : Nat
deriving DecidableEq, Repr

/-- An L2 line's attributes (R195, R197, R214): sectors valid and dirty, words with one and with two bit errors not yet met
(R198), class, pinned by partition. -/
structure L2Line where
  valid : BitVec 4 := 0
  dirty : BitVec 4 := 0
  err1  : BitVec 32 := 0
  err2  : BitVec 32 := 0
  cls   : Nat := 0
  use   : Word := 0
  pin   : Option Nat := none
deriving DecidableEq, Repr

/-- A write that the sequencer of a replicated page has ordered and a replica has not applied (R202): the
operation and lane that made it, of which group of which team (32 (team) + sr.groupid, none for a write-back or a copy), for which
context and from which core, and the bytes at the replica's addresses with their poison. -/
structure RepWrite where
  op    : Nat
  who   : Option Nat
  ctx   : Nat := 0
  core  : Nat := 0
  lane  : Nat
  bytes : List (Nat × Byte × Bool)
deriving DecidableEq, Repr

/-- The model's own schedule: which event happens at which time after the last turn; `evict` writes back and drops a
line of an L1 (R220), `svcRead` is a read by the supervisor core of a core (R16, R100, R181, R299, R321), `svcFetch` an instruction fetch of
it (R16), `plugin` a read by a tenant policy plug-in of a context (R17), `barRead` one of the host in BAR0
of a virtual function (R328, R350). -/
inductive Turn where
  | event (dt : Nat) (e : Instr)
  | evict (dt : Nat) (core : Nat) (line : Nat)
  | svcRead (dt : Nat) (core addr n : Nat)
  | svcFetch (dt : Nat) (core addr : Nat)
  | plugin (dt : Nat) (ctx core addr n : Nat)
  | barRead (dt : Nat) (vf off n : Nat)
deriving DecidableEq, Repr

/-- The parts of one FCLK in the model's order (log 1): the events that reach it, the issues of the cores (R308), and
what falls at its end (R272, R274). -/
inductive Stage where
  | events | issues | closing
deriving DecidableEq, Repr

/-- The whole module. `agenda`, `stage`, `turns` (the groups that the issue slots chose in this FCLK and that have not
issued yet), `cur`, `nextId`, `freeCtr`, `out` are the model's own. Groups are at
key 64 site + 16 core + slot, cores at 4 site + core, memory at FRAME 65,536 + offset, the scratchpad
at 2^23 site + offset, bank memory at 2^32 partition + offset. `ecc` holds bit errors not yet met, 1 for
one bit and 2 for two, at key 2^60 space + word (spaces 0 HBM, 1 scratchpad, 2 bank; R198). `served` holds by channel how many requests of
each partition its home agent has served in the round of R357. `cmds` lists the
ports whose command lines are triggered, in order (R375); `pnows` are the values of PNOW at the ends of the last 10,000 control intervals, the
newest first, and `ctlAt` the FCLK after the one in which the last one acted (R381); `flits` the mesh flits on their way to the next router. -/
structure State where
  time     : Word := 0
  agenda   : List Turn := []
  stage    : Stage := .events
  turns    : List Nat := []
  cur      : Nat := 0
  nextId   : Nat := 1
  freeCtr  : Nat := 0
  out      : List Output := []
  groups   : SMap Group := []
  cores    : SMap Core := []
  tiles    : SMap Tile := []
  routers  : SMap Router := []
  flits    : List Flit := []
  mem      : Memory := []
  mpoi     : SMap Bool := []
  hostLines : List Nat := []
  spad     : Memory := []
  spoi     : SMap Bool := []
  sown     : SMap Nat := []
  bank     : Memory := []
  bpoi     : SMap Bool := []
  bred     : List BredEnt := []
  ecc      : SMap Nat := []
  l2       : SMap L2Line := []
  served   : SMap (SMap Nat) := []
  repLog   : SMap (List RepWrite) := []
  owner    : SMap Nat := []
  retired  : List Nat := []
  ops      : List Op := []
  copies   : List Copy := []
  wakes    : List Nat := []
  teams    : SMap Team := []
  ctxs     : SMap Ctx := []
  parts    : SMap Part := []
  vfs      : SMap Vf := []
  ports    : SMap Port := []
  cmds     : List Nat := []
  flash    : Flash := {}
  sites    : SMap SiteState := []
  booted   : Bool := false
  bootCode : Nat := 0
  pnow     : Nat := 0
  pnows    : List Nat := []
  ctlAt    : Nat := 0
  plim     : Nat := 2700
  ovhd     : Word := 0
  limited  : Bool := false
deriving DecidableEq, Repr

/-- Why the machine stops. No instruction and no event of the spec stops the module (R2): the
constructor is for a state the spec excludes. -/
inductive Fault where
  /-- Raised by no meaning; kept so that the outcome has a named reason. Safe: nothing is claimed. -/
  | stuck
deriving DecidableEq, Repr

/-- Why an instruction has no meaning here. -/
inductive Refusal where
  /-- An instruction whose arm of `exec` gives it no meaning yet. Safe: the model stops. -/
  | notModelled (mnemonic : String)
deriving DecidableEq, Repr

/-- The outcome of one step. -/
abbrev Res := Host.Outcome State Fault Refusal

/-- The module right after module reset, as the spec gives it: nothing booted, every partition free,
every slot free, every memory empty; flash holds the shipped wafer record (R373, R374, log 4). -/
def State.reset : State := {}

end Sys2Proof.Machine
end

