-- ==== Sys2Proof/Machine/Ops.lean ====
section
/-!
DEFINITION. The group engine shared by all instructions: access to the parts of the state, registers,
the issue address and path (R89), the checks before an issue (R31, R32, R36 to R40), what follows an
issue, landing of results and flags (R37, R76), and taking a trap (R98, R99).
-/

namespace Sys2Proof

/-! ### Fields of plain data -/

/-- Bits [lo+n-1 : lo] of a word. -/
def bits {w : Nat} (x : BitVec w) (lo n : Nat) : Nat := (x.extractLsb' lo n).toNat

/-- CTX of a bind record (R298). -/
def BindRec.ctx (b : BindRec) : Nat := bits b.dw0 48 12
/-- KERN of a bind record. -/
def BindRec.kern (b : BindRec) : Nat := bits b.dw0 40 8
/-- NODE of a bind record. -/
def BindRec.node (b : BindRec) : Nat := bits b.dw0 34 6
/-- SET of a bind record. -/
def BindRec.set (b : BindRec) : Nat := bits b.dw0 16 16
/-- GROUP of a bind record. -/
def BindRec.group (b : BindRec) : Nat := bits b.dw0 11 5
/-- PRI of a bind record. -/
def BindRec.pri (b : BindRec) : Nat := bits b.dw0 4 4
/-- V of a bind record. -/
def BindRec.valid (b : BindRec) : Bool := b.dw0.getLsbD 63
/-- SPAWN of a bind record. -/
def BindRec.spawn (b : BindRec) : Bool := b.dw0.getLsbD 62
/-- STACK of a bind record. -/
def BindRec.stack (b : BindRec) : Nat := bits b.dw1 0 56
/-- E of a bind record: spill entries per lane. -/
def BindRec.spillCap (b : BindRec) : Nat := bits b.dw2 32 32
/-- REGS of a bind record, the budget divided by 8. -/
def BindRec.regs (b : BindRec) : Nat := bits b.dw2 8 5
/-- ENTRY of a bind record. -/
def BindRec.entry (b : BindRec) : Nat := bits b.dw3 32 32

/-- The registers an operand field names, for the dependences of R37 to R39; s0 and p0 hold none. The field of a MOVSR and of a
MOVRS names a special register (R37, R128, R129). -/
def Opd.regIds (o : Opd) (x : BitVec 7) : List Machine.RegId :=
  match o.cls with
  | .v n => (List.range n).map fun i => .v (x.toNat + i)
  | .s => if x = 0 then [] else [.s x.toNat]
  | .spair => [.s x.toNat, .s (x.toNat + 1)]
  | .p => if x = 0 then [] else [.p x.toNat]
  | .other => [.sr x.toNat]
  | _ => []

/-- IMM32 as a signed number. -/
def Fields.disp (f : Fields) : Int := f.imm.toInt
/-- OP of a control word. -/
def Fields.aop (f : Fields) : Nat := bits f.imm 0 4
/-- TYPE of a control word. -/
def Fields.atype (f : Fields) : Nat := bits f.imm 4 3
/-- SCOPE of a control word. -/
def Fields.ascope (f : Fields) : Nat := bits f.imm 8 3
/-- DISP of a control word. -/
def Fields.adisp (f : Fields) : Int := (f.imm.extractLsb' 16 16).toInt
/-- The number in the field of the third source: in base form the destination register, but p0 for a predicate, as
`isel` has no predicate there (R29, R107). -/
def Fields.third (f : Fields) (o : Opd) : BitVec 7 :=
  match o.cls with
  | .p => f.c
  | _ => f.src3

/-- The scoreboard slot an instruction raises (R39). -/
def Fields.slot (f : Fields) : Option Nat := if f.sbsV then some f.sbsN.toNat else none

end Sys2Proof

namespace Sys2Proof.Machine

/-! ### Parts of the state -/

/-- The site of a group. -/
def siteOf (k : Nat) : Nat := k / 64
/-- The core of a group: 4 site + core. -/
def coreOf (k : Nat) : Nat := k / 16
/-- The slot of a group on its core. -/
def slotOf (k : Nat) : Nat := k % 16

/-- The group in a slot. -/
def State.grp (s : State) (k : Nat) : Group := smGet {} s.groups k
/-- Puts a group in a slot. -/
def State.setGrp (s : State) (k : Nat) (g : Group) : State := { s with groups := smSet {} s.groups k g }
/-- Changes the group in a slot. -/
def State.modGrp (s : State) (k : Nat) (f : Group → Group) : State := s.setGrp k (f (s.grp k))
/-- A slot of a group that has left it is free; ERR of its bind record stands until the next write there (R299). -/
def State.leaveSlot (s : State) (k : Nat) : State := s.setGrp k { err := (s.grp k).err }

/-- A core. -/
def State.core (s : State) (c : Nat) : Core := smGet {} s.cores c
/-- Changes a core. -/
def State.modCore (s : State) (c : Nat) (f : Core → Core) : State :=
  { s with cores := smSet {} s.cores c (f (s.core c)) }
/-- A tile. -/
def State.tile (s : State) (t : Nat) : Tile := smGet {} s.tiles t
/-- Changes a tile. -/
def State.modTile (s : State) (t : Nat) (f : Tile → Tile) : State :=
  { s with tiles := smSet {} s.tiles t (f (s.tile t)) }
/-- A router. -/
def State.router (s : State) (t : Nat) : Router := smGet {} s.routers t
/-- Changes a router. -/
def State.modRouter (s : State) (t : Nat) (f : Router → Router) : State :=
  { s with routers := smSet {} s.routers t (f (s.router t)) }
/-- A team. -/
def State.team (s : State) (t : Nat) : Team := smGet {} s.teams t
/-- Changes a team. -/
def State.modTeam (s : State) (t : Nat) (f : Team → Team) : State :=
  { s with teams := smSet {} s.teams t (f (s.team t)) }
/-- A context. -/
def State.ctx (s : State) (c : Nat) : Ctx := smGet {} s.ctxs c
/-- Changes a context. -/
def State.modCtx (s : State) (c : Nat) (f : Ctx → Ctx) : State :=
  { s with ctxs := smSet {} s.ctxs c (f (s.ctx c)) }
/-- A partition. -/
def State.part (s : State) (p : Nat) : Part := smGet {} s.parts p
/-- Changes a partition. -/
def State.modPart (s : State) (p : Nat) (f : Part → Part) : State :=
  { s with parts := smSet {} s.parts p (f (s.part p)) }
/-- A virtual function. -/
def State.vf (s : State) (v : Nat) : Vf := smGet {} s.vfs v
/-- Changes a virtual function. -/
def State.modVf (s : State) (v : Nat) (f : Vf → Vf) : State :=
  { s with vfs := smSet {} s.vfs v (f (s.vf v)) }
/-- A port. -/
def State.port (s : State) (p : Nat) : Port := smGet {} s.ports p
/-- Changes a port. -/
def State.modPort (s : State) (p : Nat) (f : Port → Port) : State :=
  { s with ports := smSet {} s.ports p (f (s.port p)) }
/-- A kernel of a context. -/
def State.kern (s : State) (c n : Nat) : Kern := smGet {} (s.ctx c).kerns n
/-- Changes a kernel of a context. -/
def State.modKern (s : State) (c n : Nat) (f : Kern → Kern) : State :=
  s.modCtx c fun x => { x with kerns := smSet {} x.kerns n (f (smGet {} x.kerns n)) }
/-- Adds something that leaves the module. -/
def State.emit (s : State) (o : Output) : State := { s with out := s.out ++ [o] }

/-- The key of a team: its context, sr.gridid and sr.teamid (R81). -/
def teamKey (c : Nat) (grid teamid : BitVec 32) : Nat := c + 4096 * (grid.toNat + 2 ^ 32 * teamid.toNat)

/-- The context of a group. -/
def Group.ctx (g : Group) : Nat := g.bind.ctx
/-- The team of a group. -/
def Group.team (g : Group) : Nat := teamKey g.ctx g.gridid g.teamid
/-- sr.ctl.chk of a group (R84). -/
def Group.chk (g : Group) : Bool := g.ctl.getLsbD 0
/-- sr.ctl.pt of a group (R84). -/
def Group.pt (g : Group) : Bool := g.ctl.getLsbD 1

/-! ### Context counters and events (R200, R328, R329) -/

/-- No context: what the host and other modules do is charged to none. -/
def noCtx : Nat := 4096

/-- The events of a context in the FCLK `now`, and those before it (R329). -/
def Ctx.newEvents (x : Ctx) (now : Word) : Byte := if x.evTime = now then x.evNew else 0
/-- The events of a context before the FCLK `now`. -/
def Ctx.oldEvents (x : Ctx) (now : Word) : Byte := if x.evTime = now then x.events else x.events ||| x.evNew

/-- Raises context event `n`: sets its bit and, when the bit was 0 and EVMASK admits it, EVMSIV once. -/
def State.ctxEvent (s : State) (c n : Nat) : State :=
  if 4096 ≤ c then s else
  let x := s.ctx c
  let s' := s.modCtx c fun x => { x with events := x.oldEvents s.time, evNew := x.newEvents s.time ||| (1 <<< n), evTime := s.time }
  if !(x.events ||| x.evNew).getLsbD n && x.desc.ctl.getLsbD (8 + n) && !(s.vf x.part).frozen then
    s'.emit (.msix x.part (bits x.desc.ctl 40 16))
  else s'

/-- Adds `n` to counter `i` of a context, saturating (R200). -/
def State.ctxCount (s : State) (c : Nat) (i : Fin 8) (n : Nat) : State :=
  if n = 0 || 4096 ≤ c then s
  else s.modCtx c fun x =>
    { x with counts := x.counts.set i (BitVec.ofNat 32 (min (2 ^ 32 - 1) (x.counts[i].toNat + n))) }

/-- Counts `n` consumptions of a group's context in PCONS and raises the poison event (R199). -/
def State.consume (s : State) (k n : Nat) : State :=
  if n = 0 then s else (s.ctxCount (s.grp k).ctx 2 n).ctxEvent (s.grp k).ctx 0

/-! ### Registers -/

/-- A result element that reads a poisoned element, over a whole register (R77). -/
def Reg.poisoned : Reg := { val := 0, poi := 0xFF }
/-- A value without poison. -/
def Reg.of (x : Word) : Reg := { val := x }
/-- A register with any poison bit set. -/
def Reg.bad (r : Reg) : Bool := r.poi != 0

/-- A v register of zeros. -/
def VReg.zero : VReg := Vector.replicate 32 {}
/-- All 32 lanes. -/
def allLanes : LaneMask := BitVec.allOnes 32

/-- s register n; s0 reads zero (R31). -/
def Group.rdS (g : Group) (n : Nat) : Reg := if n = 0 then {} else smGet {} g.s n
/-- Writes s register n; a write to s0 is discarded (R31). -/
def Group.wrS (g : Group) (n : Nat) (r : Reg) : Group := if n = 0 then g else { g with s := smSet {} g.s n r }
/-- v register n of a lane. -/
def Group.rdV (g : Group) (n : Nat) (l : LaneId) : Reg := (smGet VReg.zero g.v n)[l]
/-- Writes v register n in the lanes of a mask. -/
def Group.wrV (g : Group) (n : Nat) (m : LaneMask) (r : LaneId → Reg) : Group :=
  { g with v := smMod VReg.zero g.v n fun old => Vector.ofFn fun l => if m.getLsbD l then r l else old[l] }
/-- Predicate n of all lanes; p0 reads true (R31). -/
def Group.rdP (g : Group) (n : Nat) : LaneMask := if n = 0 then allLanes else smGet 0 g.p n
/-- Writes predicate n in the lanes of a mask; a write to p0 is discarded (R31). -/
def Group.wrP (g : Group) (n : Nat) (m x : LaneMask) : Group :=
  if n = 0 then g else { g with p := smMod 0 g.p n fun old => (old &&& ~~~m) ||| (x &&& m) }

/-- The registers an instruction reads, its guard included (R37). SPAWN reads every s register (R285). -/
def regReads (maj : BitVec 7) (sh : Shape) (f : Fields) : List RegId :=
  (if sh.d.rd then sh.d.regIds f.d else []) ++ (if sh.a.rd then sh.a.regIds f.a else [])
    ++ (if sh.b.rd then sh.b.regIds f.b else []) ++ (if sh.c.rd then sh.c.regIds (f.third sh.c) else [])
    ++ (sh.side.flatMap fun x => (List.range x.2).map fun i => .v (x.1 + i))
    ++ (if f.gp = 0 then [] else [.p f.gp.toNat])
    ++ (if maj = 0x70 && f.fn = 0 then (List.range 63).map fun i => .s (i + 1) else [])

/-- The registers an instruction writes. The special register of a MOVRS is one of them: its write takes effect at issue (R129), and a
MOVSR of the same register at a distance below 2 is short all the same, as the table of R37 lists both (R38, log 78). -/
def regWrites (sh : Shape) (f : Fields) : List RegId :=
  (if sh.d.wr then sh.d.regIds f.d else []) ++ (if sh.a.wr then sh.a.regIds f.a else [])
    ++ (if sh.b.wr then sh.b.regIds f.b else []) ++ (if sh.c.wr then sh.c.regIds (f.third sh.c) else [])

/-! ### Lanes, path and issue address (R88 to R90, R94) -/

/-- The lanes that satisfy a property. -/
def Group.lanesWhere (g : Group) (p : Lane → Bool) : LaneMask := BitVec.ofFnLE fun i : Fin 32 => p g.lane[i]
/-- Live, unparked and unyielded lanes. -/
def Group.runnable (g : Group) : LaneMask := g.lanesWhere fun l => l.st = .live && !l.yld
/-- Lanes that have not exited. -/
def Group.unexited (g : Group) : LaneMask := g.lanesWhere fun l => l.st != .exited
/-- Parked lanes. -/
def Group.parked (g : Group) : LaneMask := g.lanesWhere fun l => l.st = .parked
/-- Changes the lanes of a mask. -/
def Group.mapLanes (g : Group) (m : LaneMask) (f : LaneId → Lane → Lane) : Group :=
  { g with lane := Vector.ofFn fun i => if m.getLsbD i then f i g.lane[i] else g.lane[i] }

/-- The lanes of a mask in ascending order. -/
def laneList (m : LaneMask) : List LaneId := (List.finRange 32).filter fun i => m.getLsbD i
/-- The lowest lane of a mask, lane 0 for none. -/
def lowLane (m : LaneMask) : LaneId := (laneList m).headD 0

/-- The lowest pcv over the lanes of a mask (R89). -/
def Group.lowPc (g : Group) (m : LaneMask) : Option Nat :=
  (laneList m).foldl (fun r i => let x := g.lane[i].pcv.toNat
                                 some (match r with | none => x | some y => min x y)) none

/-- What a group can issue: the issue address, the path, and whether the lanes are parked there (R89,
R94). Lanes that a trapped instruction already performed belong to its path on the replay, their yield
bits notwithstanding (R99). -/
structure Sel where
  pc   : Word
  path : LaneMask
  sync : Bool := false
deriving DecidableEq, Repr

/-- The issue address and path of a group, none when nothing issues (R89, R94). -/
def Group.select (g : Group) : Option Sel :=
  match g.lowPc g.runnable with
  | some a =>
    let pc := BitVec.ofNat 64 a
    some { pc, path := BitVec.ofFnLE fun i : Fin 32 =>
      let l := g.lane[i]
      decide (l.st = .live) && decide (l.pcv = pc) && (!l.yld || g.donemask.getLsbD i) }
  | none =>
    let u := g.unexited
    if u = 0 || g.parked != u then none
    else
      let pc := g.lane[lowLane u].pcv
      if (laneList u).all fun i => g.lane[i].pcv = pc then some { pc, path := u, sync := true } else none

/-! ### Copy batches (R257) -/

/-- Sealed batches that are not complete. -/
def Batch.incomplete (b : Batch) : Nat := (b.issued - b.done).toNat

/-- Changes a batch slot. -/
def Batch.modSlot (b : Batch) (j : Nat) (f : BatchSlot → BatchSlot) : Batch :=
  { b with slots := Vector.ofFn fun i => if i.val = j % 8 then f b.slots[i] else b.slots[i] }

/-- A batch slot by number. -/
def Batch.slot (b : Batch) (n : Nat) : BatchSlot := (b.slots[n % 8]?).getD {}

/-- DONE advances over the complete batches at the head of the sealed ones, at most `fuel`; the codes of those
that completed are collected. -/
def Batch.advance : Nat → Batch → Batch × List Nat
  | 0, b => (b, [])
  | fuel + 1, b =>
    if b.done = b.issued || (b.slot b.done.toNat).out != 0 then (b, [])
    else
      let r := Batch.advance fuel { b with done := b.done + 1 }
      (r.1, (b.slot b.done.toNat).code :: r.2)

/-- The open batch is sealed; the next one takes its slot (R257, R259). -/
def Batch.seal (b : Batch) : Batch :=
  let b := { b with issued := b.issued + 1 }
  b.modSlot b.issued.toNat fun _ => {}

/-- Whether CSEAL is held: seven sealed batches are incomplete, or the slot that the next batch takes has an arrival to make (R257,
R259). -/
def Batch.full (b : Batch) : Bool := 7 ≤ b.incomplete || (b.slot (b.issued + 1).toNat).bound

/-- The open batch of a group that issues no more is sealed as though by CSEAL, when no hold of CSEAL applies (R261). -/
def Group.sealOpen (g : Group) : Group :=
  if g.batch.full then { g with sealDue := true } else { g with sealDue := false, batch := g.batch.seal }

/-- After a change of lanes: a group whose lanes have all exited drains (R86, R96); when no lane is live,
unparked and unyielded, every yield bit clears (R90); the last exit seals the open batch (R261); the watchdog clears when no lane is parked (R95);
a group whose live lanes are all parked, but not at one address, is held (R94). -/
def Group.settle (g : Group) : Group :=
  let g := if g.runnable = 0 then { g with lane := Vector.ofFn fun i => { g.lane[i] with yld := false } } else g
  let g := if g.parked = 0 then { g with elapsed := 0, sub := 0 } else g
  if g.st = .ready || g.st = .held then
    if g.unexited = 0 then { g.sealOpen with st := .draining, hold := .none }
    else if g.select.isNone then { g with st := .held, hold := .parked }
    else g
  else g

/-! ### Landing of fixed-latency results (R37, R38, R76) -/

/-- Lowers a scoreboard slot (R39). -/
def Group.lowerSb (g : Group) : Option Nat → Group
  | none => g
  | some n => { g with sb := Vector.ofFn fun i => if i.val = n then g.sb[i] - 1 else g.sb[i] }

/-- Raises a scoreboard slot (R39). -/
def Group.raiseSb (g : Group) : Option Nat → Group
  | none => g
  | some n => { g with sb := Vector.ofFn fun i => if i.val = n then g.sb[i] + 1 else g.sb[i] }

/-- The flags of a completion: they join sr.fflags at the end of its FCLK (R76, R128). -/
def Group.flag (g : Group) (x : BitVec 6) : Group := { g with fnew := g.fnew ||| x }

/-- The flags of the completions so far (R76). -/
def Group.flags (g : Group) : BitVec 6 := g.fflags ||| g.fnew

/-- An FCLK ends: the flags of its completions join sr.fflags (R76). -/
def Group.joinFlags (g : Group) : Group := { g with fflags := g.flags, fnew := 0 }

/-- One result lands: its flags are set and its slot is lowered. -/
def Group.landOne (g : Group) (p : Pend) : Group := (g.flag p.flags).lowerSb p.sbs

/-- What is left of a result that has landed: nothing, or what its distance still decides (R37, R38). -/
def Pend.landed (p : Pend) : Option Pend := if p.dist < p.lat then some { p with flags := 0, sbs := none } else none

/-- The results of `g` that satisfy `due` land, in issue order. -/
def Group.landIf (g : Group) (due : Pend → Bool) : Group :=
  (g.pend.filter due).foldl Group.landOne { g with pend := g.pend.filterMap fun p => if due p then p.landed else some p }

/-- Every issued fixed-latency result lands, and no reader after this is short (R38, R98). -/
def Group.landAll (g : Group) : Group := { g.landIf fun _ => true with pend := [] }

/-- The results that landed in FCLKs before `t`, whose flags stand in sr.fflags. -/
def Group.landBefore (g : Group) (t : Word) : Group :=
  { (({ g with fnew := 0 } : Group).landIf fun p => p.land.toNat < t.toNat).joinFlags with fnew := g.fnew }

/-- The FCLK in which the newest result still short for a read of `r` lands (R37, R38), whatever lanes the reader has: a
path disjoint from the lanes that the producer wrote is short too (DESIGN CHOICE, log 79). -/
def shortFor (r : RegId) (ps : List Pend) : Option Word :=
  ps.foldl (fun (acc : Option Word) (p : Pend) =>
    if p.regs.contains r && p.lanes != 0 && p.dist < p.lat then
      some (match acc with | none => p.land | some x => if x.toNat < p.land.toNat then p.land else x)
    else acc) none

/-- The FCLK in which the last short producer of these reads lands, none when no read is short (R38). -/
def Group.short (g : Group) (rs : List RegId) : Option Word :=
  rs.foldl (fun acc r =>
    match shortFor r g.pend, acc with
    | none, a => a
    | some x, none => some x
    | some x, some y => some (if x.toNat < y.toNat then y else x)) none

/-- The wait of a SLEEP ends, and with it the instruction (R104, R123). -/
def Group.endSleep (g : Group) : Group :=
  if g.sleepEnd.isNone then g else ({ g with sleepEnd := none, sleepSb := none }).lowerSb g.sleepSb

/-- A BWAIT, a wait at a barrier that a completion has ended, or a copy held before it issues is no longer under way: what follows
examines the barrier or the descriptor again (R244, R245, R251). -/
def Group.endWait (g : Group) : Group := { g with bwait := none, ended := none, staged := none }

/-- A BARV or BARA that has executed and has not ended: its arrival is not counted, or its phase has completed. Both end
before a trap other than that of the watchdog, a hold or a stop reaches the group (R87, R246). -/
def Group.arriving (g : Group) : Bool := g.arrive.isSome || (g.batch.bvValid && g.ended.isSome)

/-- At an issue attempt at time `t`: earlier landings are in place, and a SLEEP whose time is over has
ended (R123). -/
def Group.tick (g : Group) (t : Word) : Group :=
  let g := g.landBefore t
  match g.sleepEnd with
  | some x => if x.toNat ≤ t.toNat then g.endSleep else g
  | none => g

/-! ### Outstanding work and traps (R98, R99) -/

/-- The operations of a group that are in flight. -/
def State.opsOf (s : State) (k : Nat) : List Op := s.ops.filter fun o => o.k = k

/-- The accumulators of a group that a poison fault stalled (R179). -/
def State.faulted (s : State) (k : Nat) : Bool :=
  (List.finRange 8).any fun i => let a := (s.core (coreOf k)).accs[i]
                                 a.fault && a.owner == k && a.st == .stalled

/-- The MMAs of a group that will still complete: those not at or behind a poison fault (R179). -/
def State.mmasOf (s : State) (k : Nat) : List MmaEnt :=
  let c := s.core (coreOf k)
  c.queue.filter fun m =>
    match c.accs[m.acc]? with
    | some a => a.owner == k && !a.fault
    | none => false

/-- The copies and messages a group issued that are not complete (R247, R339). -/
def State.copiesOf (s : State) (k : Nat) : List Copy :=
  s.copies.filter fun c => c.team = (s.grp k).team && c.gid = (s.grp k).gid

/-- Whether a copy of group `k` cannot complete before a poison fault of the group is serviced: its follow-on MMA, or an MMA whose
operands it has to write, stands at or behind the fault (R171, R179, R183). -/
def State.stuck (s : State) (k : Nat) (c : Copy) : Bool :=
  let x := s.core (coreOf k)
  let r := (s.tile (siteOf k)).range
  (x.queue.filter fun m => match x.accs[m.acc]? with | some a => a.owner == k && a.fault | none => false).any fun m =>
    m.copy = some c.id
      || r.any fun e => e.mma = some m.id && r.any fun d => d.copy = some c.id && d.dest && d.lo < e.hi && e.lo < d.hi

/-- Whether a copy waits for a channel that copies which cannot complete keep (R247). -/
def State.behind (s : State) (k : Nat) (c : Copy) : Bool :=
  c.chan.isNone && 16 ≤ s.copies.countP fun y => y.site = c.site && y.chan.isSome && s.stuck k y

/-- Whether an instruction of a group waits for register reads that a ration of 0 does not grant (R379). -/
def State.starved (s : State) (k : Nat) : Bool :=
  (s.tile (siteOf k)).ration = 0 && (s.core (coreOf k)).waits.any fun w => w.1 = k

/-- The cause of a watchdog expiry (R51, R95). -/
def causeWatchdog : Nat := 0x21

/-- Step 2 of R98 for a trap with a cause: every instruction the group issued has completed and landed. MMAs at or behind a
poison fault cannot complete (R179), nor can the copies that they block. A watchdog expiry leaves the lanes parked at a barrier
instruction whose arrival is not counted yet (R95). -/
def State.quietFor (s : State) (k cause : Nat) : Bool :=
  (s.opsOf k).isEmpty && (s.mmasOf k).isEmpty && ((s.copiesOf k).all fun c => s.stuck k c || s.behind k c) && !s.starved k
    && (cause = causeWatchdog || !(s.grp k).arriving)

/-- Step 2 of R98: every instruction the group issued has completed and landed. -/
def State.quiet (s : State) (k : Nat) : Bool := s.quietFor k 0

/-- The MMAs of a group that a stop has taken go on: what a trap or a supervisor hold waits for completes first (R87, R98, R178). -/
def State.freeMmas (s : State) (k : Nat) : State :=
  s.modCore (coreOf k) fun c => { c with queue := c.queue.map fun m =>
    match c.accs[m.acc]? with
    | some a => if a.owner = k then { m with stop := none } else m
    | none => m }

/-- Step 3 to 5 of R98: the cause, address and done mask are written, the group enters trapped and the
supervisor core receives an interrupt. -/
def State.enterTrap (s : State) (k : Nat) (cause : BitVec 6) (addr : Word) (done : LaneMask) : State :=
  (s.modGrp k fun g => { g.landAll.endSleep.endWait with
    trapcause := cause, trapaddr := addr, donemask := done, st := .trapped, hold := .none,
    trapReq := none, holdReq := false }).emit (.trapInterrupt k)

/-- Taking a trap (R98): issued fixed-latency results land; when every earlier instruction has completed
the group enters trapped at once, and otherwise it issues nothing until TRAP_ENTRY. A trap that the
group's state does not admit is dropped (R87). -/
def State.trap (s : State) (k : Nat) (cause : Nat) (addr : Word) (done : LaneMask) : State :=
  let g := s.grp k
  if (g.st = .ready || g.st = .held) && g.trapReq.isNone then
    if s.quietFor k cause then s.enterTrap k (BitVec.ofNat 6 cause) addr done
    else (s.freeMmas k).modGrp k fun g => { g.landAll.endSleep with
      st := .held, hold := .trapping, trapReq := some (BitVec.ofNat 6 cause, addr, done) }
  else s

/-- Trap causes of R51. -/
def causeIllegal : Nat := 0x01
/-- RESERVED_FIELD. -/
def causeReserved : Nat := 0x02
/-- STALL_SHORT. -/
def causeShort : Nat := 0x03
/-- PRIVILEGE. -/
def causePrivilege : Nat := 0x04
/-- XLATE_MISS. -/
def causeMiss : Nat := 0x08
/-- XLATE_PERM. -/
def causePerm : Nat := 0x09
/-- XLATE_EXEC. -/
def causeExec : Nat := 0x0A
/-- ALIGN. -/
def causeAlign : Nat := 0x0B
/-- SPAD_RANGE. -/
def causeSpad : Nat := 0x0C
/-- BANK_RANGE. -/
def causeBank : Nat := 0x0D
/-- STACK_SPILL. -/
def causeSpill : Nat := 0x0E
/-- COPY_RIGHTS. -/
def causeCopyRights : Nat := 0x10
/-- COPY_DESC. -/
def causeCopyDesc : Nat := 0x11
/-- ROUTE. -/
def causeRoute : Nat := 0x12
/-- BARRIER_OVER. -/
def causeBarOver : Nat := 0x14
/-- BARRIER_INIT. -/
def causeBarInit : Nat := 0x15
/-- JOIN_UNDERFLOW. -/
def causeJoin : Nat := 0x18
/-- QUEUE_FULL. -/
def causeQueue : Nat := 0x19
/-- DEPTH. -/
def causeDepth : Nat := 0x1A
/-- SPAWN_POOL. -/
def causeSpawn : Nat := 0x1B
/-- ACC_STATE. -/
def causeAcc : Nat := 0x1C
/-- POISON. -/
def causePoison : Nat := 0x20
/-- SOFTWARE. -/
def causeSoftware : Nat := 0x30
/-- BREAK. -/
def causeBreak : Nat := 0x31

/-! ### One issue (R29 to R40, R89, R94) -/

/-- An instruction at its issue: the group, the addresses of it and of the next instruction, its
encoding, the path and the lanes of the path whose guard is true (E of R118). -/
structure Env where
  k    : Nat
  pc   : Word
  nxt  : Word
  maj  : BitVec 7
  f    : Fields
  sh   : Shape
  path : LaneMask
  e    : LaneMask
deriving DecidableEq, Repr

/-- What the body of an instruction does.
`regs` writes registers of the group and sets flags when they land; `next` changes the state and
completes at once; `pcs` moves each lane of the path to a pcv; `start` begins a variable-latency
operation; `held` completes its issue and leaves the group held; `trap` raises a cause, with the lanes
done; `hold` leaves the instruction unexecuted with the group held, and `wait` does so after a change of the
state. -/
inductive Out where
  | regs (g : Group) (flags : BitVec 6) (cons : Nat)
  | next (s : State)
  | pcs (s : State) (pc : LaneId → Word)
  | start (s : State) (op : Op)
  | held (h : Hold) (s : State)
  | trap (cause : Nat) (addr : Word) (done : LaneMask) (s : State)
  | hold (h : Hold)
  | wait (h : Hold) (s : State)

/-- What the checks before an issue find. -/
inductive Start where
  | idle
  | trap (cause : Nat)
  | wait (h : Hold) (until_ : Word)
  | go (e : Env) (sync : Bool)

/-- Whether a group can try to issue at time `t`: ready or held, no trap being taken, its stall count over, and its SLEEP
over (R36, R86, R98, R123). -/
def Group.mayIssue (g : Group) (t : Word) : Bool :=
  (g.st = .ready || (g.st = .held && g.hold != .trapping && g.hold != .migrating)) && g.trapReq.isNone
    && g.stallEnd.toNat ≤ t.toNat
    && (match g.sleepEnd with | none => true | some x => x.toNat ≤ t.toNat)
    && !(g.hold = .bwait && (g.arrive.isSome || g.batch.bvValid))

/-- The state-dependent checks of R31, R131 and R238 on operand numbers. -/
def budgetOk (g : Group) (nbars : Nat) (sh : Shape) (f : Fields) : Bool :=
  let v (o : Opd) (x : BitVec 7) : Bool :=
    match o.cls with
    | .v n => x.toNat + n ≤ g.regs
    | .br => x.toNat < nbars
    | _ => true
  v sh.d f.d && v sh.a f.a && v sh.b f.b && v sh.c f.src3 && sh.side.all fun x => x.1 + x.2 ≤ g.regs

/-- MOVRS to a special register that is not writable (R83, R129). -/
def privileged (maj : BitVec 7) (f : Fields) : Bool :=
  maj = 0x28 && f.fn = 1 && f.d != 0x0A && f.d != 0x0E && f.d != 0x0F

/-- Memory instructions 0x60 to 0x67, CALL, CALLX and RET: per-lane restartable (R99). -/
def restartable (maj : BitVec 7) : Bool :=
  (0x60 ≤ maj.toNat && maj.toNat ≤ 0x67) || maj = 0x21 || maj = 0x22

/-- The v registers that the MMAs of a group in flight read (R176): fragments, scales and side lists. -/
def MmaEnt.frag (m : MmaEnt) : List RegId :=
  (if m.apair.isSome then [] else (List.range 16).map fun i => .v (m.areg + i))
    ++ (if m.bpair.isSome then [] else (List.range 16).map fun i => .v (m.breg + i))
    ++ (if m.x then
          [.v (bits m.ctrl 0 7), .v (bits m.ctrl 8 7)]
            ++ (if mmaxMxe m.ty false then (List.range 4).map fun i => .v (bits m.ctrl 16 7 + i) else [])
            ++ (if mmaxMxe m.ty true then (List.range 4).map fun i => .v (bits m.ctrl 23 7 + i) else [])
        else [])

/-- The MMAs of a group in flight, stalled ones included. -/
def State.mmasAll (s : State) (k : Nat) : List MmaEnt :=
  let c := s.core (coreOf k)
  c.queue.filter fun m => match c.accs[m.acc]? with | some a => a.owner == k | none => false

/-- Holds on registers: a variable-latency write outstanding (R39), or a write to a register that an MMA
in flight reads (R176). -/
def State.regHeld (s : State) (k : Nat) (rd wr : List RegId) : Bool :=
  ((s.opsOf k).any fun o => o.wr.any fun r => rd.contains r || wr.contains r)
    || ((s.mmasAll k).any fun m => m.frag.any fun r => wr.contains r)

/-- An acquire atomic in flight holds later memory instructions of its group (R229). -/
def State.acqHeld (s : State) (k : Nat) (maj : BitVec 7) : Bool :=
  0x60 ≤ maj.toNat && maj.toNat ≤ 0x67 && (s.opsOf k).any fun o => o.acq.isSome

/-- The guard of R32 over all lanes. -/
def Group.guard (g : Group) (f : Fields) : LaneMask := if f.gn then ~~~(g.rdP f.gp.toNat) else g.rdP f.gp.toNat

/-- The checks of R40 in order, then the waits of R38, R39 and R176, for the instruction at the issue
address of group `k` (after the results that landed before this FCLK). A group whose earlier reads are not granted waits for them
first (R379). -/
def begin (maj : BitVec 7) (f : Fields) (s : State) (k : Nat) : Start :=
  let g := s.grp k
  if !g.mayIssue s.time then .idle
  else if s.starved k then .wait .reads s.time
  else
    match g.select, shape maj f with
    | none, _ => .idle
    | some _, none => .trap causeIllegal
    | some sel, some sh =>
      if !sh.base && !f.ext then .trap causeIllegal
      else if !sh.fieldsOk f || !budgetOk g (s.team g.team).nbars sh f then .trap causeReserved
      else if privileged maj f then .trap causePrivilege
      else
        let rd := regReads maj sh f
        let wr := regWrites sh f
        let sbw := (List.finRange 8).any fun i => f.sbw.getLsbD i && g.sb[i] != 0
        match (g.short rd).filter fun t => g.chk || s.time.toNat < t.toNat + 4, g.chk with
        | some _, true => .trap causeShort
        | some t, false => .wait .regs (t + 4)
        | none, _ =>
          if sbw then .wait .sbw s.time
          else if f.sbsV && g.sb[f.sbsN.toFin] ≥ 63 then .wait .slotFull s.time
          else if s.regHeld k rd wr then .wait .regs s.time
          else if s.acqHeld k maj then .wait .acquire s.time
          else
            .go { k, pc := sel.pc, nxt := BitVec.ofNat 64 ((sel.pc.toNat + f.bytes) % 2 ^ 56), maj, f, sh, path := sel.path,
                  e := if sh.g0 then sel.path
                       else sel.path &&& g.guard f &&& (if restartable maj then ~~~g.donemask else allLanes) } sel.sync

/-- Whether a hold comes before the instruction issues: the group is ready again when it ends (R86). The other holds are
waits of an instruction that has issued, which ends with its wait. -/
def Hold.before (h : Hold) : Bool :=
  match h with
  | .none | .stall | .sbw | .regs | .slotFull | .parked | .mmaQueue | .copies | .queueClosed | .queue | .acquire | .reads => true
  | .sleep | .rpop | .pwait | .bwait | .cwait | .aalloc | .engine | .range | .accBusy | .trapping | .migrating | .cseal | .access => false

/-- The group waits (R86); an instruction that waits after its issue has issued now (R308). -/
def State.holdGrp (s : State) (k : Nat) (h : Hold) (t : Word) : State :=
  s.modGrp k fun g => { g with
    st := .held, hold := h, stallEnd := if t.toNat < g.stallEnd.toNat then g.stallEnd else t,
    lastIssue := if h.before then g.lastIssue else s.time }

/-- After an issue: distances grow by 1 + STALL (R36), the group is held for STALL FCLK, and the lanes
settle (R90, R96). -/
def Group.issued (g : Group) (stall : BitVec 3) (t : Word) : Group :=
  Group.settle { g with
    pend := g.pend.map fun p => { p with dist := p.dist + 1 + stall.toNat },
    lastIssue := t, stallEnd := t + 1 + BitVec.ofNat 64 stall.toNat,
    st := if stall = 0 then .ready else .held,
    hold := if stall = 0 then .none else .stall }

/-- Moves the lanes of the path that are still live to their next pcv; parked lanes become live with
their yield bits clear (R89, R94). sr.donemask clears to 0 when the instruction is complete (R99). -/
def Group.advance (g : Group) (path : LaneMask) (sync : Bool) (pc : LaneId → Word) : Group :=
  let g := g.mapLanes path fun i l =>
    let l := { l with tgt := none }
    if l.st = .exited then l
    else if sync then { l with st := .live, yld := false, pcv := pc i }
    else if l.st = .live then { l with pcv := pc i } else l
  let g := { g with donemask := 0 }
  if sync then { g with elapsed := 0, sub := 0 } else g

/-- A fixed-latency result enters the pipeline (R37). -/
def Group.pushPend (g : Group) (env : Env) (t : Word) (flags : BitVec 6) : Group :=
  let wr := regWrites env.sh env.f
  { g.raiseSb env.f.slot with
    pend := g.pend ++ [{ regs := wr, lanes := if env.sh.d.cls = .s then allLanes else env.e, lat := env.sh.lat,
                         land := t + BitVec.ofNat 64 env.sh.lat, flags, sbs := env.f.slot }] }

/-- A variable-latency operation enters flight: it takes an identifier and raises its slot (R39). -/
def State.launch (s : State) (env : Env) (op : Op) : State :=
  { (s.modGrp env.k fun g => g.raiseSb env.f.slot) with
    ops := s.ops ++ [{ op with id := s.nextId, k := env.k, f := env.f, sbs := env.f.slot, addr := env.pc, time := s.time }],
    nextId := s.nextId + 1 }

/-- Where a lane goes that takes no part: a lane done in an earlier, trapped execution goes where that sent it
(R99), any other to the next instruction. -/
def Group.doneTarget (g : Group) (nxt : Word) (l : LaneId) : Word :=
  (if g.donemask.getLsbD l then g.lane[l].tgt else none).getD nxt

/-- Reads of v registers that an issue adds to the read backlog: an MMA reads with its k-steps (R379). -/
def Env.vReads (env : Env) : Nat :=
  if env.maj = 0x59 then 0
  else (regReads env.maj env.sh env.f).countP fun r => match r with | .v _ => true | _ => false

/-- Whether an instruction goes to the vector pipe (R380). -/
def Env.vPipe (env : Env) : Bool :=
  let m := env.maj.toNat
  (m ≤ 0x13 && (match env.sh.d.cls with | .v _ => true | _ => false)) || (0x18 ≤ m && m ≤ 0x1E)
    || (0x30 ≤ m && m ≤ 0x43) || (0x4D ≤ m && m ≤ 0x57)

/-- What an earlier result still stands in after a write of these registers in lanes `m`: a result that a later write
replaced is read no more (R37, R38). Its flags and its slot keep their time. -/
def Pend.under (p : Pend) (wr : List RegId) (m : LaneMask) : List Pend :=
  let hit := p.regs.filter wr.contains
  if p.dist = 0 || hit.isEmpty then [p]
  else
    { p with regs := p.regs.filter fun r => !wr.contains r } ::
      (if p.lanes &&& ~~~m = 0 then [] else [{ p with regs := hit, lanes := p.lanes &&& ~~~m, flags := 0, sbs := none }])

/-- The writes of an instruction replace earlier results. -/
def Group.replaces (g : Group) (env : Env) : Group :=
  if env.e = 0 then g
  else
    { g with pend := g.pend.flatMap fun p =>
        p.under (regWrites env.sh env.f) (if env.sh.d.cls = .s then allLanes else env.e) }

/-- The end of an issue, after the instruction's own effect (R36, R89), with its register reads and its place
in the vector pipe (R379, R380). -/
def State.complete (s : State) (env : Env) (sync : Bool) (pc : LaneId → Word) : State :=
  (s.modGrp env.k fun g => ((g.replaces env).advance env.path sync pc).issued env.f.stall s.time).modCore (coreOf env.k) fun c =>
    { c with
      backlog := c.backlog + env.vReads, pipe := c.pipe + env.vPipe.toNat
      waits := if env.vReads = 0 then c.waits else c.waits ++ [(env.k, env.vReads)] }

/-- Applies what the body of an instruction does. With no true guard nothing is done and the slot is
raised and lowered at once (R32). -/
def finish (s : State) (env : Env) (sync : Bool) : Out → State
  | .regs g flags cons =>
    if env.sh.lat = 0 then
      (((s.setGrp env.k g).launch env { id := 0, k := 0, kind := .alu, wr := regWrites env.sh env.f, flags }).complete
        env sync fun _ => env.nxt).consume env.k cons
    else ((s.setGrp env.k (g.pushPend env s.time flags)).complete env sync fun _ => env.nxt).consume env.k cons
  | .next s' => s'.complete env sync fun _ => env.nxt
  | .pcs s' pc => (if env.sh.lat = 0 then s' else s'.modGrp env.k fun g => g.pushPend env s.time 0).complete env sync pc
  | .start s' op => (s'.launch env op).complete env sync fun _ => env.nxt
  | .held h s' => (s'.complete env sync fun _ => env.nxt).modGrp env.k fun g => { g with st := .held, hold := h }
  | .trap cause addr done s' => s'.trap env.k cause addr done
  | .hold h => s.holdGrp env.k h s.time
  | .wait h s' => s'.holdGrp env.k h s.time

/-- Whether every live lane of a group is parked at one address: only a group-synchronous instruction issues there (R89, R94). -/
def Group.allParked (g : Group) : Bool :=
  match g.select with
  | some sel => sel.sync
  | none => false

/-- One issue of an instruction that is not group-synchronous, by the group whose turn it is. -/
def issueWith (maj : BitVec 7) (f : Fields) (s : State) (body : Env → State → Out) : State :=
  let s := s.modGrp s.cur fun g => g.tick s.time
  if (s.grp s.cur).allParked then s.holdGrp s.cur .parked s.time else
  match begin maj f s s.cur with
  | .idle => s
  | .trap cause =>
    match (s.grp s.cur).select with
    | some sel => s.trap s.cur cause sel.pc 0
    | none => s
  | .wait h t => s.holdGrp s.cur h t
  | .go env sync =>
    if env.e = 0 then s.complete env sync ((s.grp env.k).doneTarget env.nxt) else finish s env sync (body env s)

/-- Parks the path at a group-synchronous instruction; parking clears the yield bit (R90, R94). -/
def Group.park (g : Group) (path : LaneMask) : Group :=
  g.mapLanes path fun _ l => { l with st := .parked, yld := false }

/-- One issue of a group-synchronous instruction (R94): the path parks; when every live lane is parked at
the one address, the instruction executes for all of them. -/
def issueSync (maj : BitVec 7) (f : Fields) (s : State) (body : Env → State → Out) : State :=
  let s := s.modGrp s.cur fun g => g.tick s.time
  match begin maj f s s.cur with
  | .idle => s
  | .trap cause =>
    match (s.grp s.cur).select with
    | some sel => s.trap s.cur cause sel.pc 0
    | none => s
  | .wait h t => s.holdGrp s.cur h t
  | .go env sync =>
    let s := if sync then s else s.modGrp env.k fun g => g.park env.path
    match (s.grp env.k).select with
    | some sel =>
      if sel.sync && sel.pc = env.pc then
        let env := { env with path := sel.path, e := sel.path }
        finish s env true (body env s)
      else s.modGrp env.k fun g => g.issued f.stall s.time
    | none => s.modGrp env.k fun g => g.issued f.stall s.time

end Sys2Proof.Machine
end

