-- ==== Sys2Proof/Machine/Operands.lean ====
section
/-!
DEFINITION. Operand forms and packed elements: sources A, B and C of an instruction (R28 to R30, R105),
elements of a register and their poison (R53, R77), and writing the results of all executing lanes.
-/

namespace Sys2Proof.Machine

/-! ### Elements (R53, R77) -/

/-- Element `i` of width `w` of a register value. -/
def elem (r : Reg) (w i : Nat) : Nat := r.val.toNat / 2 ^ (w * i) % 2 ^ w

/-- Whether any byte of element `i` of width `w` is poisoned. -/
def elemBad (r : Reg) (w i : Nat) : Bool := r.poi.toNat / 2 ^ (w * i / 8) % 2 ^ (max 1 (w / 8)) != 0

/-- A result element: its code and whether it is poisoned. -/
abbrev Elem := Nat × Bool

/-- The value of packed elements of width `w`, element 0 in the least significant bits. -/
def packVal (w : Nat) : List Elem → Nat
  | [] => 0
  | e :: r => e.1 % 2 ^ w + 2 ^ w * packVal w r

/-- The poison byte of packed elements of width `w` at least 8. -/
def packPoi (w : Nat) : List Elem → Nat
  | [] => 0
  | e :: r => (if e.2 then 2 ^ (w / 8) - 1 else 0) + 2 ^ (w / 8) * packPoi w r

/-- The poison byte of packed 4-bit elements: a byte is poisoned when either element in it is. -/
def packPoi4 : List Elem → Nat
  | a :: b :: r => (if a.2 || b.2 then 1 else 0) + 2 * packPoi4 r
  | [a] => if a.2 then 1 else 0
  | [] => 0

/-- The register of packed elements. -/
def packReg (w : Nat) (es : List Elem) : Reg :=
  { val := BitVec.ofNat 64 (packVal w es), poi := BitVec.ofNat 8 (if w < 8 then packPoi4 es else packPoi w es) }

/-- `n` bits of `x` from bit `lo` replaced by those of `y`. -/
def spliceNat (x lo n y : Nat) : Nat := x % 2 ^ lo + 2 ^ lo * (y % 2 ^ n) + 2 ^ (lo + n) * (x / 2 ^ (lo + n))

/-- A register with the elements from index `i` on replaced, poison bits included. -/
def insertElems (base : Reg) (w i : Nat) (es : List Elem) : Reg :=
  let r := packReg w es
  { val := BitVec.ofNat 64 (spliceNat base.val.toNat (w * i) (w * es.length) r.val.toNat),
    poi := BitVec.ofNat 8 (spliceNat base.poi.toNat (w / 8 * i) (w / 8 * es.length) r.poi.toNat) }

/-- Byte `j` of a register. -/
def Reg.byte (r : Reg) (j : Nat) : Nat := elem r 8 j

/-- Signed reading of a `w`-bit value. -/
def sext (a w : Nat) : Int := if a < 2 ^ (w - 1) then a else (a : Int) - 2 ^ w

/-- The `w`-bit code of an integer (R66). -/
def wrapTo (w : Nat) (t : Int) : Nat := (t % (2 ^ w : Int)).toNat

/-- Clamping to a range. -/
def clampTo (lo hi t : Int) : Int := if t < lo then lo else if hi < t then hi else t

/-! ### Sources -/

/-- The register an operand field names, in a lane. -/
def Group.rdOpd (g : Group) (o : Opd) (x : BitVec 7) (l : LaneId) : Reg :=
  match o.cls with
  | .s => g.rdS x.toNat
  | .v _ => g.rdV x.toNat l
  | _ => {}

/-- Source A. -/
def Env.srcA (env : Env) (g : Group) (l : LaneId) : Reg := g.rdOpd env.sh.a env.f.a l
/-- Source B: the literal where one is present (R28). -/
def Env.srcB (env : Env) (g : Group) (l : LaneId) : Reg :=
  if env.f.hasLit then .of env.f.lit else g.rdOpd env.sh.b env.f.b l
/-- The third source (R29). -/
def Env.srcC (env : Env) (g : Group) (l : LaneId) : Reg := g.rdOpd env.sh.c env.f.src3 l
/-- The destination read as a source. -/
def Env.srcD (env : Env) (g : Group) (l : LaneId) : Reg := g.rdOpd env.sh.d env.f.d l

/-! ### Results of the executing lanes -/

/-- One lane's result: the register, the consumptions it made and the flags it sets. -/
structure LRes where
  r     : Reg := {}
  cons  : Nat := 0
  flags : BitVec 6 := 0
deriving DecidableEq, Repr

/-- Consumptions over the lanes of a mask. -/
def consOf (m : LaneMask) (f : LaneId → Nat) : Nat := ((laneList m).map f).sum

/-- Flags over the lanes of a mask (R75). -/
def flagsOf (m : LaneMask) (f : LaneId → BitVec 6) : BitVec 6 := (laneList m).foldl (fun a l => a ||| f l) 0

/-- An instruction of the group chapters that consumed poison: with sr.ctl.pt it traps POISON and writes
nothing, otherwise it goes on (R106, R132). -/
def poisonGate (env : Env) (s : State) (cons : Nat) (go : Out) : Out :=
  if cons != 0 && (s.grp env.k).pt then .trap causePoison env.pc 0 (s.consume env.k cons) else go

/-- A lane instruction: every executing lane writes v[D] of the group `g`. -/
def vecOutG (env : Env) (s : State) (g : Group) (res : LaneId → LRes) : Out :=
  let cons := consOf env.e fun l => (res l).cons
  poisonGate env s cons
    (.regs (g.wrV env.f.d.toNat env.e fun l => (res l).r) (flagsOf env.e fun l => (res l).flags) cons)

/-- A lane instruction: every executing lane writes v[D]. -/
def vecOut (env : Env) (s : State) (res : LaneId → LRes) : Out := vecOutG env s (s.grp env.k) res

/-- A scalar instruction: s[D] is written once (R32). -/
def scalOut (env : Env) (s : State) (res : LRes) : Out :=
  poisonGate env s res.cons (.regs ((s.grp env.k).wrS env.f.d.toNat res.r) res.flags res.cons)

/-- An instruction that sets predicate D in each executing lane: `res` gives the value and the
consumptions of a lane. -/
def predOut (env : Env) (s : State) (res : LaneId → Bool × Nat × BitVec 6) : Out :=
  let cons := consOf env.e fun l => (res l).2.1
  poisonGate env s cons
    (.regs ((s.grp env.k).wrP env.f.d.toNat env.e (BitVec.ofFnLE fun i => (res i).1))
      (flagsOf env.e fun l => (res l).2.2) cons)

end Sys2Proof.Machine
end

