-- ==== Sys2Proof/Machine/Flags.lean ====
section
/-!
DEFINITION. Number formats, rounding and floating-point flags (R54 to R76): codes as exact values, one
rounding from an exact value to a code with its flags, exact sums and products, ordering, and the
stochastic draw.
-/

namespace Sys2Proof.Machine

/-! ### Flags (R74) -/

/-- NX: inexact. -/
def fNX : BitVec 6 := 0x01
/-- UF: tiny and inexact. -/
def fUF : BitVec 6 := 0x02
/-- OF: overflow or saturation. -/
def fOF : BitVec 6 := 0x04
/-- DZ: division by zero. -/
def fDZ : BitVec 6 := 0x08
/-- NV: invalid. -/
def fNV : BitVec 6 := 0x10
/-- OLX: a fifth or later escape. -/
def fOLX : BitVec 6 := 0x20

/-! ### Formats (R54, R65) -/

/-- The special codes of a format: IEEE infinities and NaNs; NaN at all ones only; none. -/
inductive FKind where
  | ieee | nanOnly | none
deriving DecidableEq, Repr

/-- A floating-point format: width, mantissa width, bias and special codes. -/
structure Fmt where
  w    : Nat
  mb   : Nat
  bias : Nat
  kind : FKind := .ieee
deriving DecidableEq, Repr

/-- FP32. -/
def fp32 : Fmt := { w := 32, mb := 23, bias := 127 }
/-- FP16. -/
def fp16 : Fmt := { w := 16, mb := 10, bias := 15 }
/-- BF16. -/
def bf16 : Fmt := { w := 16, mb := 7, bias := 127 }
/-- E5M2. -/
def e5m2 : Fmt := { w := 8, mb := 2, bias := 15 }
/-- E4M3. -/
def e4m3 : Fmt := { w := 8, mb := 3, bias := 7, kind := .nanOnly }
/-- E2M1. -/
def e2m1 : Fmt := { w := 4, mb := 1, bias := 1, kind := .none }
/-- FP6 E3M2. -/
def e3m2 : Fmt := { w := 6, mb := 2, bias := 3, kind := .none }
/-- FP6 E2M3. -/
def e2m3 : Fmt := { w := 6, mb := 3, bias := 1, kind := .none }

/-- Width of the exponent field. -/
def Fmt.eb (fm : Fmt) : Nat := fm.w - 1 - fm.mb
/-- The sign bit's weight. -/
def Fmt.sgn (fm : Fmt) : Nat := 2 ^ (fm.w - 1)
/-- The canonical NaN (R54); 0 in a format without NaN. -/
def Fmt.canon (fm : Fmt) : Nat :=
  match fm.kind with
  | .ieee => (2 ^ fm.eb - 1) * 2 ^ fm.mb + 2 ^ (fm.mb - 1)
  | .nanOnly => 2 ^ (fm.w - 1) - 1
  | .none => 0
/-- The code of infinity, positive. -/
def Fmt.infCode (fm : Fmt) : Nat := (2 ^ fm.eb - 1) * 2 ^ fm.mb
/-- The code of the largest finite magnitude. -/
def Fmt.maxCode (fm : Fmt) : Nat :=
  match fm.kind with
  | .ieee => fm.infCode - 1
  | .nanOnly => 2 ^ (fm.w - 1) - 2
  | .none => 2 ^ (fm.w - 1) - 1
/-- A code with a sign. -/
def Fmt.signed (fm : Fmt) (neg : Bool) (c : Nat) : Nat := if neg then c + fm.sgn else c

/-- An exact value: NaN, an infinity, or sign × m × 2^e with signed zeros (R55, R56). -/
inductive Val where
  | nan
  | inf (neg : Bool)
  | fin (neg : Bool) (m : Nat) (e : Int)
deriving DecidableEq, Repr

/-- The value of a code (R54, R55). -/
def Fmt.val (fm : Fmt) (c : Nat) : Val :=
  let neg : Bool := c / fm.sgn % 2 = 1
  let ef := c / 2 ^ fm.mb % 2 ^ fm.eb
  let mf := c % 2 ^ fm.mb
  let top : Bool := ef = 2 ^ fm.eb - 1
  if fm.kind = .ieee && top then (if mf = 0 then .inf neg else .nan)
  else if fm.kind = .nanOnly && top && mf = 2 ^ fm.mb - 1 then .nan
  else if ef = 0 then .fin neg mf (1 - fm.bias - fm.mb)
  else .fin neg (2 ^ fm.mb + mf) ((ef : Int) - fm.bias - fm.mb)

/-- Whether a code is a NaN. -/
def Fmt.isNan (fm : Fmt) (c : Nat) : Bool := fm.val c = .nan

/-! ### Rounding (R69 to R72) -/

/-- A shift of a natural number by a signed exponent, exact only to the left. -/
def scaleNat (m : Nat) (e : Int) : Nat := if 0 ≤ e then m * 2 ^ e.toNat else m / 2 ^ (-e).toNat

/-- The magnitude m × 2^e on the grid of step 2^q: the multiple chosen under the rounding code, and
whether it is exact. `draw` is W of R72. -/
def roundGrid (rc draw : Nat) (neg : Bool) (m : Nat) (e q : Int) : Nat × Bool :=
  if q ≤ e then (m * 2 ^ (e - q).toNat, true)
  else
    let d := 2 ^ (q - e).toNat
    let n := m / d
    let r := m % d
    let up : Bool :=
      match rc with
      | 0 => d < 2 * r || (2 * r = d && n % 2 = 1)
      | 1 => false
      | 2 => r != 0 && neg
      | 3 => r != 0 && !neg
      | 4 => d ≤ 2 * r
      | _ => r != 0 && draw < r * 2 ^ 32 / d
    (if up then n + 1 else n, r = 0)

/-- The code of the magnitude n × 2^q, where n has at most mb + 1 bits or is 2^(mb+1). -/
def Fmt.encode (fm : Fmt) (n : Nat) (q : Int) : Nat :=
  if n < 2 ^ fm.mb then n
  else if n = 2 ^ (fm.mb + 1) then (q + 1 + fm.mb + fm.bias).toNat * 2 ^ fm.mb
  else (q + fm.mb + fm.bias).toNat * 2 ^ fm.mb + (n - 2 ^ fm.mb)

/-- Whether n × 2^q exceeds the largest finite magnitude. -/
def Fmt.beyond (fm : Fmt) (n : Nat) (q : Int) : Bool :=
  match fm.val fm.maxCode with
  | .fin _ mm me => if q ≤ me then mm * 2 ^ (me - q).toNat < n else mm < n * 2 ^ (q - me).toNat
  | _ => false

/-- One rounding of the nonzero exact value ± m × 2^e, m ≠ 0, to a format under a rounding code, with
its flags (R70, R71, R75). With `sat` an overflow to infinity becomes the largest finite value (R141). -/
def Fmt.roundNz (fm : Fmt) (rc draw : Nat) (sat neg : Bool) (m : Nat) (e : Int) : Nat × BitVec 6 :=
  let q := (Nat.log2 m : Int) + e - fm.mb
  let qd := max q (1 - fm.bias - fm.mb)
  let (n, exact) := roundGrid rc draw neg m e qd
  if fm.kind = .ieee && fm.beyond m e then
    let toInf : Bool :=
      match rc with
      | 1 => false
      | 2 => neg
      | 3 => !neg
      | _ => fm.beyond n qd
    (fm.signed neg (if toInf && !sat then fm.infCode else fm.maxCode), fOF ||| fNX)
  else if fm.beyond n qd then (fm.signed neg fm.maxCode, fOF ||| fNX)
  else
    let tiny : Bool := (Nat.log2 (roundGrid rc draw neg m e q).1 : Int) + q < 1 - fm.bias
    (fm.signed neg (fm.encode n qd), if exact then 0 else if tiny then fUF ||| fNX else fNX)

/-- One rounding of ± m × 2^e, zero with its sign. -/
def Fmt.round (fm : Fmt) (rc draw : Nat) (sat neg : Bool) (m : Nat) (e : Int) : Nat × BitVec 6 :=
  if m = 0 then (fm.signed neg 0, 0) else fm.roundNz rc draw sat neg m e

/-- A value of one format written in another (R56, R64, R71): NaN is canonical without a flag, an
infinity stays one where the format has it and is NaN with NV in E4M3. -/
def Fmt.ofVal (fm : Fmt) (rc draw : Nat) (sat : Bool) : Val → Nat × BitVec 6
  | .nan => (fm.canon, 0)
  | .inf neg => if fm.kind = .ieee then (fm.signed neg fm.infCode, 0) else (fm.canon, fNV)
  | .fin neg m e => fm.round rc draw sat neg m e

/-! ### Exact sums and products (R58, R78, R134) -/

/-- A value with its sign changed where asked. -/
def Val.flip (b : Bool) : Val → Val
  | .nan => .nan
  | .inf n => .inf (n != b)
  | .fin n m e => .fin (n != b) m e

/-- The product of two values that are not NaN; none for 0 × ∞. -/
def Val.mul : Val → Val → Option Val
  | .fin n m e, .fin n' m' e' => some (.fin (n != n') (m * m') (e + e'))
  | .inf n, .inf n' => some (.inf (n != n'))
  | .inf n, .fin n' m _ => if m = 0 then none else some (.inf (n != n'))
  | .fin n m _, .inf n' => if m = 0 then none else some (.inf (n != n'))
  | _, _ => some .nan

/-- Whether a value is NaN. -/
def Val.isNan : Val → Bool
  | .nan => true
  | _ => false
/-- Whether a value is an infinity of the given sign. -/
def Val.isInf (neg : Bool) : Val → Bool
  | .inf n => n = neg
  | _ => false
/-- Sign of a value. -/
def Val.neg : Val → Bool
  | .nan => false
  | .inf n => n
  | .fin n _ _ => n

/-- The exact sum of finite values as an integer times 2^e. -/
def exactSum : List Val → Int × Int
  | [] => (0, 0)
  | .fin n m e :: r =>
    let (x, f) := exactSum r
    let k : Int := if n then -(m : Int) else m
    if m = 0 then (x, f)
    else if x = 0 then (k, e)
    else if e ≤ f then (k + x * 2 ^ (f - e).toNat, e) else (k * 2 ^ (e - f).toNat + x, f)
  | _ :: r => exactSum r

/-- The sum of values that are not NaN, rounded once: infinities of opposite sign give the canonical NaN
with NV, one infinity is exact, a zero sum takes its sign from R58. -/
def Fmt.sumRound (fm : Fmt) (rc draw : Nat) (ts : List Val) : Nat × BitVec 6 :=
  let pi := ts.any (Val.isInf false)
  let ni := ts.any (Val.isInf true)
  if pi && ni then (fm.canon, fNV)
  else if pi || ni then (fm.signed ni fm.infCode, 0)
  else
    let (x, e) := exactSum ts
    if x = 0 then
      let zeros := ts.all fun t => match t with | .fin _ m _ => m = 0 | _ => false
      let neg := if zeros && ts.all Val.neg then true
                 else if zeros && ts.all (fun t => !t.neg) then false
                 else rc = 2
      (fm.signed neg 0, 0)
    else fm.roundNz rc draw false (x < 0) x.natAbs e

/-- A sum of products and addends, rounded once (R78, R134): any NaN operand gives the canonical NaN
without a flag; 0 × ∞ and ∞ − ∞ give it with NV. -/
def Fmt.dotRound (fm : Fmt) (rc : Nat) (prods : List (Val × Val)) (adds : List Val) : Nat × BitVec 6 :=
  if prods.any (fun p => p.1.isNan || p.2.isNan) || adds.any Val.isNan then (fm.canon, 0)
  else
    let ps := prods.map fun p => p.1.mul p.2
    if ps.any Option.isNone then (fm.canon, fNV)
    else fm.sumRound rc 0 (ps.filterMap id ++ adds)

/-! ### Ordering (R58) -/

/-- A number that orders the codes of a format that are not NaN, −0 below +0. -/
def Fmt.key (fm : Fmt) (c : Nat) : Int := if c / fm.sgn % 2 = 1 then -((c % fm.sgn : Nat) : Int) - 1 else c % fm.sgn

/-- FMINNUM and FMAXNUM (R135). -/
def Fmt.minmaxNum (fm : Fmt) (isMax : Bool) (a b : Nat) : Nat :=
  match fm.isNan a, fm.isNan b with
  | true, true => fm.canon
  | true, false => b
  | false, true => a
  | false, false => if (fm.key a ≤ fm.key b) != isMax then a else b

/-- FMINNAN and FMAXNAN (R135). -/
def Fmt.minmaxNan (fm : Fmt) (isMax : Bool) (a b : Nat) : Nat :=
  if fm.isNan a || fm.isNan b then fm.canon else fm.minmaxNum isMax a b

/-- A floating to integer conversion of R68 to the range lo to hi: the integer and its flags. -/
def valToInt (rc draw : Nat) (lo hi : Int) : Val → Int × BitVec 6
  | .nan => (0, fNV)
  | .inf neg => (if neg then lo else hi, fNV)
  | .fin neg m e =>
    if m = 0 then (0, 0)
    else
      let (n, exact) := roundGrid rc draw neg m (min e 128) 0
      let x : Int := if neg then -(n : Int) else n
      if x < lo then (lo, fNV) else if hi < x then (hi, fNV) else (x, if exact then 0 else fNX)

/-! ### The stochastic draw (R72, R73) -/

/-- One SipHash round. -/
def sipRound (v : Word × Word × Word × Word) : Word × Word × Word × Word :=
  let (v0, v1, v2, v3) := v
  let v0 := v0 + v1
  let v1 := v1.rotateLeft 13 ^^^ v0
  let v0 := v0.rotateLeft 32
  let v2 := v2 + v3
  let v3 := v3.rotateLeft 16 ^^^ v2
  let v0 := v0 + v3
  let v3 := v3.rotateLeft 21 ^^^ v0
  let v2 := v2 + v1
  let v1 := v1.rotateLeft 17 ^^^ v2
  let v2 := v2.rotateLeft 32
  (v0, v1, v2, v3)

/-- SipHash-2-4 of whole 64-bit words under a 128-bit key, given as its two little-endian halves (log 72). -/
def sipHash24 (k0 k1 : Word) (ws : List Word) : Word :=
  let absorb (v : Word × Word × Word × Word) (m : Word) : Word × Word × Word × Word :=
    let (v0, v1, v2, v3) := sipRound (sipRound (v.1, v.2.1, v.2.2.1, v.2.2.2 ^^^ m))
    (v0 ^^^ m, v1, v2, v3)
  let v := ws.foldl absorb (k0 ^^^ 0x736f6d6570736575, k1 ^^^ 0x646f72616e646f6d,
    k0 ^^^ 0x6c7967656e657261, k1 ^^^ 0x7465646279746573)
  let (v0, v1, v2, v3) := absorb v (BitVec.ofNat 64 (8 * ws.length % 256 * 2 ^ 56))
  let (a, b, c, d) := sipRound (sipRound (sipRound (sipRound (v0, v1, v2 ^^^ 0xff, v3))))
  a ^^^ b ^^^ c ^^^ d

/-- W of R72: the low 32 bits of the hash of address, logical group, lane, element and draw counter. -/
def drawOf (seed key : Word) (addr : Word) (logical lane el : Nat) (cnt : BitVec 32) : Nat :=
  (sipHash24 seed key [addr, BitVec.ofNat 64 logical,
    BitVec.ofNat 64 (lane + 256 * el + 2 ^ 32 * cnt.toNat)]).toNat % 2 ^ 32

/-- The draw of an executing lane's element for an instruction with rounding code rs; unused otherwise. -/
def Env.draw (env : Env) (s : State) (l : LaneId) (el : Nat) : Nat :=
  if env.f.rn = 5 then
    let g := s.grp env.k
    drawOf g.srseed (s.ctx g.ctx).desc.key env.pc (g.teamid.toNat * 32 + g.gid) l el g.lane[l].draw
  else 0

/-- Every executing lane's draw counter advances once for an rs instruction (R73). -/
def Group.advanceDraw (g : Group) (env : Env) : Group :=
  if env.f.rn = 5 then g.mapLanes env.e fun _ l => { l with draw := l.draw + 1 } else g

end Sys2Proof.Machine
end

