-- ==== Sys2Proof/Config.lean ====
section
/-!
DEFINITION. What an implementation fixes and the spec leaves open: free values without a body, so that
nothing can be proved of them, and numbers of the implementation.
-/

namespace Sys2Proof

/-- The bits that the device delivers for a special function whose row of R140 is not correctly rounded:
function 0 FRSQ, 1 FEXP2, 2 FLOG2, 3 FSIN, 4 FCOS, 5 FTANH, 6 FSIGM; type 0 f32, 1 bf16, 2 f16; the
operand's code. The spec gives the bound only (log 9). -/
opaque Config.specialBits (fn ty x : Nat) : Nat

/-- Free bytes for values the spec leaves open, by a counter of the state (log 2). -/
opaque Config.freeWord : Nat → BitVec 64

/-- The keys of an export session, 256 bits each: the export key at twice its number, the MAC key after it; they come from an SPDM session
and are never exposed (R367, log 94). -/
opaque Config.streamKey : Nat → Nat

/-- The 96-bit nonce of the MAC of a page record, by the record's first 80 bytes: R367 names GMAC and gives none (log 94). -/
opaque Config.macNonce : Nat → Nat

/-- The 32-bit identifier of an Etsel stream, by the number of the stream: R346 gives it no value (log 113). -/
opaque Config.streamId : Nat → BitVec 32

/-- The SHA-256 of a partition's route table and its numbered routes 0 to 255, as a number: the spec does not lay the route table out
(R372, log 51). -/
opaque Config.routeDigest (table : List RouterEntry) (routes : List (Nat × Option Route)) : Nat

/-- The SLH-DSA-SHA2-128s signature of a measurement, as a number (R371, log 51). -/
opaque Config.signature : Nat → Nat

/-- What WIDTH of a port's control word reads when 16 lanes are in service, which its four bits do not hold (R354, log 97). -/
opaque Config.widthOf16 : BitVec 4

end Sys2Proof
end

