-- ==== Sys2Proof/Machine/Translate.lean ====
section
/-!
DEFINITION. The module's geometry (R9, R19, R374) and address translation: page-table walk, leaf checks
and TLB (R188 to R191).
-/

namespace Sys2Proof.Machine

/-! ### Sites and channels (R9, R19) -/

/-- X of a site. -/
def siteX (t : Nat) : Nat := t % 48
/-- Y of a site. -/
def siteY (t : Nat) : Nat := t / 48
/-- Site at coordinates. -/
def siteAt (x y : Nat) : Nat := y * 48 + x
/-- Field number of a site. -/
def fieldOf (t : Nat) : Nat := siteY t / 12 * 6 + siteX t / 8
/-- Default local channel of a site. -/
def localChan (t : Nat) : Nat := siteY t % 12 * 8 + siteX t % 8
/-- The base wafer record's entry of a site; an unlisted site is good and has its default channel. -/
def Flash.base (f : Flash) (t : Nat) : WaferEntry := smGet { chan := localChan t } f.entries t
/-- The changed entries of the amendments up to the last good one, the newest first (R373). -/
def Flash.changes (f : Flash) : List (Nat × WaferEntry) :=
  (((f.amendments.zip f.amendOk).takeWhile fun a => a.2).flatMap Prod.fst).reverse
/-- The entry of a site in the record with its amendments (R374). -/
def Flash.entry (f : Flash) (t : Nat) : WaferEntry :=
  match f.changes.find? fun e => e.1 = t with
  | some e => e.2
  | none => f.base t
/-- The global channel of a site under the field-to-channel map (R19). -/
def State.chanOf (s : State) (t : Nat) : Nat := fieldOf t * 96 + (s.flash.entry t).chan
/-- The state of a site; good where the record lists nothing. -/
def State.site (s : State) (t : Nat) : SiteState := smGet .good s.sites t
/-- The 96 sites of a field. -/
def fieldSites (fn : Nat) : List Nat :=
  (List.range 96).map fun c => siteAt (fn % 6 * 8 + c % 8) (fn / 6 * 12 + c / 8)
/-- The site that a global channel is assigned to (R19). -/
def State.chanSite (s : State) (c : Nat) : Option Nat :=
  (fieldSites (c / 96)).find? fun t => (s.flash.entry t).chan = c % 96
/-- Whether a channel has an L2 slice: its site is good (R19, R195). -/
def State.hasL2 (s : State) (c : Nat) : Bool :=
  match s.chanSite c with
  | some t => s.site t = .good
  | none => false

/-! ### Paths on the mesh (R331, R332) -/

/-- The neighbour of a site over a link: 0 north, 1 east, 2 south, 3 west. -/
def stepLink (t l : Nat) : Nat :=
  match l with
  | 0 => t + 48
  | 1 => t + 1
  | 2 => t - 48
  | _ => t - 1

/-- The output link at site `t` for a flit of tag `p` to `d`: the detour table's, else X first, then Y;
none at the destination. -/
def State.nextLink (s : State) (p t d : Nat) : Option Nat :=
  if t = d then none
  else
    match (smGet [] (s.router t).detours p).find? fun x => x.1 = d with
    | some x => some x.2
    | none =>
      if siteX t < siteX d then some 1 else if siteX d < siteX t then some 3
      else if siteY t < siteY d then some 0 else some 2

/-- The links on the path of tag `p` from a site to another, at most `fuel`. -/
def State.pathFrom (s : State) (p d : Nat) : Nat → Nat → Nat
  | 0, _ => 0
  | fuel + 1, t =>
    match s.nextLink p t d with
    | none => 0
    | some l => 1 + s.pathFrom p d fuel (stepLink t l)

/-- X-then-Y distance of two sites. -/
def dist (a b : Nat) : Nat :=
  (siteX a - siteX b) + (siteX b - siteX a) + (siteY a - siteY b) + (siteY b - siteY a)

/-- More links than a path can have: without a cycle it meets each site once (R332). -/
def maxHops : Nat := 4608

/-- Mesh hops of the traffic of a partition between two sites (R332). -/
def State.pathHops (s : State) (p a b : Nat) : Nat := s.pathFrom p b maxHops a

/-- Whether the path of tag `p` to a site meets a link that is down, within `fuel` links. The last link to a hole reaches the home agent of
its channel, which stays in service (R19; DEDUCED, log 100). -/
def State.cutFrom (s : State) (p d : Nat) : Nat → Nat → Bool
  | 0, _ => false
  | fuel + 1, t =>
    match s.nextLink p t d with
    | none => false
    | some l =>
      ((s.router t).down.contains l && !(stepLink t l = d && s.site d = .hole)) || s.cutFrom p d fuel (stepLink t l)

/-- Whether traffic of a partition between two sites meets a link that is down and is dropped there (R12, R332, R333). -/
def State.cut (s : State) (p a b : Nat) : Bool := (s.routers.any fun e => !e.2.down.isEmpty) && s.cutFrom p b maxHops a

/-- A flit of a partition is dropped at a link that is down: ROUTEDROP counts it, saturating (R333). -/
def State.routeDrop (s : State) (p : Nat) : State :=
  s.modPart p fun x => { x with routedrop := if x.routedrop = BitVec.allOnes 32 then x.routedrop else x.routedrop + 1 }

/-- Whether a request of a partition between two sites, or its answer, meets a link that is down (R333). -/
def State.cutBoth (s : State) (p a b : Nat) : Bool := s.cut p a b || s.cut p b a

/-- The home of a device address: the site of its channel (R19). -/
def State.homeSite (s : State) (pa : Nat) : Nat := (s.chanSite (pa / 2 ^ 32)).getD 0

/-! ### Ports on the edge (R343) -/

/-- The sites that serve a host port, by Y (R343). -/
def hostSites (port : Nat) : List Nat :=
  let h := port - 144
  [8, 9, 12, 13].map fun d => if h < 4 then siteAt 0 (24 * h + d) else siteAt 47 (24 * (h - 4) + d)

/-- The site that serves an Etsel port (R343). -/
def etselSite (p : Nat) : Nat :=
  if p < 48 then siteAt p 0
  else if p < 96 then siteAt (p - 48) 95
  else if p < 120 then siteAt 0 (4 * (p - 96) + 3)
  else siteAt 47 (4 * (p - 120) + 3)

/-- The site by which a host port takes an address: bits [9:8] pick among those of its four that are not holes, by Y (R343). -/
def State.hostSite (s : State) (port pa : Nat) : Nat :=
  let ts := (hostSites port).filter fun t => s.site t != .hole
  ts.getD (pa / 256 % 4 % ts.length) 0

/-- The site that serves a port for an address. -/
def State.portSite (s : State) (port pa : Nat) : Nat := if port < 144 then etselSite port else s.hostSite port pa

/-! ### The page table (R188 to R190) -/

/-- An access for the checks of R190. -/
inductive Acc1 where
  | fetch | load | store | atom
deriving DecidableEq, Repr

/-- A bit of an entry. -/
def ebit (e i : Nat) : Bool := e / 2 ^ i % 2 = 1
/-- TGT of a leaf. -/
def leafTgt (e : Nat) : Nat := e / 2 ^ 48 % 16
/-- FRAME of a leaf. -/
def leafFrame (e : Nat) : Nat := e / 2 ^ 16 % 2 ^ 32
/-- RSET of a leaf, where REP is set. -/
def leafRep (e : Nat) : Option Nat := if ebit e 55 then some (e % 2 ^ 13) else none
/-- NC of a leaf. -/
def leafNc (e : Nat) : Bool := ebit e 52
/-- MIG of a leaf. -/
def leafMig (e : Nat) : Bool := ebit e 54

/-- A valid leaf of a page of `size` bytes (R190). -/
def leafOk (e size : Nat) : Bool :=
  e / 2 ^ 60 % 4 = 0 && e / 2 ^ 13 % 8 = 0 && !(ebit e 58 && ebit e 57) && leafTgt e ≤ 2
    && !(ebit e 56 && leafTgt e = 1) && !(ebit e 55 && leafTgt e != 0) && leafFrame e * 65536 % size = 0

/-- The levels of the table: lowest VA bit of the index, its width, and the size of a leaf's page, 0
where no leaf is allowed (R188). -/
def levels : List (Nat × Nat × Nat) := [(42, 14, 0), (29, 13, 2 ^ 29), (21, 8, 2 ^ 21), (16, 5, 2 ^ 16)]

/-- Whether the frame of a physical address belongs to the partition of a tag (R356). -/
def State.owns (s : State) (tag pa : Nat) : Bool := smGet 0 s.owner (pa / 65536) = tag + 1

/-- Counts a dropped request or flit (R331, R356), saturating. -/
def State.tagDrop (s : State) (p : Nat) : State :=
  s.modPart p fun x => { x with tagdrop := if x.tagdrop = BitVec.allOnes 32 then x.tagdrop else x.tagdrop + 1 }

/-- An access of a context ends with an error (R200, R201). -/
def State.hostErr (s : State) (c : Nat) : State := (s.ctxCount c 3 1).ctxEvent c 4

/-- How a walk ends: at a leaf with its page's first byte and size, at an entry whose read is dropped, or without a leaf. -/
inductive Walked where
  | leaf (e base size : Nat)
  | dropped (a : Nat)
  | none

/-- The leaf of a walk. -/
def Walked.leaf? : Walked → Option (Nat × Nat × Nat)
  | .leaf e base size => some (e, base, size)
  | _ => Option.none

/-- The walk from a table at physical address `t`, whose entries `rd` reads: those that are dropped on the way or at their home give
none. -/
def walkFrom (rd : Nat → Option Nat) (va : Nat) : List (Nat × Nat × Nat) → Nat → Walked
  | [], _ => .none
  | (sh, nb, size) :: r, t =>
    match rd (t + 8 * (va / 2 ^ sh % 2 ^ nb)) with
    | Option.none => .dropped (t + 8 * (va / 2 ^ sh % 2 ^ nb))
    | some e =>
      if !ebit e 63 then .none
      else if ebit e 62 then
        if size != 0 && leafOk e size then .leaf e (va / size * size) size else .none
      else if r.isEmpty || e / 2 ^ 48 % 2 ^ 14 != 0 || e % 2 ^ 8 != 0 then .none
      else walkFrom rd va r (e / 2 ^ 8 % 2 ^ 40 * 2 ^ 8)

/-- An entry of a table as its home agent gives it to a partition (R356). -/
def State.tableAt (s : State) (p a : Nat) : Option Nat := if s.owns p a then some (memLoad s.mem a 8) else none

/-- The walk of a partition's table as Roith and firmware make it. -/
def State.walk (s : State) (p va : Nat) : Option (Nat × Nat × Nat) := (walkFrom (s.tableAt p) va levels (s.part p).root).leaf?

/-- The walk of a partition's table by the walker of a tile, whose reads may be lost on the mesh (R191, R333). -/
def State.walkAt (s : State) (t p va : Nat) : Walked :=
  walkFrom (fun a => if s.cutBoth p t (s.homeSite a) then none else s.tableAt p a) va levels (s.part p).root

/-- A translation: the leaf, the physical address, and the page. -/
structure Xlate where
  leaf : Nat
  pa   : Nat
  base : Nat
  size : Nat
deriving DecidableEq, Repr

/-- The physical address of `va` under a leaf. -/
def leafPa (e size va : Nat) : Nat := leafFrame e * 65536 + va % size

/-- The TLB entry of a site that translates an address. -/
def State.tlbFind (s : State) (t p va : Nat) : Option TlbEnt :=
  (s.tile t).tlb.find? fun x => x.part = p && x.base ≤ va && va < x.base + x.size

/-- Takes a leaf into a TLB; a full TLB drops the entry it took first (log 20). -/
def State.tlbAdd (s : State) (t : Nat) (x : TlbEnt) : State :=
  s.modTile t fun c => { c with tlb := x :: (if c.tlb.length < 4096 then c.tlb else c.tlb.dropLast) }

/-- The pages of addresses for which a group `k`, or a copy under the name of its accesses, has to wait at a tile: its TLB has no entry, and
the walker has not answered (R191). -/
def State.missingAt (s : State) (t k p : Nat) (vas : List Nat) : List Nat :=
  ((vas.filter fun va => va < 2 ^ 56 && (s.tlbFind t p va).isNone).map (· / 65536)).eraseDups.filter fun n =>
    !(s.tile t).walks.any fun m => m.k = k && m.part = p && m.page = n && m.none

/-- The pages for which a group has to wait. -/
def State.missing (s : State) (k p : Nat) (vas : List Nat) : List Nat := s.missingAt (siteOf k) k p vas

/-- Outstanding misses of a core (R191). -/
def State.missesOf (s : State) (core : Nat) : Nat := (s.tile (core / 4)).walks.countP fun m => coreOf m.k = core && !m.none

/-- Misses go to the walker of a tile, those that have not been sent yet. -/
def State.askWalksAt (s : State) (t k p : Nat) (ns : List Nat) : State :=
  s.modTile t fun c => { c with
    walks := c.walks ++ (ns.filter fun n => !c.walks.any fun m => m.k = k && m.part = p && m.page = n).map fun n => { k, part := p, page := n } }

/-- The misses of a group go to the walker of its tile. -/
def State.askWalks (s : State) (k p : Nat) (ns : List Nat) : State := s.askWalksAt (siteOf k) k p ns

/-- What the walker of a tile answered to a group or copy is used up. -/
def State.endWalksAt (s : State) (t k : Nat) : State :=
  s.modTile t fun c => { c with walks := c.walks.filter fun m => m.k != k }

/-- What the walker answered to a group is used up. -/
def State.endWalks (s : State) (k : Nat) : State := s.endWalksAt (siteOf k) k

/-- An access to addresses of the group's partition: its misses are walked first, and an access with which its core would
have more than 64 of them is held (R86, R191). -/
def withWalks (env : Env) (s : State) (vas : List Nat) (body : State → Out) : Out :=
  let p := (s.ctx (s.grp env.k).ctx).part
  match s.missing env.k p vas with
  | [] => body (if (s.tile (siteOf env.k)).walks.any fun m => m.k = env.k then s.endWalks env.k else s)
  | ns =>
    let s' := s.askWalks env.k p ns
    if 64 < s'.missesOf (coreOf env.k) then .hold .access else .wait .access s'

/-- Translation at a tile: the TLB's entry if it holds one, and otherwise the table as it stands, whose
leaf the TLB then takes (R191). -/
def State.xlate (s : State) (t p va : Nat) : State × Option Xlate :=
  match s.tlbFind t p va with
  | some x => (s, some { leaf := x.leaf.toNat, pa := leafPa x.leaf.toNat x.size va, base := x.base, size := x.size })
  | none =>
    match s.walkAt t p va with
    | .leaf e base size =>
      (s.tlbAdd t { part := p, base, size, leaf := BitVec.ofNat 64 e }, some { leaf := e, pa := leafPa e size va, base, size })
    | _ => (s, none)

/-- The permission check of R190: none when the access is permitted, else its cause. -/
def leafFault (e : Nat) : Acc1 → Option Nat
  | .fetch => if ebit e 57 then none else some causePerm
  | .load => if ebit e 59 then none else some causePerm
  | .store => if ebit e 58 then none else if ebit e 57 then some causeExec else some causePerm
  | .atom => if ebit e 59 && ebit e 58 && ebit e 56 then none else if ebit e 57 then some causeExec else some causePerm

/-- Translation and check of a global access: bits [63:56] (R185), then R190. -/
def State.globalCheck (s : State) (t p : Nat) (va : Word) (a : Acc1) : State × Except Nat Xlate :=
  if va.toNat / 2 ^ 56 != 0 then (s, .error causePerm)
  else
    match s.xlate t p va.toNat with
    | (s, none) => (s, .error causeMiss)
    | (s, some x) =>
      match leafFault x.leaf a with
      | some c => (s, .error c)
      | none => (s, .ok x)

end Sys2Proof.Machine
end

