-- ==== Sys2Proof/Machine/Memory.lean ====
section
/-!
DEFINITION. Memory as its homes hold it: words with poison and bit errors (R198, R199), the home agent
with its access firewall and L2 (R195 to R197, R214, R356), replicated pages (R202), the L1 of a core
(R194, R197, R220), scratchpad windows (R186) and releases (R222).
-/

namespace Sys2Proof.Machine

/-! ### Bytes with poison (R198, R199) -/

/-- The memories that hold 64-bit words under SECDED (R198); L1, L2 and the register files hold theirs with their lines and
registers. -/
inductive Store where
  | hbm | spad | bank
deriving DecidableEq, Repr

/-- Number of a store in the keys of `ecc`. -/
def Store.num : Store → Nat
  | .hbm => 0
  | .spad => 1
  | .bank => 2

/-- A byte to write: its address, its value, and whether the register or word it comes from is poisoned. -/
abbrev WByte := Nat × Byte × Bool

/-- The bytes of a store. -/
def State.bytesOf (s : State) : Store → Memory
  | .hbm => s.mem
  | .spad => s.spad
  | .bank => s.bank

/-- The poisoned words of a store. -/
def State.poiOf (s : State) : Store → SMap Bool
  | .hbm => s.mpoi
  | .spad => s.spoi
  | .bank => s.bpoi

/-- Replaces the bytes and the poison of a store. -/
def State.setStore (s : State) (x : Store) (m : Memory) (p : SMap Bool) : State :=
  match x with
  | .hbm => { s with mem := m, mpoi := p }
  | .spad => { s with spad := m, spoi := p }
  | .bank => { s with bank := m, bpoi := p }

/-- A word is read on behalf of context `c`: a single-bit error is corrected and counted, a double-bit
error poisons the word and is counted (R198). -/
def State.eccMeet (s : State) (c : Nat) (x : Store) (w : Nat) : State :=
  let k := 2 ^ 60 * x.num + w
  match smGet 0 s.ecc k with
  | 0 => s
  | 1 => ({ s with ecc := smSet 0 s.ecc k 0 }.ctxCount c 0 1)
  | _ =>
    let s := { s with ecc := smSet 0 s.ecc k 0 }
    ((s.setStore x (s.bytesOf x) (smSet false (s.poiOf x) w true)).ctxCount c 1 1)

/-- The words that hold `n` bytes from `a`. -/
def wordsOf (a n : Nat) : List Nat := (List.range (if n = 0 then 0 else (a + n - 1) / 8 - a / 8 + 1)).map fun i => a / 8 + i

/-- Words of an SRAM are read on behalf of context `c`, where `n1` had one wrong bit and `n2` two (R198). -/
def State.eccCount (s : State) (c n1 n2 : Nat) : State := (s.ctxCount c 0 n1).ctxCount c 1 n2

/-- A register whose word is read: an error of one bit is corrected, one of two poisons it (R198). -/
def Reg.met (r : Reg) : Reg := if r.err = 0 then r else { r with err := 0, poi := if r.err = 1 then r.poi else 0xFF }

/-- Registers of a group are read in the lanes of a mask: how many of their words had one wrong bit, and how many two (R198). -/
def Group.met (g : Group) (rs : List RegId) (m : LaneMask) : Group × Nat × Nat :=
  rs.foldl (fun r x =>
    let words : List Reg := match x with
      | .v n => (laneList m).map fun l => r.1.rdV n l
      | .s n => [r.1.rdS n]
      | .p _ | .sr _ => []
    if words.all fun w => w.err = 0 then r
    else
      (match x with
        | .v n => r.1.wrV n m fun l => (r.1.rdV n l).met
        | .s n => r.1.wrS n (r.1.rdS n).met
        | .p _ | .sr _ => r.1,
       r.2.1 + words.countP fun w => w.err = 1, r.2.2 + words.countP fun w => w.err != 0 && w.err != 1)) (g, 0, 0)

/-- Registers of a group are read (R198). -/
def State.meetRegs (s : State) (k : Nat) (rs : List RegId) (m : LaneMask) : State :=
  let g := s.grp k
  let r := g.met rs m
  if r.2 = (0, 0) then s else (s.setGrp k r.1).eccCount g.ctx r.2.1 r.2.2

/-- The whole register file of a group is read: for an image, or through the state window (R101, R198). -/
def State.meetAll (s : State) (k : Nat) : State :=
  s.meetRegs k (((List.range (s.grp k).regs).map .v) ++ (List.range 64).map .s) allLanes

/-- The bytes at `a` and, for each, whether its word is poisoned. -/
def State.rdStore (s : State) (c : Nat) (x : Store) (a n : Nat) : State × List Byte × List Bool :=
  let s := (wordsOf a n).foldl (fun s w => s.eccMeet c x w) s
  (s, memRead (s.bytesOf x) a n, (List.range n).map fun i => smGet false (s.poiOf x) ((a + i) / 8))

/-- Poison of the words that a list of bytes writes: a poisoned source poisons, eight bytes without poison
clear, and a narrower store leaves it (R198, R199). -/
def poiAfter (p : SMap Bool) (bs : List WByte) : SMap Bool :=
  ((bs.map fun b => b.1 / 8).eraseDups).foldl (fun p w =>
    let here := bs.filter fun b => b.1 / 8 = w
    if here.any fun b => b.2.2 then smSet false p w true
    else if 8 ≤ here.length then smSet false p w false
    else p) p

/-- Puts bytes into a store and updates the poison of their words. -/
def State.putBytes (s : State) (x : Store) (bs : List WByte) : State :=
  s.setStore x (bs.foldl (fun m b => memSet m b.1 b.2.1) (s.bytesOf x)) (poiAfter (s.poiOf x) bs)

/-- Writes bytes and updates the poison of their words. A word not written whole is read first. -/
def State.wrStore (s : State) (c : Nat) (x : Store) (bs : List WByte) : State :=
  (((bs.map fun b => b.1 / 8).eraseDups).foldl (fun s w =>
    if 8 ≤ bs.countP fun b => b.1 / 8 = w then { s with ecc := smSet 0 s.ecc (2 ^ 60 * x.num + w) 0 }
    else s.eccMeet c x w) s).putBytes x bs

/-- Bytes with their poison at ascending addresses from `a`. -/
def wbytes (a : Nat) : List Byte → List Bool → List WByte
  | [], _ => []
  | b :: bs, ps => (a, b, ps.headD false) :: wbytes (a + 1) bs ps.tail

/-! ### Replacement (R197) -/

/-- The access hash of R197. -/
def accessHash (va : Nat) : Nat :=
  va / 2 ^ 8 % 256 ^^^ va / 2 ^ 16 % 256 ^^^ va / 2 ^ 24 % 256 ^^^ va / 2 ^ 32 % 256 ^^^ va / 2 ^ 40 % 256
    ^^^ va / 2 ^ 48 % 256

/-- The class of an access under a policy operand: 0 normal, 1 evict-last, 2 evict-first. -/
def policyClass (pol : Word) (va : Nat) : Nat :=
  let h := accessHash va
  let t2 := bits pol 8 8
  if h < bits pol 0 8 then 1 else if (if t2 = 0 then 256 else t2) ≤ h then 2 else 0

/-- Order in which victims are taken: evict-first, normal, evict-last. -/
def classRank (c : Nat) : Nat := if c = 2 then 0 else if c = 0 then 1 else 2

/-- The victim among lines given as key, class and time of last use; of lines of one class used last in one FCLK the one of the lower key
(R197 does not say; DESIGN CHOICE, log 101). -/
def pickVictim (ls : List (Nat × Nat × Word)) : Option Nat :=
  (ls.foldl (fun (b : Option (Nat × Nat × Word)) x =>
    match b with
    | none => some x
    | some y =>
      if classRank x.2.1 < classRank y.2.1 || (classRank x.2.1 = classRank y.2.1 && x.2.2.toNat < y.2.2.toNat)
      then some x else some y) none).map Prod.fst

/-! ### The home agent and its L2 (R195, R356) -/

/-- The L2 set of a line: the keys of its lines. -/
def State.l2Set (s : State) (ln : Nat) : List (Nat × L2Line) :=
  s.l2.filter fun e => e.1 / 2 ^ 24 = ln / 2 ^ 24 && e.1 % 4096 = ln % 4096

/-- The words of a mask of an L2 line are read on behalf of context `c`: errors that they have in the slice are met (R198). -/
def State.l2Meet (s : State) (c ln : Nat) (m : BitVec 32) : State :=
  let x := smGet {} s.l2 ln
  let e1 := x.err1 &&& m
  let e2 := x.err2 &&& m
  if e1 = 0 && e2 = 0 then s
  else
    let ws (e : BitVec 32) : List Nat := (List.range 32).filter fun i => e.getLsbD i
    let s := { s with l2 := smSet {} s.l2 ln { x with err1 := x.err1 &&& ~~~m, err2 := x.err2 &&& ~~~m } }
    ({ s with mpoi := (ws e2).foldl (fun p i => smSet false p (32 * ln + i) true) s.mpoi } : State).eccCount c (ws e1).length (ws e2).length

/-- The words of the sectors of a mask. -/
def sectorWords (sec : BitVec 4) : BitVec 32 := BitVec.ofFnLE fun i : Fin 32 => sec.getLsbD (i / 8)

/-- The dirty sectors of an L2 line go to HBM, read on behalf of context `c`; they stay valid and clean, and what was wrong in the words of
HBM is written over (R195, R198). -/
def State.l2Clean (s : State) (c ln : Nat) : State :=
  let d := (smGet {} s.l2 ln).dirty
  if d = 0 then s
  else
    let s := s.l2Meet c ln (sectorWords d)
    { s with
      l2 := smMod {} s.l2 ln fun x => { x with dirty := 0 }
      ecc := s.ecc.filter fun e => !(e.1 / 32 = ln && (sectorWords d).getLsbD (e.1 % 32)) }

/-- Room for a line in its L2 set on behalf of context `c`, over a victim that is not pinned where the set is full (R197, R214). -/
def State.l2Make (s : State) (c ln : Nat) : State :=
  let set := s.l2Set ln
  if set.any (fun e => e.1 = ln) || set.length < 4 then s
  else
    match pickVictim ((set.filter fun e => e.2.pin.isNone).map fun e => (e.1, e.2.cls, e.2.use)) with
    | some v => let s := s.l2Clean c v
                { s with l2 := smSet {} s.l2 v {} }
    | none => s

/-- The words of `n` bytes from `pa` within its L2 line. -/
def lineWords (pa n : Nat) : BitVec 32 := BitVec.ofFnLE fun i : Fin 32 => decide (pa / 8 % 32 ≤ i.val ∧ i.val ≤ (pa + n - 1) / 8 - pa / 256 * 32)

/-- The sectors of its line that an access to `n` bytes has to fetch from HBM: those not valid, but for those that a write fills
(R195). -/
def State.fetchSectors (s : State) (pa n : Nat) (wr : Bool) : BitVec 4 :=
  let a := pa % 256
  let x := smGet {} s.l2 (pa / 256)
  BitVec.ofFnLE fun i : Fin 4 => !x.valid.getLsbD i && decide (64 * i.val < a + n ∧ a < 64 * i.val + 64)
    && !(wr && decide (a ≤ 64 * i.val ∧ 64 * i.val + 64 ≤ a + n))

/-- The words of those sectors are read from HBM (R195, R198). -/
def State.l2Fetch (s : State) (c pa n : Nat) (wr : Bool) : State :=
  let m := sectorWords (s.fetchSectors pa n wr)
  ((List.range 32).filter fun i => m.getLsbD i).foldl (fun s i => s.eccMeet c .hbm (pa / 256 * 32 + i)) s

/-- An access to `n` bytes of one line through the L2 slice of its channel: its sectors become valid, dirty
for a write, and the line takes the access's class (R195, R197). A read meets the errors of its words in the slice, and a
write that does not fill its word first reads it (R198). -/
def State.l2Touch (s : State) (c pa n cls : Nat) (wr : Bool) : State :=
  if !s.hasL2 (pa / 2 ^ 32) || n = 0 then s
  else
    let ln := pa / 256
    let sec : BitVec 4 := BitVec.ofFnLE fun i : Fin 4 => decide (pa / 64 % 4 ≤ i.val ∧ i.val ≤ (pa + n - 1) / 64 - ln * 4)
    let ws := lineWords pa n
    let whole : BitVec 32 := if wr then BitVec.ofFnLE fun i : Fin 32 => decide (pa ≤ 256 * ln + 8 * i.val ∧ 256 * ln + 8 * i.val + 8 ≤ pa + n) else 0
    let s := (s.l2Make c ln).l2Meet c ln (ws &&& ~~~whole)
    { s with l2 := smMod {} s.l2 ln fun old => { old with
        valid := old.valid ||| sec, dirty := if wr then old.dirty ||| sec else old.dirty
        err1 := old.err1 &&& ~~~whole, err2 := old.err2 &&& ~~~whole, cls, use := s.time } }

/-- A device write to lines that the host caches sends a back-invalidate and completes it first (R351). -/
def State.hostInval (s : State) (pas : List Nat) : State :=
  ((pas.map (· / 64)).eraseDups).foldl (fun s ln =>
    if s.hostLines.contains ln then ({ s with hostLines := s.hostLines.filter (· != ln) }).emit (.backInvalidate (ln * 64))
    else s) s

/-- Whether the frames of a partition are being written to an export stream (R365). -/
def Part.streams (x : Part) : Bool := x.st = .precopying || ((x.st = .quiescing || x.st = .migratingOut) && x.exporting)

/-- Lines of device memory have been stored to: those of a partition whose frames go to an export stream are to be carried again
(R365). -/
def State.noteLines (s : State) (lns : List Nat) : State :=
  if !(s.parts.any fun e => e.2.streams) then s
  else
    lns.foldl (fun s ln =>
      match smGet 0 s.owner (ln / 1024) with
      | 0 => s
      | p + 1 => if (s.part p).streams then s.modPart p fun x => { x with resend := if x.resend.contains ln then x.resend else x.resend ++ [ln] } else s) s

/-- The lines of a frame. -/
def frameLines (f : Nat) : List Nat := (List.range 1024).map fun i => 1024 * f + i

/-- A read at the home for the partition of a tag; none when the firewall drops it. -/
def State.homeRd (s : State) (tag c pa n cls : Nat) : State × Option (List Byte × List Bool) :=
  if s.owns tag pa then
    if s.hasL2 (pa / 2 ^ 32) then
      let s := (s.l2Fetch c pa n false).l2Touch c pa n cls false
      (s, some (memRead s.mem pa n, (List.range n).map fun i => smGet false s.mpoi ((pa + i) / 8)))
    else
      let r := s.rdStore c .hbm pa n
      (r.1, some r.2)
  else (s.tagDrop tag, none)

/-- Bytes at ascending addresses as runs without a gap. -/
def byteRuns (bs : List WByte) : List (List WByte) :=
  bs.foldr (fun b rs =>
    match rs with
    | (c :: r) :: q => if b.1 + 1 = c.1 then (b :: c :: r) :: q else [b] :: (c :: r) :: q
    | _ => [[b]]) []

/-- A run of bytes is written through the L2 slice of its channel. -/
def State.runTouch (s : State) (c cls : Nat) (r : List WByte) : State :=
  match r with
  | [] => s
  | b :: _ => (s.l2Fetch c b.1 r.length true).l2Touch c b.1 r.length cls true

/-- Bytes within one line are written at their channel for context `c`: through the L2 slice where it has one, whose valid sectors stand
for the words of HBM, which a write there does not meet (R195, R198). -/
def State.chanWr (s : State) (c : Nat) (bs : List WByte) (cls : Nat) : State :=
  match bs with
  | [] => s
  | b :: _ =>
    (if s.hasL2 (b.1 / 2 ^ 32) then ((byteRuns bs).foldl (fun s r => s.runTouch c cls r) s).putBytes .hbm bs
     else s.wrStore c .hbm bs).noteLines [b.1 / 64]

/-- A write at the home of bytes within one line, and whether the firewall let it pass; `inval` that it is a device write, before which a
line that the host caches is back-invalidated (R351). -/
def State.homePut (s : State) (inval : Bool) (tag c : Nat) (bs : List WByte) (cls : Nat) : State × Bool :=
  match bs with
  | [] => (s, true)
  | b :: _ =>
    if s.owns tag b.1 then ((if inval then s.hostInval (bs.map Prod.fst) else s).chanWr c bs cls, true)
    else (s.tagDrop tag, false)

/-- A device write at the home of bytes within one line. -/
def State.homeWr (s : State) (tag c : Nat) (bs : List WByte) (cls : Nat) : State × Bool := s.homePut true tag c bs cls

/-- A write at the home of bytes in any number of lines. -/
def State.homePutAll (s : State) (inval : Bool) (tag c : Nat) (bs : List WByte) (cls : Nat) : State × Bool :=
  ((bs.map fun b => b.1 / 64).eraseDups).foldl (fun (r : State × Bool) ln =>
    let x := r.1.homePut inval tag c (bs.filter fun b => b.1 / 64 = ln) cls
    (x.1, r.2 && x.2)) (s, true)

/-- A device write at the home of bytes in any number of lines. -/
def State.homeWrAll (s : State) (tag c : Nat) (bs : List WByte) (cls : Nat) : State × Bool := s.homePutAll true tag c bs cls

/-! ### Replicated pages (R202) -/

/-- The address of a replica: the frame's index in another channel (log 21). -/
def repPa (pa chan : Nat) : Nat := chan * 2 ^ 32 + pa % 2 ^ 32

/-- The channels of a replicated page, its sequencer's first. -/
def State.repChans (s : State) (p idx : Nat) : List Nat := smGet [] (s.part p).replicas idx

/-- The sequencer's copy of an address. -/
def State.seqPa (s : State) (p : Nat) (rep : Option Nat) (pa : Nat) : Nat :=
  match rep with
  | none => pa
  | some i => match s.repChans p i with
              | [] => pa
              | c :: _ => repPa pa c

/-- Key of the writes a replica has still to apply: replica `r` of the page set `idx`. -/
def repKey (p idx r : Nat) : Nat := (p * 2 ^ 13 + idx) * 8 + r

/-- The replica with the fewest mesh hops from a site, the lower channel first: its place in the list. -/
def State.nearest (s : State) (p idx site : Nat) : Nat :=
  let cs := s.repChans p idx
  let far (c : Nat) : Nat := match s.chanSite c with | some t => s.pathHops p site t | none => 1000
  ((List.range cs.length).foldl (fun (b : Option (Nat × Nat × Nat)) i =>
    let c := cs.getD i 0
    let x := (i, far c, c)
    match b with
    | none => some x
    | some y => if x.2.1 < y.2.1 || (x.2.1 = y.2.1 && x.2.2 < y.2.2) then some x else some y) none).elim 0 Prod.fst

/-- The group that makes a replicated write, under a name that moves with it (R319). -/
def State.whoOf (s : State) (team k : Nat) : Option Nat := some (32 * team + (s.grp k).gid)

/-- No core: that of a write which an engine, the save area or another party makes. -/
def noCore : Nat := 2 ^ 20

/-- The sequencer has ordered a write, made for context `c` from core `core`: every other replica has it still to apply. -/
def State.orderWr (s : State) (p : Nat) (rep : Option Nat) (op : Nat) (who : Option Nat) (c core lane : Nat) (bs : List WByte) : State :=
  match rep with
  | none => s
  | some i =>
    let cs := s.repChans p i
    (List.range cs.length).foldl (fun s r =>
      if r = 0 then s
      else
        { s with repLog := smMod [] s.repLog (repKey p i r) fun q =>
            q ++ [{ op, who, ctx := c, core, lane, bytes := bs.map fun b => (repPa b.1 (cs.getD r 0), b.2) }] }) s

/-! ### L1 (R194) -/

/-- Key of an L1 line: partition and virtual line. -/
def l1Key (p va : Nat) : Nat := p * 2 ^ 50 + va / 64

/-- `n` bits from bit `off` of a line. -/
def lineMask (off n : Nat) : BitVec 64 := (BitVec.ofNat 64 (2 ^ n - 1)) <<< off

/-- A line of a core. -/
def State.l1 (s : State) (core key : Nat) : L1Line := smGet {} (s.core core).l1 key

/-- Puts a line into a core's L1. -/
def State.setL1 (s : State) (core key : Nat) (x : L1Line) : State :=
  s.modCore core fun c => { c with l1 := smSet {} c.l1 key x }

/-- The runs of set bits of a mask: first bit and length. -/
def maskRuns (m : BitVec 64) : List (Nat × Nat) :=
  ((List.range 64).foldl (fun (r : List (Nat × Nat)) i =>
    if m.getLsbD i then
      match r with
      | (a, n) :: q => if a + n = i then (a, n + 1) :: q else (i, 1) :: r
      | [] => [(i, 1)]
    else r) []).reverse

/-- Bytes of a line at a physical line address that a mask selects. -/
def lineBytes (x : L1Line) (pa : Nat) (m : BitVec 64) : List WByte :=
  ((List.range 64).filter fun i => m.getLsbD i).map fun i => (pa + i, smGet 0 x.data i, x.poi.getLsbD (i / 8))

/-- The words of a mask of an L1 line are read on behalf of context `c`: a single-bit error is corrected, a double-bit error
poisons the word (R198). -/
def State.l1Meet (s : State) (c core key : Nat) (m : Byte) : State :=
  let x := s.l1 core key
  let e1 := x.err1 &&& m
  let e2 := x.err2 &&& m
  if e1 = 0 && e2 = 0 then s
  else
    let n (e : Byte) : Nat := (List.range 8).countP fun i => e.getLsbD i
    (s.setL1 core key { x with err1 := x.err1 &&& ~~~m, err2 := x.err2 &&& ~~~m, poi := x.poi ||| e2 }).eccCount c (n e1) (n e2)

/-- The words of a line that a mask of its bytes touches. -/
def wordsIn (m : BitVec 64) : Byte := BitVec.ofFnLE fun w : Fin 8 => lineMask (8 * w) 8 &&& m != 0

/-- Where a line's page stands now: the tile's translation, or what the line recorded: TGT, physical line
address, whether the page is migrating, and its replica index. -/
def State.lineHome (s : State) (core key : Nat) (x : L1Line) : Nat × Nat × Bool × Option Nat :=
  let va := key % 2 ^ 50 * 64
  let p := key / 2 ^ 50
  match s.tlbFind (core / 4) p va with
  | some t => (leafTgt t.leaf.toNat, leafPa t.leaf.toNat t.size va, leafMig t.leaf.toNat, leafRep t.leaf.toNat)
  | none =>
    match s.walk p va with
    | some (e, _, size) => (leafTgt e, leafPa e size va, leafMig e, leafRep e)
    | none => (x.tgt, x.pa, false, none)

/-- A write-back in flight to a port, or held at a migrating page, belongs to no group: its `k`. -/
def wbackOwner (core : Nat) : Nat := 2 ^ 40 + core

/-- Writes of a core that are on their way. -/
def State.sendWb (s : State) (core p c : Nat) (lanes : List LaneOp) : State :=
  { s with
    ops := s.ops ++ [{ id := s.nextId, k := wbackOwner core, kind := .wback, part := p, team := c, lanes, time := s.time }],
    nextId := s.nextId + 1 }

/-- The core of an operation. -/
def Op.core (o : Op) : Nat := if wbackOwner 0 ≤ o.k then (o.k - wbackOwner 0) % 2 ^ 20 else coreOf o.k
/-- Whether the lane's access is still to be performed. -/
def LaneOp.open (x : LaneOp) : Bool := x.phase != .performed && x.phase != .done

/-- Whether a store at the home that has left a core and is not performed yet writes bytes of a mask of a line: what the core writes to
them next stays behind it, and the line is not filled before it (R206, R208, R221). -/
def State.leftIn (s : State) (core key : Nat) (m : BitVec 64) : Bool :=
  s.ops.any fun o => o.kind = .st && o.core = core && o.lanes.any fun x =>
    x.left && x.open && l1Key o.part x.ea.toNat = key && lineMask (x.ea.toNat % 64) x.data.length &&& m != 0

/-- Writes back the dirty bytes of a line, which stay valid and clean (R194): performed at the home, through the sequencer where
the page has become a replicated one (R202), or in flight to a port, held at a migrating page, or behind a store of the core. A request or
its answer that meets a link that is down is lost (R333), and what the firewall drops ends with an error (R201, R356). -/
def State.lineWb (s : State) (core key : Nat) : State :=
  let s := s.l1Meet (s.l1 core key).ctx core key (wordsIn (s.l1 core key).dirty)
  let x := s.l1 core key
  if x.dirty = 0 then s
  else
    let p := key / 2 ^ 50
    let (tgt, pa, mig, rep) := s.lineHome core key x
    let s := s.setL1 core key { x with dirty := 0 }
    let home := s.homeSite (s.seqPa p rep pa)
    let send (s : State) (ph : Phase) : State :=
      s.sendWb core p x.ctx ((maskRuns x.dirty).zipIdx.map fun r =>
        let bs := lineBytes x pa (lineMask r.1.1 r.1.2)
        { lane := r.2, ea := BitVec.ofNat 64 (key % 2 ^ 50 * 64 + r.1.1), pa := pa + r.1.1, tgt, rep,
          data := bs.map fun b => b.2.1, poi := bs.map fun b => b.2.2, phase := ph, held := s.nextId : LaneOp })
    if tgt != 0 then send s (if mig then .migrating else .waiting)
    else if s.cut p (core / 4) home then send (s.routeDrop p) .lost
    else if mig then send s .migrating
    else if s.leftIn core key x.dirty then send s .waiting
    else
      let bs := lineBytes x (s.seqPa p rep pa) x.dirty
      match s.homeWr p x.ctx bs x.cls with
      | (s, true) =>
        let s := if rep.isSome then { (s.orderWr p rep s.nextId none x.ctx core 0 bs) with nextId := s.nextId + 1 } else s
        if s.cut p home (core / 4) then send (s.routeDrop p) .lost else s
      | (s, false) => s.hostErr x.ctx
/-- Fills on their way from a peer no longer complete these lines of a core, as their bytes may be older than what left L1: each
lane takes its own bytes of the answer (R206, R222). -/
def State.unfill (s : State) (core : Nat) (hit : Nat → Bool) : State :=
  { s with ops := s.ops.map fun o =>
      if o.core = core then
        { o with lanes := o.lanes.map fun x => if x.phase = .sent && hit (l1Key o.part x.ea.toNat) then { x with l1 := false } else x }
      else o }

/-- Whether bytes of a line are on their way from a core to their home, so that a fill would bring older ones. -/
def State.lineLeaving (s : State) (core key : Nat) : Bool :=
  (s.ops.any fun o => o.kind = .wback && o.k = wbackOwner core && o.lanes.any fun x => x.open && l1Key o.part x.ea.toNat = key)
    || s.leftIn core key (BitVec.allOnes 64)

/-- A line leaves L1; its dirty bytes are written back (R194). -/
def State.l1Evict (s : State) (core key : Nat) : State := ((s.lineWb core key).unfill core (· = key)).setL1 core key {}

/-- The line is in L1, over a victim where its set of 8 is full; a victim's dirty bytes are written back. -/
def State.l1Make (s : State) (core key : Nat) : State :=
  let c := s.core core
  let set := c.l1.filter fun e => e.1 % 512 = key % 512
  if set.any (fun e => e.1 = key) || set.length < 8 then s
  else
    match pickVictim (set.map fun e => (e.1, e.2.cls, e.2.use)) with
    | some v => s.l1Evict core v
    | none => s

/-- A fill: the bytes that are not valid take the home's (R194). -/
def L1Line.fill (x : L1Line) (bs : List Byte) (ps : List Bool) : L1Line :=
  { x with
    valid := BitVec.allOnes 64,
    data := (List.range 64).foldl (fun d i => if x.valid.getLsbD i then d else smSet 0 d i (bs.getD i 0)) x.data,
    poi := BitVec.ofFnLE fun w : Fin 8 =>
      x.poi.getLsbD w || ((List.range 8).any fun j => !x.valid.getLsbD (8 * w + j) && ps.getD (8 * w + j) false) }

/-- The marks of stale bytes after bytes of a mask are written in L1, or have left it. -/
def L1Line.unstale (x : L1Line) (m : BitVec 64) : List (Nat × Nat × BitVec 64) :=
  (x.stale.map fun e => (e.1, e.2.1, e.2.2 &&& ~~~m)).filter fun e => e.2.2 != 0

/-- A store of bytes at offset `off`: valid, and dirty or clean. -/
def L1Line.store (x : L1Line) (off : Nat) (bs : List Byte) (ps : List Bool) (clean : Bool) : L1Line :=
  let w := wbytes off bs ps
  let m := lineMask off bs.length
  let p := poiAfter ((List.range 8).foldl (fun p i => smSet false p i (x.poi.getLsbD i)) []) w
  { x with
    valid := x.valid ||| m,
    dirty := if clean then x.dirty &&& ~~~m else x.dirty ||| m,
    data := w.foldl (fun d b => smSet 0 d b.1 b.2.1) x.data,
    poi := BitVec.ofFnLE fun i : Fin 8 => smGet false p i,
    err1 := x.err1 &&& ~~~fullWords m, err2 := x.err2 &&& ~~~fullWords m, stale := x.unstale m }
where
  /-- The words that a mask of bytes covers whole. -/
  fullWords (m : BitVec 64) : Byte := BitVec.ofFnLE fun w : Fin 8 => m &&& lineMask (8 * w) 8 = lineMask (8 * w) 8

/-- Whether `n` bytes at offset `off` are all valid. -/
def L1Line.has (x : L1Line) (off n : Nat) : Bool := x.valid &&& lineMask off n = lineMask off n

/-- The bytes of a line that a lane of a group may not read there, as it has changed them at the home since; a load of every lane (LDC)
reads for all (R206). -/
def L1Line.old (x : L1Line) (k : Nat) (lane : Option Nat) : BitVec 64 :=
  x.stale.foldl (fun m e => if e.1 = k && lane.all (· = e.2.1) then m ||| e.2.2 else m) 0

/-- Writes back the dirty bytes of the issuing core's L1 among the bytes an access at the home touches
(R206). -/
def State.l1Flush (s : State) (core p va n : Nat) : State :=
  if (s.l1 core (l1Key p va)).dirty &&& lineMask (va % 64) n != 0 then s.lineWb core (l1Key p va) else s

/-- The clean bytes that a mask selects leave L1. -/
def L1Line.drop (x : L1Line) (m : BitVec 64) : L1Line :=
  let v := x.valid &&& ~~~(m &&& ~~~x.dirty)
  if v = 0 then {}
  else
    { x with
      valid := v
      data := (List.range 64).foldl (fun d i => if v.getLsbD i then d else smSet 0 d i 0) x.data
      poi := x.poi &&& wordsIn v
      err1 := x.err1 &&& wordsIn v
      err2 := x.err2 &&& wordsIn v
      stale := x.unstale (~~~v) }

/-- The acquire action of R222: every valid clean byte of a core's L1 is invalidated. -/
def State.acquire (s : State) (core scope : Nat) : State :=
  if scope = 0 then s
  else
    (s.unfill core fun _ => true).modCore core fun c => { c with l1 := c.l1.foldl (fun m e => smSet {} m e.1 (e.2.drop (BitVec.allOnes 64))) [] }

/-! ### The scratchpad (R186) -/

/-- Physical address of an offset of a team's window. -/
def Team.spadAddr (t : Team) (off : Nat) : Nat := 2 ^ 23 * t.site + t.wbase + off

/-- A write into a team's window; each 64-byte line remembers the context that wrote it last. -/
def State.spadWr (s : State) (tk : Nat) (off : Nat) (bs : List Byte) (ps : List Bool) : State :=
  let t := s.team tk
  let w := wbytes (t.spadAddr off) bs ps
  { (s.wrStore t.ctx .spad w) with
    sown := ((w.map fun b => b.1 / 64).eraseDups).foldl (fun m l => smSet 0 m l (t.ctx + 1)) s.sown }

/-- A read from a team's window. -/
def State.spadRd (s : State) (tk : Nat) (off n : Nat) : State × List Byte × List Bool :=
  s.rdStore (s.team tk).ctx .spad ((s.team tk).spadAddr off) n

/-- Bytes of the physical memory of a list set to zero and clean. -/
def zeroBytes (s : State) (x : Store) (a n : Nat) : State :=
  { (s.setStore x ((s.bytesOf x).filter fun e => !(a ≤ e.1 && e.1 < a + n))
      ((s.poiOf x).filter fun e => !(a ≤ 8 * e.1 && 8 * e.1 < a + n))) with
    ecc := s.ecc.filter fun e => !(2 ^ 60 * x.num + a / 8 ≤ e.1 && e.1 < 2 ^ 60 * x.num + (a + n) / 8) }

/-- A frame of device memory is zeroed; an export under way carries it again (R365). -/
def State.zeroFrame (s : State) (f : Nat) : State := (zeroBytes s .hbm (f * 65536) 65536).noteLines (frameLines f)

/-- The window of a new team: zero where the kernel asks for it, and zero where another context wrote last
(R186). -/
def State.openWindow (s : State) (tk : Nat) (zero : Bool) : State :=
  let t := s.team tk
  let a := 2 ^ 23 * t.site + t.wbase
  (List.range (t.wsize / 64)).foldl (fun s i =>
    let l := a / 64 + i
    let o := smGet 0 s.sown l
    if zero || (o != 0 && o != t.ctx + 1) then
      { zeroBytes s .spad (64 * l) 64 with sown := smSet 0 s.sown l 0 }
    else s) s

/-! ### Bank memory (R187) -/

/-- Physical address of a bank offset. -/
def bankAddr (p off : Nat) : Nat := 2 ^ 32 * p + off

/-- BMSIZE of a partition in bytes. -/
def State.bmSize (s : State) (p : Nat) : Nat := (s.part p).desc.bmunits * 65536

/-! ### Free values (log 2) -/

/-- `n` free bytes. -/
def State.freeBytes (s : State) (n : Nat) : State × List Byte :=
  ({ s with freeCtr := s.freeCtr + n }, (List.range n).map fun i => (Config.freeWord (s.freeCtr + i)).truncate 8)

/-! ### Releases (R222) -/

/-- Name of a line of a core in the lists of a release. -/
def lineName (core key : Nat) : Nat := core + 2 ^ 15 * key
/-- The core of a named line. -/
def lineCore (n : Nat) : Nat := n % 2 ^ 15
/-- The key of a named line. -/
def lineKey (n : Nat) : Nat := n / 2 ^ 15

/-- Accesses of a group that are in flight, as a release covers them. -/
def State.accessesOf (s : State) (k : Nat) : List Nat :=
  (s.ops.filter fun o => o.k = k && o.kind != .alu && o.kind != .queue).map fun o => o.id

/-- Completed stores and atomics of a group to replicated pages that a replica has still to apply, and what its core has written back to
such pages (R222, R234). -/
def State.lagging (s : State) (k : Nat) : List Nat :=
  let who := s.whoOf (s.grp k).team k
  (s.repLog.flatMap fun e => (e.2.filter fun w => w.who = who || (w.who.isNone && w.core = coreOf k)).map fun w => w.op).eraseDups

/-- Write-backs of a core that are on their way. -/
def State.wbacksOf (s : State) (core : Nat) : List Nat :=
  (s.ops.filter fun o => o.kind = .wback && o.k = wbackOwner core).map fun o => o.id

/-- The lines of L1 that a group's stores in flight will make dirty. -/
def State.storeLines (s : State) (k scope : Nat) : List Nat :=
  (s.ops.filter fun o => o.k = k && o.kind = .st).flatMap fun o =>
    (o.lanes.filter fun x => x.l1 && x.open && (3 ≤ scope || x.tgt = 0)).map fun x => l1Key o.part x.ea.toNat

/-- The release side of a boundary that a group opens: what it covers, and the lines it has to write back, those that are
dirty and those that covered stores will make dirty. -/
def State.mkRel (s : State) (k scope : Nat) : Rel :=
  let core := coreOf k
  if scope = 0 then { cover := s.accessesOf k }
  else
    let dirty := ((s.core core).l1.filter fun e =>
      e.2.dirty != 0 && (3 ≤ scope || (s.lineHome core e.1 e.2).1 = 0)).map fun e => e.1
    { scope, cover := s.accessesOf k ++ s.wbacksOf core ++ s.lagging k,
      lines := ((dirty ++ s.storeLines k scope).eraseDups).map (lineName core) }

/-- Whether a release waits for an operation: for an access until it is complete, for a write-back until it is performed at its
home, at scope part accepted by its port, and at scope sys performed there. -/
def Rel.waits (r : Rel) (o : Op) : Bool :=
  r.cover.contains o.id && (o.kind != .wback || r.scope = 4
    || o.lanes.any fun x => x.open && (x.tgt = 0 || (r.scope = 3 && x.phase != .sent)))

/-- Whether the actions of a release have finished. -/
def State.relDone (s : State) (r : Rel) : Bool :=
  r.lines.isEmpty && (s.ops.all fun o => !r.waits o)
    && (r.scope = 0 || s.repLog.all fun e => e.2.all fun w => !r.cover.contains w.op)

/-- Whether a covered store has still to be performed in a line, so that the line has to be written back after it. -/
def State.relBusy (s : State) (r : Rel) (core key : Nat) : Bool :=
  s.ops.any fun o => r.cover.contains o.id && o.kind = .st && o.core = core
    && o.lanes.any fun x => x.l1 && x.open && l1Key o.part x.ea.toNat = key

/-- A line has been written back: the releases that waited for it go on, with the write-backs in flight. -/
def Rel.wrote (r : Rel) (ln : Nat) (made : List Nat) : Rel :=
  if r.lines.contains ln then
    { r with lines := r.lines.filter (· != ln), cover := r.cover ++ made.filter fun i => !r.cover.contains i }
  else r

/-- The release part of a token. -/
def Tok.toRel (t : Tok) : Rel := { scope := t.scope, cover := t.cover, lines := t.lines }
/-- A token after a change of its release. -/
def Tok.setRel (t : Tok) (r : Rel) : Tok := { t with cover := r.cover, lines := r.lines }

/-- Changes every release in the state. -/
def State.mapRels (s : State) (f : Rel → Rel) : State :=
  let s := s.groups.foldl (fun s e => s.modGrp e.1 fun g =>
    { g with tok := Vector.ofFn fun i => g.tok[i].setRel (f g.tok[i].toRel),
             arrive := g.arrive.map fun a => { a with rel := f a.rel } }) s
  let s := s.teams.foldl (fun s e => s.modTeam e.1 fun t => { t with rel := t.rel.map f }) s
  { s with ops := s.ops.map fun o => { o with rel := o.rel.map f } }

/-- The write-back of one line as releases wait for it. -/
def State.writeback (s : State) (core key : Nat) : State :=
  let made := (s.lineWb core key)
  made.mapRels fun r => if made.relBusy r core key then r
    else r.wrote (lineName core key) (made.wbacksOf core ++ (List.range (made.nextId - s.nextId)).map fun i => s.nextId + i)

end Sys2Proof.Machine
end

