-- ==== Sys2Proof/Machine/Access.lean ====
section
/-!
DEFINITION. The memory instructions at issue (R196, R199, R204 to R217): addresses and checks lane by
lane, operations in flight, PREF, CPIN and CUNPIN.
-/

namespace Sys2Proof.Machine

/-! ### Kinds and sizes -/

/-- The three address spaces of R185. -/
inductive Space where
  | global | spad | bank
deriving DecidableEq, Repr

/-- The space of an operation. -/
def OpKind.space : OpKind → Space
  | .lds | .sts | .atoms => .spad
  | .ldb | .stb | .atomb | .bred | .bvec => .bank
  | _ => .global

/-- Operations that read and write indivisibly (R216). -/
def OpKind.atomic : OpKind → Bool
  | .atom | .acas | .atoms | .atomb | .bvec => true
  | _ => false

/-- Operations that only store. -/
def OpKind.store : OpKind → Bool
  | .st | .sts | .stb | .wback => true
  | _ => false

/-- Loads. -/
def OpKind.load : OpKind → Bool
  | .ld | .lds | .ldb | .ldc | .ldp | .fill => true
  | _ => false

/-- Bytes of a size code of R204. -/
def sizeBytes (m : Nat) : Nat := 2 ^ m

/-- Element width, elements and whether FP32, of a TYPE of R215. -/
def atomType (t : Nat) : Nat × Nat × Bool :=
  match t with
  | 0 => (32, 1, false)
  | 1 => (64, 1, false)
  | 2 => (32, 1, true)
  | 3 => (32, 2, false)
  | 4 => (16, 4, false)
  | 5 => (8, 8, false)
  | _ => (32, 2, true)

/-- Bytes of an atomic's access. -/
def atomSize (t : Nat) : Nat := let x := atomType t
                                x.1 * x.2.1 / 8

/-! ### Values of atomics (R80, R216) -/

/-- One element of an atomic other than cas. -/
def atomElem (op w : Nat) (fl : Bool) (o x : Nat) : Nat :=
  let lt : Bool := if op = 4 || op = 5 then sext o w < sext x w else o < x
  match op with
  | 0 => if fl then (fp32.dotRound 0 [] [fp32.val o, fp32.val x]).1 else (o + x) % 2 ^ w
  | 1 => o &&& x
  | 2 => o ||| x
  | 3 => o ^^^ x
  | 4 => if fl then fp32.minmaxNum false o x else if lt then o else x
  | 5 => if fl then fp32.minmaxNum true o x else if lt then x else o
  | 6 => if lt then o else x
  | 7 => if lt then x else o
  | _ => x

/-- The new value of an atomic from the old one, C and C + 1 (R216). -/
def atomValue (op ty old x y : Nat) : Nat :=
  let (w, n, fl) := atomType ty
  if op = 9 then (if old = x then y else old)
  else (List.range n).foldl (fun a i =>
    a + 2 ^ (w * i) * atomElem op w fl (old / 2 ^ (w * i) % 2 ^ w) (x / 2 ^ (w * i) % 2 ^ w)) 0

/-! ### Lanes of a memory instruction (R205) -/

/-- What a memory instruction asks of each lane. `extra` counts poisoned operands beyond base and offset;
`data` and `data2` are the bytes it carries with the poison of their registers; `thruL1` says that its
policy goes through L1. -/
structure MemReq where
  kind   : OpKind
  size   : Nat
  align  : Nat
  acc    : Acc1
  disp   : Int
  extra  : LaneId → Nat := fun _ => 0
  data   : LaneId → List Byte × List Bool := fun _ => ([], [])
  data2  : LaneId → List Byte := fun _ => []
  seq    : LaneId → Word := fun _ => 0
  thruL1 : Bool := false
  pol    : Word := 0

/-- The lanes as far as they are checked: the state after their translations, the lanes that pass, the
lanes not performed for poison, the first fault, and the consumptions. -/
structure Chk where
  s     : State
  go    : List LaneOp := []
  bad   : List LaneId := []
  fault : Option (Nat × Word) := none
  cons  : Nat := 0

/-- The address of a lane and its poisoned base and offset (R205). -/
def Env.ea (env : Env) (g : Group) (disp : Int) (l : LaneId) : Word × Nat :=
  let a := g.rdS env.f.a.toNat
  let b := env.srcB g l
  (a.val + b.val + BitVec.ofInt 64 disp, (if a.bad then 1 else 0) + (if b.bad then 1 else 0))

/-- A fault is kept for the lowest lane (R99). -/
def Chk.fail (c : Chk) (cause : Nat) (a : Word) : Chk := { c with fault := c.fault.or (some (cause, a)) }

/-- The bytes a load of a lane that is not performed writes: zero, every poison bit set (R199, R201). -/
def lostVal (n : Nat) : List Byte × List Bool := (List.replicate (max 8 n) 0, List.replicate (max 8 n) true)

/-- The checks of R205 for one lane. -/
def checkLane (env : Env) (g : Group) (r : MemReq) (c : Chk) (l : LaneId) : Chk :=
  let (ea, n) := env.ea g r.disp l
  let n := n + r.extra l
  let (data, poi) := r.data l
  let lo : LaneOp := { lane := l, ea, data, poi, data2 := r.data2 l, seq := r.seq l }
  if n != 0 then
    let c := { c with cons := c.cons + n }
    if g.pt then c.fail causePoison env.pc else { c with bad := c.bad ++ [l] }
  else if ea.toNat % r.align != 0 then c.fail causeAlign ea
  else
    match r.kind.space with
    | .global =>
      match c.s.globalCheck (siteOf env.k) (c.s.ctx g.ctx).part ea r.acc with
      | (s, .error cause) => { c with s }.fail cause ea
      | (s, .ok x) =>
        let rep := leafRep x.leaf
        { c with s, go := c.go ++ [{ lo with
            pa := x.pa, tgt := leafTgt x.leaf, rep,
            l1 := r.thruL1 && !leafNc x.leaf && !(r.kind.store && rep.isSome),
            cls := policyClass r.pol ea.toNat }] }
    | .spad =>
      if (c.s.team g.team).wsize < ea.toNat + r.size then c.fail causeSpad ea
      else { c with go := c.go ++ [{ lo with pa := ea.toNat }] }
    | .bank =>
      if c.s.bmSize (c.s.ctx g.ctx).part < ea.toNat + (if r.kind = .bred then 16 else r.size) then c.fail causeBank ea
      else { c with go := c.go ++ [{ lo with pa := ea.toNat }] }

/-- The global addresses of the lanes that get as far as their translation (R191, R205). -/
def MemReq.pages (r : MemReq) (env : Env) (g : Group) (ls : List LaneId) : List Nat :=
  if r.kind.space != .global then []
  else (ls.filter fun l => (env.ea g r.disp l).2 + r.extra l = 0 && (env.ea g r.disp l).1.toNat % r.align = 0).map fun l =>
    (env.ea g r.disp l).1.toNat

/-- The checks of R205 in ascending lane order. -/
def checkLanes (env : Env) (s : State) (r : MemReq) (ls : List LaneId) : Chk :=
  ls.foldl (checkLane env (s.grp env.k) r) { s }

/-! ### Holds of the range scoreboard (R171, R209, R255) -/

/-- Whether an entry of the tile's range scoreboard holds an access of a team: a destination entry holds
every access, a source entry only those that write. -/
def State.rangeHeld (s : State) (site tk off n : Nat) (wr : Bool) : Bool :=
  (s.tile site).range.any fun e => e.team = tk && e.lo < off + n && off < e.hi && (wr || e.dest)

/-! ### Issue -/

/-- Bytes of a register that a store takes, with the register's poison over them (R199). -/
def regBytes (r : Reg) (n : Nat) : List Byte × List Bool :=
  (leBytes n r.val.toNat, List.replicate n (decide (r.poi.toNat % 2 ^ n ≠ 0)))

/-- The lanes performed and the others not performed for poison, as a mask. -/
def Chk.done (c : Chk) : LaneMask :=
  (c.go.map fun o => o.lane).foldl (fun m l => m ||| (1 <<< l)) (c.bad.foldl (fun m l => m ||| (1 <<< l.val)) 0)

/-- A store at the home updates the L1 copy when it leaves the core, clean (R208, log 76); a fill on its way no longer completes
the line, as it may bring older bytes (R206). -/
def State.l1Update (s : State) (core p : Nat) (o : LaneOp) : State :=
  let key := l1Key p o.ea.toNat
  let x := s.l1 core key
  let off := o.ea.toNat % 64
  let has : List Nat := (List.range o.data.length).filter fun i => x.valid.getLsbD (off + i)
  let s := s.unfill core (· = key)
  if has.isEmpty then s
  else
    let y := has.foldl (fun y i => y.store (off + i) [o.data.getD i 0] [o.poi.getD i false] true) x
    s.setL1 core key { y with
      poi := BitVec.ofFnLE fun w : Fin 8 =>
        if has.length = o.data.length && off ≤ 8 * w && 8 * w + 8 ≤ off + o.data.length then o.poi.getD (8 * w - off) false
        else y.poi.getLsbD w }

/-- The group chapters' end of a memory instruction: the lanes that pass are in flight; a fault traps with
the lanes done so far (R99, R205). `yield` sets the yield bits of the lanes performed (R212). -/
def memOut (env : Env) (op : Op) (c : Chk) (yield : Bool) : Out :=
  let g := c.s.grp env.k
  let done := c.done
  let s := if yield then c.s.modGrp env.k fun g => g.mapLanes done fun _ l => { l with yld := true } else c.s
  let s := s.consume env.k c.cons
  let lost := if op.wr.isEmpty then [] else
    c.bad.map fun l => { lane := l, phase := .performed, val := (lostVal op.size).1, vpoi := (lostVal op.size).2 : LaneOp }
  let op := { op with lanes := c.go ++ lost, part := (s.ctx g.ctx).part, team := g.team }
  match c.fault with
  | none => .start s op
  | some (cause, a) =>
    .trap cause a (if op.kind = .ldc then 0 else g.donemask ||| done)
      (s.launch { env with f := { env.f with sbsV := false } } op)

/-- LD, ST, LDC, LDP, LDS, STS, LDB and STB (R208 to R212). LDP ignores its policy's SCOPE, and so does LD with POLL, which acts as LDP in
every respect (R196, R212; DEDUCED, log 102). -/
def moveBody (kind : OpKind) (env : Env) (s : State) : Out :=
  let g := s.grp env.k
  let size := sizeBytes (bits env.f.md 0 3)
  let glob : Bool := kind.space = .global
  let pol := if glob then g.rdS env.f.c.toNat else {}
  let scope := bits pol.val 16 4
  let poll : Bool := kind = .ld && !pol.bad && pol.val.getLsbD 20
  let home : Bool := kind = .ldp || poll || 2 ≤ scope
  if !pol.bad && (pol.val.toNat / 2 ^ 22 != 0 || (kind != .ldp && !poll && 5 ≤ scope) || (poll && 8 < size)) then .trap causeReserved env.pc 0 s
  else
    let r : MemReq := {
      kind, size, align := size, acc := if kind.store then .store else .load, disp := env.f.disp,
      extra := fun _ => if pol.bad then 1 else 0,
      data := fun l =>
        if kind.store then
          let parts := (List.range (sizeRegs (bits env.f.md 0 3))).map fun i =>
            regBytes (g.rdV (env.f.d.toNat + i) l) (min 8 size)
          (parts.flatMap Prod.fst, parts.flatMap Prod.snd)
        else ([], []),
      thruL1 := glob && !home, pol := pol.val }
    let ls := if kind = .ldc then [lowLane env.e] else laneList env.e
    withWalks env s (r.pages env g ls) fun s =>
    let c := checkLanes env s r ls
    if kind.space = .spad && c.go.any (fun o => s.rangeHeld (siteOf env.k) g.team o.pa size kind.store) then .hold .range
    else
      memOut env { id := 0, k := 0, kind, size, wr := regWrites env.sh env.f, repl := (kind = .ld || kind = .ldc) && !poll && pol.val.getLsbD 21 }
        c (kind = .ldp || poll)

/-- ATOM, ACAS, ATOMS, ATOMB and BVEC (R215, R216) with their orders (R229). -/
def atomBody (kind : OpKind) (env : Env) (s : State) : Out :=
  let g := s.grp env.k
  let f := env.f
  let size := atomSize f.atype
  let (w, n, _) := atomType f.atype
  let bad (r : Reg) : Nat := (List.range n).countP fun i => elemBad r w i
  let r : MemReq := {
    kind, size, align := size, acc := .atom, disp := f.adisp,
    extra := fun l => bad (g.rdV f.c.toNat l) + (if f.aop = 9 then bad (g.rdV (f.c.toNat + 1) l) else 0),
    data := fun l => (leBytes size (g.rdV f.c.toNat l).val.toNat, []),
    data2 := fun l => if f.aop = 9 then leBytes size (g.rdV (f.c.toNat + 1) l).val.toNat else [] }
  withWalks env s (r.pages env g (laneList env.e)) fun s =>
  let c := checkLanes env s r (laneList env.e)
  if kind.space = .spad && c.go.any (fun o => s.rangeHeld (siteOf env.k) g.team o.pa size true) then .hold .range
  else
    memOut env { id := 0, k := 0, kind, size, wr := regWrites env.sh f,
                 rel := if f.md.getLsbD 1 then some (s.mkRel env.k f.ascope) else none,
                 acq := if f.md.getLsbD 0 then some f.ascope else none } c false

/-- BRED (R217). -/
def bredBody (env : Env) (s : State) : Out :=
  let g := s.grp env.k
  let f := env.f
  let size := atomSize f.atype
  let r : MemReq := {
    kind := .bred, size, align := 16, acc := .atom, disp := f.adisp,
    extra := fun l => (if (g.rdV f.d.toNat l).bad then 1 else 0) + (if elemBad (g.rdV f.c.toNat l) (8 * size) 0 then 1 else 0),
    data := fun l => (leBytes size (g.rdV f.c.toNat l).val.toNat, []),
    seq := fun l => (g.rdV f.d.toNat l).val }
  memOut env { id := 0, k := 0, kind := .bred, size,
               rel := if f.md.getLsbD 1 then some (s.mkRel env.k f.ascope) else none,
               acq := if f.md.getLsbD 0 then some f.ascope else none } (checkLanes env s r (laneList env.e)) false

/-! ### Fills, PREF, CFLUSH and CINV (R194, R213) -/

/-- The place from which a fill reads a line: the sequencer's copy, or for `repl` that of the nearest replica (R202). -/
def State.fillSrc (s : State) (core p base : Nat) (rep : Option Nat) (repl : Bool) : Nat :=
  match rep, repl with
  | some i, true => match (s.repChans p i)[s.nearest p i (core / 4)]? with | some ch => repPa base ch | none => base
  | _, _ => s.seqPa p rep base

/-- Whether no write of a core to a line is still to be applied at the replica from which it would be filled: its lanes have to read their
own writes (R202, R206). -/
def State.fillReady (s : State) (core p pa : Nat) (rep : Option Nat) (repl : Bool) : Bool :=
  match rep, repl with
  | some i, true =>
    let src := s.fillSrc core p (pa / 64 * 64) rep repl
    (smGet [] s.repLog (repKey p i (s.nearest p i (core / 4)))).all fun w =>
      w.core != core || w.bytes.all fun b => b.1 / 64 != src / 64
  | _, _ => true

/-- Fetches the line of an address into a core's L1 from the home, the nearest replica for `repl`, or the
host; false when the access ends in an error. -/
def State.l1Fetch (s : State) (core p c va pa tgt : Nat) (rep : Option Nat) (repl : Bool) (cls : Nat) : State × Bool :=
  let key := l1Key p va
  let base := pa / 64 * 64
  let src := s.fillSrc core p base rep repl
  let r := if tgt = 0 then s.homeRd p c src 64 cls
           else let (s, bs) := s.freeBytes 64
                (s, some (bs, []))
  match r with
  | (s, none) => (s, false)
  | (s, some (bs, ps)) =>
    let s := s.l1Make core key
    (s.setL1 core key { ((s.l1 core key).fill bs ps) with cls, use := s.time, tgt, pa := base }, true)

/-- Whether a PREF reaches the home of a line and is answered: a link that is down loses it, which is counted (R333). -/
def State.prefWay (s : State) (core p pa : Nat) : State × Bool :=
  if s.cutBoth p (core / 4) (s.homeSite pa) then (s.routeDrop p, false) else (s, true)

/-- PREF: the line goes to the L2 of its home, where its channel has one, and, with MOD[0], to L1. A lane that fails a check does
nothing; what is lost or dropped on its way counts (R201, R333, R356). A SCOPE of 5 or above traps, as R34 has it for every scope
field (R196; DEDUCED, log 103). -/
def prefBody (env : Env) (s : State) : Out :=
  let g := s.grp env.k
  let pol := g.rdS env.f.c.toNat
  let polv : Word := if pol.bad then 0 else pol.val
  if polv.toNat / 2 ^ 22 != 0 || 5 ≤ bits polv 16 4 then .trap causeReserved env.pc 0 s
  else
    withWalks env s ((laneList env.e).map fun l => (env.ea g env.f.disp l).1.toNat) fun s =>
    .next ((laneList env.e).foldl (fun s l =>
      let ea := (env.ea g env.f.disp l).1
      let p := (s.ctx g.ctx).part
      match s.globalCheck (siteOf env.k) p ea .load with
      | (s, .error _) => s
      | (s, .ok x) =>
        if leafTgt x.leaf != 0 || leafNc x.leaf then s
        else
          let cls := policyClass polv ea.toNat
          let pa := s.seqPa p (leafRep x.leaf) (x.pa / 64 * 64)
          match s.prefWay (coreOf env.k) p pa with
          | (s, false) => s.hostErr g.ctx
          | (s, true) =>
            if !s.owns p pa then (s.tagDrop p).hostErr g.ctx
            else
              let s := if s.hasL2 (pa / 2 ^ 32) then (s.l2Fetch g.ctx pa 64 false).l2Touch g.ctx pa 64 cls false else s
              if env.f.md.getLsbD 0 && !s.lineLeaving (coreOf env.k) (l1Key p ea.toNat) then
                (s.l1Fetch (coreOf env.k) p g.ctx ea.toNat x.pa 0 (leafRep x.leaf) false cls).1 else s) s)

/-- CFLUSH and CINV: the lines of the lanes that a valid leaf translates are in flight to be written back. -/
def flushBody (env : Env) (s : State) : Out :=
  let g := s.grp env.k
  let p := (s.ctx g.ctx).part
  withWalks env s ((laneList env.e).map fun l => (env.ea g env.f.disp l).1.toNat) fun s =>
  let c := (laneList env.e).foldl (fun (c : Chk) l =>
    let ea := (env.ea g env.f.disp l).1
    if ea.toNat / 2 ^ 56 != 0 then c
    else
      match c.s.xlate (siteOf env.k) p ea.toNat with
      | (s, none) => { c with s }
      | (s, some x) => { c with s, go := c.go ++ [{
          lane := l, ea := BitVec.ofNat 64 (ea.toNat / 64 * 64), pa := x.pa / 64 * 64, tgt := leafTgt x.leaf, rep := leafRep x.leaf,
          l1 := true }] }) { s }
  .start c.s { id := 0, k := 0, kind := .flush, size := 64, lanes := c.go, part := p, team := g.team }

/-! ### CPIN and CUNPIN (R214) -/

/-- Lines that a partition has pinned. -/
def State.pinned (s : State) (p : Nat) : Nat := s.l2.countP fun e => e.2.pin = some p

/-- Pins or unpins the lines from L2 line address `va` on for context `c`, at most `fuel`: the state, the code and the count. Of a line that
the limit of its set and the quota both stop the code is 1 (R214 gives no order; DESIGN CHOICE, log 104). -/
def pinLines (site p c : Nat) (unpin : Bool) : Nat → Nat → State → Nat → State × Nat × Nat
  | 0, _, s, n => (s, 0, n)
  | fuel + 1, va, s, n =>
    match s.globalCheck site p (BitVec.ofNat 64 va) .load with
    | (s, .error _) => (s, 4, n)
    | (s, .ok x) =>
      let pa := s.seqPa p (leafRep x.leaf) x.pa
      let ln := pa / 256
      let old := smGet {} s.l2 ln
      if unpin then
        if old.pin = some p && leafTgt x.leaf = 0 then
          let s := s.l2Clean c ln
          pinLines site p c unpin fuel (va + 256) { s with l2 := smMod {} s.l2 ln fun x => { x with pin := none } } (n + 1)
        else pinLines site p c unpin fuel (va + 256) s n
      else if leafTgt x.leaf != 0 || !s.hasL2 (pa / 2 ^ 32) || !s.owns p pa then (s, 3, n)
      else if old.pin.isSome then pinLines site p c unpin fuel (va + 256) s (n + 1)
      else if 3 ≤ (s.l2Set ln).countP fun e => e.2.pin.isSome then (s, 1, n)
      else if (s.part p).desc.resq ≤ s.pinned p then (s, 2, n)
      else
        let s := s.l2Make c ln
        pinLines site p c unpin fuel (va + 256)
          { s with l2 := smMod {} s.l2 ln fun x => { x with pin := some p, use := s.time } } (n + 1)

/-- The first page of a range of `n` bytes that still has to be walked, of its first 2,048 (R191; log 82). -/
def State.pinMiss (s : State) (k p ea n : Nat) : List Nat :=
  if n = 0 then []
  else (((s.missing k p ((List.range (min 2048 ((ea + n - 1) / 65536 - ea / 65536 + 1))).map fun i => 65536 * (ea / 65536 + i))).head?).map
    (65536 * ·)).toList

/-- CPIN and CUNPIN: executed once per arrival; the status goes to s[D]. With a poisoned operand and sr.ctl.pt = 0 it is 0 with every poison
bit set, as for a value that an instruction cannot compute (R77; DEDUCED, log 105). -/
def pinBody (env : Env) (s : State) : Out :=
  let g := s.grp env.k
  let a := g.rdS env.f.a.toNat
  let b := g.rdS env.f.b.toNat
  let cons := (if a.bad then 1 else 0) + (if b.bad then 1 else 0)
  let p := (s.ctx g.ctx).part
  let ea := (a.val + BitVec.ofInt 64 env.f.disp).toNat
  let lines := if b.val = 0 then 0 else (ea + b.val.toNat - 1) / 256 - ea / 256 + 1
  if cons != 0 && g.pt then .trap causePoison env.pc 0 (s.consume env.k cons)
  else
    withWalks env s (if cons != 0 then [] else s.pinMiss env.k p ea b.val.toNat) fun s =>
    let (s', code, n) := if cons != 0 then (s, 0, 0) else pinLines (siteOf env.k) p g.ctx (env.f.md.getLsbD 0) lines (ea / 256 * 256) s 0
    let r : Reg := if cons != 0 then .poisoned else .of (BitVec.ofNat 64 (code * 2 ^ 32 + n))
    .start ((s'.modGrp env.k fun g => g.wrS env.f.d.toNat r).consume env.k cons)
      { id := 0, k := 0, kind := .alu, wr := regWrites env.sh env.f }

/-! ### The meanings -/

/-- LD (R208). -/
def execLd (f : Fields) (s : State) : Res := .next (issueWith 0x60 f s (moveBody .ld))
/-- ST (R208). -/
def execSt (f : Fields) (s : State) : Res := .next (issueWith 0x60 f s (moveBody .st))
/-- LDS (R209). -/
def execLds (f : Fields) (s : State) : Res := .next (issueWith 0x61 f s (moveBody .lds))
/-- STS (R209). -/
def execSts (f : Fields) (s : State) : Res := .next (issueWith 0x61 f s (moveBody .sts))
/-- LDB (R210). -/
def execLdb (f : Fields) (s : State) : Res := .next (issueWith 0x62 f s (moveBody .ldb))
/-- STB (R210). -/
def execStb (f : Fields) (s : State) : Res := .next (issueWith 0x62 f s (moveBody .stb))
/-- LDC (R211). -/
def execLdc (f : Fields) (s : State) : Res := .next (issueWith 0x63 f s (moveBody .ldc))
/-- LDP (R212). -/
def execLdp (f : Fields) (s : State) : Res := .next (issueWith 0x63 f s (moveBody .ldp))
/-- PREF (R213). -/
def execPref (f : Fields) (s : State) : Res := .next (issueWith 0x64 f s prefBody)
/-- CFLUSH (R213). -/
def execCflush (f : Fields) (s : State) : Res := .next (issueWith 0x64 f s flushBody)
/-- CINV (R213). -/
def execCinv (f : Fields) (s : State) : Res := .next (issueWith 0x64 f s flushBody)
/-- CPIN (R214). -/
def execCpin (f : Fields) (s : State) : Res := .next (issueWith 0x64 f s pinBody)
/-- CUNPIN (R214). -/
def execCunpin (f : Fields) (s : State) : Res := .next (issueWith 0x64 f s pinBody)
/-- ATOM (R216). -/
def execAtom (f : Fields) (s : State) : Res := .next (issueWith 0x65 f s (atomBody .atom))
/-- ACAS (R216). -/
def execAcas (f : Fields) (s : State) : Res := .next (issueWith 0x65 f s (atomBody .acas))
/-- ATOMS (R216). -/
def execAtoms (f : Fields) (s : State) : Res := .next (issueWith 0x66 f s (atomBody .atoms))
/-- ATOMB (R216). -/
def execAtomb (f : Fields) (s : State) : Res := .next (issueWith 0x67 f s (atomBody .atomb))
/-- BRED (R217). -/
def execBred (f : Fields) (s : State) : Res := .next (issueWith 0x67 f s bredBody)
/-- BVEC (R216). -/
def execBvec (f : Fields) (s : State) : Res := .next (issueWith 0x67 f s (atomBody .bvec))

end Sys2Proof.Machine
end

