-- ==== Sys2Proof/Machine/Save.lean ====
section
/-!
DEFINITION. The save area of a context in memory (R316) and the bytes of a team image (R101, R181, R182, R225, R257,
R310 to R312): what a stop writes there, what the engines update, and what a restore reads.
-/

namespace Sys2Proof.Machine

/-! ### The save area (R316) -/

/-- IMGSTRIDE: the largest window of the context's kernels above 0x29_0000 (R316). -/
def imgStride (spads : List Nat) : Nat :=
  0x290000 + ((spads.map fun x => (x + 63) / 64 * 64).foldl max 0 + 65535) / 65536 * 65536

/-- The kernels of a context that are not absent. -/
def State.kernsOf (s : State) (c : Nat) : List Kern := ((s.ctx c).kerns.map Prod.snd).filter fun k => k.st != .absent

/-- IMGSTRIDE of a context. -/
def State.strideOf (s : State) (c : Nat) : Nat := imgStride ((s.kernsOf c).map fun k => k.spad)

/-- Offset of an image slot in the save area. -/
def State.slotOff (s : State) (c slot : Nat) : Nat := 0x490000 + slot * s.strideOf c

/-- The virtual address of the window region of an image slot. -/
def State.imageVa (s : State) (c slot : Nat) : Word := (s.ctx c).desc.savebase + BitVec.ofNat 64 (s.slotOff c slot + 0x290000)

/-- The physical address of an offset of the save area, by the table as it stands; none where no device memory is mapped
there. The pages are writable to the device whatever they are to programs. -/
def State.savePa (s : State) (c off : Nat) : Option (Nat × Option Nat) :=
  let p := (s.ctx c).part
  let va := ((s.ctx c).desc.savebase + BitVec.ofNat 64 off).toNat
  match s.walk p va with
  | some (e, _, size) => if leafTgt e = 0 then some (s.seqPa p (leafRep e) (leafPa e size va), leafRep e) else none
  | none => none

/-- Bytes of one 64-byte line of the save area, by offset, performed at their home (R316, R322); they are lost where no device memory is
mapped there (log 17), and what the firewall drops ends with an error (R201, R356). -/
def State.saveLine (s : State) (c : Nat) (bs : List WByte) : State :=
  match bs with
  | [] => s
  | b :: _ =>
    let p := (s.ctx c).part
    match s.savePa c (b.1 / 64 * 64) with
    | none => s
    | some (pa, rep) =>
      let w := bs.map fun x => (pa + x.1 % 64, x.2)
      match s.homeWr p c w 0 with
      | (s, true) => s.orderWr p rep s.nextId none c noCore 0 w
      | (s, false) => s.hostErr c

/-- `n` bytes from an offset of the save area. -/
def State.saveWrite (s : State) (c off n : Nat) (f : Nat → Byte × Bool) : State :=
  (List.range ((off + n + 63) / 64 - off / 64)).foldl (fun s i =>
    let a := max off (64 * (off / 64 + i))
    let b := min (off + n) (64 * (off / 64 + i) + 64)
    s.saveLine c ((List.range (b - a)).map fun j => (a + j, f (a + j - off)))) s

/-- `n` bytes from an offset of the save area as their home holds them; one that cannot be read is 0 and poisoned. -/
def State.saveRead (s : State) (c off n : Nat) : State × List Byte × List Bool :=
  (List.range ((off + n + 63) / 64 - off / 64)).foldl (fun r i =>
    let a := max off (64 * (off / 64 + i))
    let b := min (off + n) (64 * (off / 64 + i) + 64)
    let bad (s : State) : State × List Byte × List Bool := (s, r.2.1 ++ List.replicate (b - a) 0, r.2.2 ++ List.replicate (b - a) true)
    match r.1.savePa c a with
    | none => bad r.1
    | some (pa, _) =>
      match r.1.homeRd (s.ctx c).part c pa (b - a) 0 with
      | (s, some v) => (s, r.2.1 ++ v.1, r.2.2 ++ v.2)
      | (s, none) => bad (s.hostErr c)) (s, [], [])

/-! ### The group part (R101, R225, R257) -/

/-- Byte `j` of a word. -/
def byteOf (x : Word) (j : Nat) : Byte := x.extractLsb' (8 * j) 8

/-- Byte `j` of a number. -/
def natByte (x j : Nat) : Byte := BitVec.ofNat 8 (x / 256 ^ j)

/-- A special register of a group on a site at a time (R83). -/
def Group.special (g : Group) (site : Nat) (time : Word) (n : Nat) (l : LaneId) : Word :=
  let nat (x : Nat) : Word := BitVec.ofNat 64 x
  match n with
  | 0x00 => nat l
  | 0x01 => nat g.gid
  | 0x02 => g.teamid.zeroExtend 64
  | 0x03 => g.gridid.zeroExtend 64
  | 0x04 => nat (siteX site)
  | 0x05 => nat (siteY site)
  | 0x06 => nat g.moved.toNat
  | 0x07 => nat (g.consumer.toNat + 2 * g.copyr.toNat + 16 * (g.regs / 8))
  | 0x08 => nat g.depth
  | 0x09 => time
  | 0x0A => g.fflags.zeroExtend 64
  | 0x0B => g.trapcause.zeroExtend 64
  | 0x0C => g.trapaddr
  | 0x0D => g.donemask.zeroExtend 64
  | 0x0E => g.srseed
  | 0x0F => g.ctl.zeroExtend 64
  | _ => nat (g.elapsed % 2 ^ 32 * 2 ^ 32 + g.period.toNat)

/-- A token as its register (R225). -/
def Tok.num (t : Tok) : Nat :=
  (match t.st with | .idle => 0 | .pending => 1 | .complete => 2) * 64 + t.acq.toNat * 32 + t.rel.toNat * 16 + t.scope

/-- A batch slot as its word (R257). -/
def BatchSlot.num (x : BatchSlot) : Nat := x.nfault * 2 ^ 24 + x.code * 2 ^ 16 + x.bar * 2 ^ 12 + x.bound.toNat * 2 ^ 11 + x.out

/-- A byte of the batch record (R257). -/
def Batch.byte (b : Batch) (o : Nat) : Byte :=
  if o < 4 then natByte b.issued.toNat o
  else if o < 8 then natByte b.done.toNat (o - 4)
  else if o < 0x28 then natByte (b.slot ((o - 8) / 4)).num (o % 4)
  else if o < 0x30 then natByte (b.bvValid.toNat + 2 * b.bvParity.toNat + 4 * b.bvBar) (o - 0x28)
  else 0

/-- The number of a lane's state. -/
def LaneState.num : LaneState → Nat
  | .live => 0
  | .parked => 1
  | .exited => 2

/-- Lane `i`, counted modulo 32. -/
def laneNo (i : Nat) : LaneId := ⟨i % 32, Nat.mod_lt _ (by decide)⟩

/-- The byte at an offset of a group's part of the image, in the layout of the state window (R101). -/
def Group.winByte (g : Group) (site : Nat) (time : Word) (o : Nat) : Byte :=
  let lane (i : Nat) : Lane := g.lane[laneNo i]
  if o < 0x8000 then (if o / 256 < g.regs then byteOf (g.rdV (o / 256) (laneNo (o / 8))).val (o % 8) else 0)
  else if o < 0x9000 then (if (o - 0x8000) / 32 < g.regs then (g.rdV ((o - 0x8000) / 32) (laneNo o)).poi else 0)
  else if o < 0x9200 then byteOf (g.rdS ((o - 0x9000) / 8)).val (o % 8)
  else if o < 0x9240 then (g.rdS (o - 0x9200)).poi
  else if o < 0x9260 then natByte (g.rdP ((o - 0x9240) / 4)).toNat (o % 4)
  else if o < 0x9300 then 0
  else if o < 0x9320 then
    natByte ((lane (o - 0x9300)).st.num + 4 * (lane (o - 0x9300)).yld.toNat + 8 * (lane (o - 0x9300)).hw.length) 0
  else if o < 0x9400 then 0
  else if o < 0x9500 then byteOf (lane ((o - 0x9400) / 8)).pcv (o % 8)
  else if o < 0x9580 then natByte (lane ((o - 0x9500) / 4)).spilled.toNat (o % 4)
  else if o < 0x9600 then natByte (lane ((o - 0x9580) / 4)).draw.toNat (o % 4)
  else if o < 0x9E00 then byteOf ((lane ((o - 0x9600) / 64)).hw.getD ((o - 0x9600) / 8 % 8) 0) (o % 8)
  else if o < 0x9E08 then natByte ((g.sb[o - 0x9E00]?).getD 0) 0
  else if o < 0x9E10 then natByte (g.elapsed % 2 ^ 32 + g.sub.toNat * 2 ^ 32) (o - 0x9E08)
  else if o < 0x9E40 then 0
  else if o < 0x9E80 then natByte ((g.tok[(o - 0x9E40) / 8]?).getD {}).num (o % 8)
  else if o < 0x9EC0 then g.batch.byte (o - 0x9E80)
  else if o < 0x9F00 then 0
  else byteOf (g.special site time ((o - 0x9F00) / 8) 0) (o % 8)

/-! ### Accumulator records (R181, R182) -/

/-- The number of an accumulator state in the status word (R160). -/
def AccState.num : AccState → Nat
  | .free => 0
  | .zeroed => 1
  | .accumulating => 2
  | .stalled => 3
  | .draining => 4

/-- The status word of an accumulator with its queue entries, oldest first (R160). -/
def Acc.status (a : Acc) (phys : Nat) (q : List MmaEnt) : Nat :=
  let m := q.headD { acc := phys, x := false, ty := 0, areg := 0, breg := 0 }
  a.poi.length * 2 ^ 32 + phys * 2 ^ 21 + a.fault.toNat * 2 ^ 20 + m.x.toNat * 2 ^ 19 + m.ty * 2 ^ 15
    + q.length * 2 ^ 12 + m.prog * 2 ^ 7 + a.st.num

/-- The control word of a queue entry, in the layout of R182. -/
def MmaEnt.control (m : MmaEnt) (name gid : Nat) : Nat :=
  bits m.ctrl 23 7 * 2 ^ 53 + bits m.ctrl 16 7 * 2 ^ 46 + bits m.ctrl 15 1 * 2 ^ 45 + bits m.ctrl 8 7 * 2 ^ 38
    + bits m.ctrl 7 1 * 2 ^ 37 + bits m.ctrl 0 7 * 2 ^ 30 + (if m.bpair.isSome then 0 else m.breg) * 2 ^ 23
    + (if m.apair.isSome then 0 else m.areg) * 2 ^ 16 + m.bpair.isSome.toNat * 2 ^ 15 + m.apair.isSome.toNat * 2 ^ 14
    + m.ty * 2 ^ 10 + m.x.toNat * 2 ^ 9 + name * 2 ^ 6 + gid

/-- A byte of a queue entry of an accumulator record (R181). -/
def MmaEnt.byte (m : MmaEnt) (name gid o : Nat) : Byte :=
  let pair (p : Option (Word × Word)) (o : Nat) : Byte :=
    match p with
    | some x => if o < 8 then byteOf x.1 o else byteOf x.2 (o - 8)
    | none => 0
  if o < 8 then natByte (m.control name gid) o
  else if o < 24 then pair m.apair (o - 8)
  else if o < 40 then pair m.bpair (o - 24)
  else if o < 48 then natByte (m.flags.toNat + m.prog * 2 ^ 8) (o - 40)
  else if o < 56 then byteOf m.addr (o - 48)
  else 0

/-- The byte at an offset of an accumulator record (R181). -/
def SavedAcc.byte (a : SavedAcc) (o : Nat) : Byte :=
  if o < 0x4000 then natByte (smGet 0 a.acc.c (o / 4)).toNat (o % 4)
  else if o < 0x4200 then
    natByte (((List.range 8).map fun j => (smGet false a.acc.poi ((o - 0x4000) * 8 + j)).toNat * 2 ^ j).sum) 0
  else if o < 0x4208 then natByte (a.acc.status a.phys a.mmas) (o - 0x4200)
  else if o < 0x4210 then natByte (slotOf a.acc.owner + a.name * 16) (o - 0x4208)
  else if o < 0x4240 then 0
  else match a.mmas[(o - 0x4240) / 64]? with
    | some m => m.byte a.name a.gid ((o - 0x4240) % 64)
    | none => 0

/-! ### The header and the copy list (R311, R312) -/

/-- REASON (R311). -/
def StopReason.num : StopReason → Nat
  | .castling => 1
  | .safePoint => 2
  | .forced => 3
  | .quiesce => 4

/-- A byte range in the window as the copy list holds it: lowest and highest offset, all ones when none. -/
def rangeWord (r : Option RangeEnt) : Nat :=
  match r with
  | some e => e.lo + (e.hi - 1) * 2 ^ 32
  | none => 2 ^ 64 - 1

/-- A copy list entry for a copy of the team on a tile with these range entries (R312). -/
def Copy.entry (c : Copy) (ranges : List RangeEnt) : List Byte :=
  let mine (dest : Bool) : Option RangeEnt := ranges.find? fun e => e.copy = some c.id && e.dest = dest
  let held : Bool := match mine true with
    | some d => ranges.any fun e => e.mma.isSome && e.team = c.team && e.lo < d.hi && d.lo < e.hi
    | none => false
  let flags : Nat := 1 + 2 * (decide (c.kind = .follow) && !c.followIn).toNat + 4 * held.toNat
  leBytes 2 c.site ++ leBytes 1 (c.chan.getD 0) ++ leBytes 1 flags ++ leBytes 4 c.gid ++ leBytes 8 c.batch.toNat
    ++ leBytes 8 (rangeWord (mine true)) ++ leBytes 8 (rangeWord (mine false))

/-- The entry of an incoming share or message for a team on a tile with these range entries: its engine's site and channel, and
whether it is a share of a CPYM (R312). -/
def shareEntry (site chan : Nat) (multi : Bool) (id tk : Nat) (ranges : List RangeEnt) : List Byte :=
  leBytes 2 site ++ leBytes 1 chan ++ leBytes 1 (1 + 8 * multi.toNat) ++ leBytes 12 0
    ++ leBytes 8 (rangeWord (ranges.find? fun e => e.share && e.copy = some id && e.team = tk)) ++ leBytes 8 (2 ^ 64 - 1)

/-- GMASK: the groups present. -/
def Image.gmask (im : Image) : Nat := (im.groups.map fun e => 2 ^ e.2.2.gid).sum

/-- The byte at an offset of the header of a team's image (R311). -/
def Image.headerByte (im : Image) (t : Team) (o : Nat) : Byte :=
  if o < 0x04 then natByte 0x31474D49 o
  else if o < 0x06 then natByte 1 (o - 0x04)
  else if o < 0x08 then natByte t.ctx (o - 0x06)
  else if o < 0x0C then natByte t.teamid.toNat (o - 0x08)
  else if o < 0x10 then natByte t.grid.toNat (o - 0x0C)
  else if o = 0x10 then natByte t.kern 0
  else if o = 0x11 then natByte t.node 0
  else if o = 0x12 then natByte im.reason.num 0
  else if o = 0x13 then natByte (im.list.length + im.shares.length) 0
  else if o < 0x18 then natByte im.gmask (o - 0x14)
  else if o < 0x1C then natByte t.wsize (o - 0x18)
  else if o < 0x1E then natByte im.site (o - 0x1C)
  else if o < 0x20 then 0
  else if o < 0x28 then byteOf im.time (o - 0x20)
  else if o < 0x40 then 0
  else if o < 0x80 then
    match im.accs[(o - 0x40) / 2]? with
    | some a => natByte (a.gid + a.name * 32 + 256) (o % 2)
    | none => 0
  else if o < 0x100 then 0
  else if o < 0x180 then byteOf ((t.bars[(o - 0x100) / 8]?).getD 0) (o % 8)
  else if o < 0x1A0 then
    match im.groups.find? fun e => e.2.2.gid = o - 0x180 with
    | some e => natByte (e.1 * 16 + e.2.1) 0
    | none => 0
  else if o < 0x800 then 0
  else match im.list[(o - 0x800) / 32]? with
    | some e => e.2.getD (o % 32) 0
    | none => 0

/-! ### Writing an image, and its updates (R309 to R312, R316) -/

/-- The part of the image of a group that a team has. -/
def groupOff (gid : Nat) : Nat := 0x1000 + gid * 0x10000

/-- Offset of a saved team's image in its context's save area, one that a kill discarded included (R326); none where the team is not
saved. -/
def State.savedOff (s : State) (tk : Nat) : Option Nat :=
  let t := s.team tk
  match t.image with
  | some im => if t.st = .saved || t.st = .ended then some im.base else none
  | none => none

/-- Bytes of a saved team's image change in the save area: `n` from offset `off` of the image. -/
def State.imageWrite (s : State) (tk off n : Nat) (f : Nat → Byte × Bool) : State :=
  match s.savedOff tk with
  | some b => s.saveWrite (s.team tk).ctx (b + off) n f
  | none => s

/-- NSLOT and IMGSTRIDE in the directory, as the plans and kernels of a context give them (R316). -/
def State.writeHead (s : State) (c : Nat) : State :=
  let n := ((s.kernsOf c).map fun k => k.plan.sets.length).sum
  s.saveWrite c 0 16 fun o => (if o < 8 then natByte n o else natByte (s.strideOf c) (o - 8), false)

/-- The directory: its head and the entry of a slot (R316). -/
def State.writeDirectory (s : State) (tk : Nat) (im : Image) (valid : Bool) : State :=
  let t := s.team tk
  let s := s.writeHead t.ctx
  s.saveWrite t.ctx (16 + 32 * im.slot) 32 fun o =>
    (if o = 0 then natByte valid.toNat 0
     else if o < 4 then 0
     else if o < 8 then natByte im.order (o - 4)
     else if o < 16 then im.headerByte t o
     else if o = 16 then natByte t.kern 0
     else if o = 17 then natByte t.node 0
     else 0, false)

/-- The parts that are present of a saved team's image: header, group parts, accumulator records, the extension of the copy list where
it holds an entry, window (R310). -/
def State.writeImage (s : State) (tk : Nat) : State :=
  let t := s.team tk
  match t.image with
  | none => s
  | some im =>
    let s := s.imageWrite tk 0 0x1000 fun o => (im.headerByte t o, false)
    let s := im.groups.foldl (fun s e =>
      s.imageWrite tk (groupOff e.2.2.gid) 0x9F88 fun o => (e.2.2.winByte im.site im.time o, false)) s
    let s := im.accs.zipIdx.foldl (fun s a => s.imageWrite tk (0x201000 + a.2 * 0x4400) 0x4340 fun o => (a.1.byte o, false)) s
    let s := if im.shares.isEmpty then s
      else s.imageWrite tk 0x289000 0x800 fun o => (((im.shares[o / 32]?).getD (0, [])).2.getD (o % 32) 0, false)
    let s := s.imageWrite tk 0x290000 t.wsize fun o => (smGet 0 im.window o, smGet false im.wpoi (o / 8))
    s.writeDirectory tk im true

/-- The scoreboard, token and batch part of a group of a saved team follows a change (R312). -/
def State.updateGroup (s : State) (tk gid : Nat) : State :=
  match (s.team tk).image with
  | none => s
  | some im =>
    match im.groups.find? fun e => e.2.2.gid = gid with
    | none => s
    | some e => s.imageWrite tk (groupOff gid + 0x9E00) 0xC0 fun o => (e.2.2.winByte im.site im.time (0x9E00 + o), false)

/-- The barrier words of a saved team follow a change (R246). -/
def State.updateBars (s : State) (tk : Nat) : State :=
  s.imageWrite tk 0x100 0x80 fun o => (byteOf (((s.team tk).bars[o / 8]?).getD 0) (o % 8), false)

/-- Entry `i` of a list of copy list entries with its valid bit clear. -/
def dropValid (l : List (Nat × List Byte)) (i : Nat) : List (Nat × List Byte) :=
  l.modify i fun e => (e.1, e.2.set 3 (e.2.getD 3 0 &&& 0xFE))

/-- The copy list entry of a copy or share that completes is no longer valid (R312). -/
def State.clearEntry (s : State) (tk id : Nat) (share : Bool) : State :=
  match (s.team tk).image with
  | none => s
  | some im =>
    match (if share then im.shares else im.list).findIdx? fun e => e.1 = id with
    | none => s
    | some i =>
      let im := if share then { im with shares := dropValid im.shares i } else { im with list := dropValid im.list i }
      (s.modTeam tk fun t => { t with image := some im }).imageWrite tk ((if share then 0x289000 else 0x800) + 32 * i) 32 fun o =>
        ((((if share then im.shares else im.list)[i]?).getD (0, [])).2.getD o 0, false)

/-- Puts a number into an ascending list. -/
def insertAsc (x : Nat) : List Nat → List Nat
  | [] => [x]
  | y :: r => if x ≤ y then x :: y :: r else y :: insertAsc x r

/-- Unlaunched grid indices stand in the save area, ascending, and every unused entry is all ones; 64 KiB at a time, where a page is
mapped (R286, R316). -/
def State.writeIndices (s : State) (c : Nat) : State :=
  let es := ((s.ctx c).runs.flatMap fun r => r.saved.map fun i => r.grid.toNat * 2 ^ 32 + i).foldr insertAsc []
  (List.range 72).foldl (fun s i =>
    if (s.savePa c (0x10000 * (i + 1))).isNone then s
    else s.saveWrite c (0x10000 * (i + 1)) 0x10000 fun o => (natByte (es.getD (0x2000 * i + o / 8) (2 ^ 64 - 1)) (o % 8), false)) s

/-! ### Reading an image (R317) -/

/-- The header of a saved image passes: MAGIC, VERSION and CTX, and no header word is poisoned. -/
def State.headerOk (s : State) (c slot : Nat) : State × Bool :=
  let r := s.saveRead c (s.slotOff c slot) 0x1000
  (r.1, leNat (r.2.1.take 4) = 0x31474D49 && leNat ((r.2.1.drop 4).take 2) = 1 && leNat ((r.2.1.drop 6).take 2) = c % 65536
    && r.2.2.all (! ·))

/-- `k` runs of `n` elements of a list. -/
def chunks {α : Type} (n : Nat) : Nat → List α → List (List α)
  | 0, _ => []
  | k + 1, l => l.take n :: chunks n k (l.drop n)

/-- `k` numbers of `n` bytes from an offset of a list. -/
def numsAt (bs : List Byte) (o n k : Nat) : List Nat := (chunks n k (bs.drop o)).map leNat

/-- A token of its register (R225). -/
def Tok.ofNum (x : Nat) : Tok where
  st := if x / 64 % 4 = 0 then .idle else if x / 64 % 4 = 1 then .pending else .complete
  acq := x.testBit 5
  rel := x.testBit 4
  scope := x % 16

/-- A batch slot of its word (R257); what no field holds stays. -/
def BatchSlot.load (x : BatchSlot) (w : Nat) : BatchSlot :=
  { x with nfault := w / 2 ^ 24 % 256, code := w / 2 ^ 16 % 256, bar := w / 2 ^ 12 % 16, bound := w.testBit 11, out := w % 2 ^ 11 }

/-- A batch record of its bytes (R257). -/
def Batch.load (b : Batch) (bs : List Byte) : Batch :=
  let slots := numsAt bs 8 4 8
  let bv := leNat ((bs.drop 0x28).take 8)
  { b with
    issued := BitVec.ofNat 32 (leNat (bs.take 4)), done := BitVec.ofNat 32 (leNat ((bs.drop 4).take 4)),
    slots := Vector.ofFn fun i => b.slots[i].load (slots.getD i 0),
    bvValid := bv.testBit 0, bvParity := bv.testBit 1, bvBar := bv / 4 % 16 }

/-- The state of a lane of its number. -/
def LaneState.ofNum (x : Nat) : LaneState := if x = 0 then .live else if x = 1 then .parked else .exited

/-- A group with the state that the bytes of its part of an image hold (R101, R317); who it is and what the layout has no place for stay. -/
def Group.load (g : Group) (bs : List Byte) : Group :=
  let vs := numsAt bs 0 8 (32 * g.regs)
  let vp := (bs.drop 0x8000).take 0x1000
  let ss := numsAt bs 0x9000 8 64
  let sp := (bs.drop 0x9200).take 64
  let ps := numsAt bs 0x9240 4 8
  let sts := (bs.drop 0x9300).take 32
  let pcs := numsAt bs 0x9400 8 32
  let ns := numsAt bs 0x9500 4 32
  let ds := numsAt bs 0x9580 4 32
  let hw := chunks 8 32 (numsAt bs 0x9600 8 256)
  let sbs := (bs.drop 0x9E00).take 8
  let wd := leNat ((bs.drop 0x9E08).take 8)
  let toks := numsAt bs 0x9E40 8 8
  let sr := numsAt bs 0x9F00 8 17
  { g with
    v := (List.range g.regs).foldl (fun m k => smSet VReg.zero m k (Vector.ofFn fun i =>
      { val := BitVec.ofNat 64 (vs.getD (32 * k + i) 0), poi := vp.getD (32 * k + i) 0 })) []
    s := (List.range 63).foldl (fun m k => smSet {} m (k + 1) { val := BitVec.ofNat 64 (ss.getD (k + 1) 0), poi := sp.getD (k + 1) 0 }) []
    p := (List.range 7).foldl (fun m k => smSet 0 m (k + 1) (BitVec.ofNat 32 (ps.getD (k + 1) 0))) []
    lane := Vector.ofFn fun i =>
      let x := (sts.getD i 0).toNat
      { g.lane[i] with
        st := LaneState.ofNum (x % 4), yld := x.testBit 2, pcv := BitVec.ofNat 64 (pcs.getD i 0), spilled := BitVec.ofNat 32 (ns.getD i 0),
        draw := BitVec.ofNat 32 (ds.getD i 0), hw := ((hw.getD i []).take (min 8 (x / 8 % 16))).map (BitVec.ofNat 64) }
    sb := Vector.ofFn fun i => (sbs.getD i 0).toNat
    elapsed := wd % 2 ^ 32, sub := BitVec.ofNat 10 (wd / 2 ^ 32)
    tok := Vector.ofFn fun i => Tok.ofNum (toks.getD i 0)
    batch := g.batch.load ((bs.drop 0x9E80).take 64)
    moved := (sr.getD 6 0).testBit 0, depth := sr.getD 8 0
    fflags := BitVec.ofNat 6 (sr.getD 10 0), trapcause := BitVec.ofNat 6 (sr.getD 11 0), trapaddr := BitVec.ofNat 64 (sr.getD 12 0)
    donemask := BitVec.ofNat 32 (sr.getD 13 0), srseed := BitVec.ofNat 64 (sr.getD 14 0), ctl := BitVec.ofNat 2 (sr.getD 15 0)
    period := BitVec.ofNat 32 (sr.getD 16 0) }

/-- A queue entry of its 64 bytes (R181, R182); its slot and its copy stay. -/
def MmaEnt.load (m : MmaEnt) (bs : List Byte) : MmaEnt :=
  let c := leNat (bs.take 8)
  let w (o : Nat) : Word := BitVec.ofNat 64 (leNat ((bs.drop o).take 8))
  let x := leNat ((bs.drop 40).take 8)
  { m with
    x := c.testBit 9, ty := c / 2 ^ 10 % 16, areg := c / 2 ^ 16 % 128, breg := c / 2 ^ 23 % 128, ctrl := BitVec.ofNat 32 (c / 2 ^ 30 % 2 ^ 30),
    apair := if c.testBit 14 then some (w 8, w 16) else none, bpair := if c.testBit 15 then some (w 24, w 32) else none,
    flags := BitVec.ofNat 6 x, prog := x / 2 ^ 8 % 32, addr := w 48 }

/-- An accumulator of its record (R181, R317). -/
def SavedAcc.load (a : SavedAcc) (bs : List Byte) : SavedAcc :=
  let w := leNat ((bs.drop 0x4200).take 8)
  let ms := chunks 64 4 (bs.drop 0x4240)
  { a with
    acc := { a.acc with
      c := (numsAt bs 0 4 4096).zipIdx.foldr (fun x m => if BitVec.ofNat 32 x.1 = 0 then m else (x.2, BitVec.ofNat 32 x.1) :: m) []
      poi := (((bs.drop 0x4000).take 512).zipIdx.flatMap fun x => (List.range 8).map fun i => (8 * x.2 + i, x.1.getLsbD i)).filter fun e => e.2
      st := match w % 8 with | 1 => .zeroed | 2 => .accumulating | 3 => .stalled | _ => a.acc.st
      fault := w.testBit 20 }
    mmas := a.mmas.zipIdx.map fun m => m.1.load (ms.getD m.2 []) }

/-- The groups of a saved image as the save area holds them. -/
def State.readGroups (s : State) (c slot : Nat) (ks : List (Nat × Group)) : State × List (Nat × Group) :=
  ks.foldl (fun r e =>
    let x := r.1.saveRead c (r.1.slotOff c slot + groupOff e.2.gid) 0x9F88
    (x.1, r.2 ++ [(e.1, e.2.load x.2.1)])) (s, [])

/-- The accumulators of a saved image as the save area holds them. -/
def State.readAccs (s : State) (c slot : Nat) (as : List SavedAcc) : State × List SavedAcc :=
  as.zipIdx.foldl (fun r a =>
    let x := r.1.saveRead c (r.1.slotOff c slot + 0x201000 + a.2 * 0x4400) 0x4340
    (x.1, r.2 ++ [a.1.load x.2.1])) (s, [])

/-- The barrier words of a saved image as the save area holds them. -/
def State.readBars (s : State) (c slot : Nat) : State × Vector Word 16 :=
  let x := s.saveRead c (s.slotOff c slot + 0x100) 0x80
  let ws := numsAt x.2.1 0 8 16
  (x.1, Vector.ofFn fun i => BitVec.ofNat 64 (ws.getD i 0))

/-- The window of a saved image as the save area holds it. -/
def State.readSavedWindow (s : State) (c slot n : Nat) : State × SMap Byte × SMap Bool :=
  let r := s.saveRead c (s.slotOff c slot + 0x290000) n
  (r.1, r.2.1.zipIdx.foldl (fun m b => smSet 0 m b.2 b.1) [], r.2.2.zipIdx.foldl (fun m b => if b.1 then smSet false m (b.2 / 8) true else m) [])

end Sys2Proof.Machine
end

