-- ==== Sys2Proof/Machine/Team.lean ====
section
/-!
DEFINITION. The groups of a team, live or in its image (R323), and the errors of copies in their batches
(R252).
-/

namespace Sys2Proof.Machine

/-- Whether a context has teams to stop: it is pre-empting, or a quiesce has sent it to migrating and its teams are not all saved yet (R305,
R313, R364). -/
def Ctx.stops (x : Ctx) : Bool := x.st = .preempting || (x.st = .migrating && x.preempt.isSome)

/-! ### Members of a team, live or in its image (R323) -/

/-- Whether a team can be delivered to: launched and not ended. -/
def Team.present (t : Team) : Bool := t.st != .absent && t.st != .ended

/-- The slot of a live group of a team. -/
def State.memberKey (s : State) (tk gid : Nat) : Option Nat :=
  (s.groups.find? fun e => e.2.team = tk && e.2.gid = gid && e.2.st != .free && e.2.st != .bound).map Prod.fst

/-- A group of a team, in its slot or in the team's image. -/
def State.member (s : State) (tk gid : Nat) : Option Group :=
  match (s.team tk).image with
  | some im => (im.groups.find? fun e => e.2.2.gid = gid).map fun e => e.2.2
  | none => (s.memberKey tk gid).map s.grp

/-- Changes a group of a team, in its slot or in the team's image, in the save area too where that is saved (R312). -/
def State.modMember (s : State) (tk gid : Nat) (f : Group → Group) : State :=
  match (s.team tk).image with
  | some _ => (s.modTeam tk fun t => { t with image := t.image.map fun im => { im with
      groups := im.groups.map fun e => if e.2.2.gid = gid then (e.1, e.2.1, f e.2.2) else e } }).updateGroup tk gid
  | none => match s.memberKey tk gid with | some k => s.modGrp k f | none => s

/-- An error event of a copy in its batch: NFAULT grows, and the first sets CODE (R252). -/
def State.batchErr (s : State) (c : Copy) (code : Nat) : State :=
  s.modMember c.team c.gid fun g => { g with batch := g.batch.modSlot c.batch.toNat fun x =>
    { x with nfault := min 255 (x.nfault + 1), code := if x.code = 0 then code else x.code } }

/-- The team a receiver names, in the issuing grid. -/
def Copy.recvKey (c : Copy) (r : Recv) : Nat := c.team % 2 ^ 44 + 2 ^ 44 * r.team

/-- Whether a copy or share of a team is on or into a tile (R321). -/
def State.remapped (s : State) (site tk : Nat) : Bool :=
  s.copies.any fun c => (c.site = site && c.team = tk)
    || (c.recv.any fun r => c.recvKey r = tk && r.looked && !r.done && r.site = some site)

/-- Remap entries of teams with no copy or share left on or into the tile go (R321). -/
def State.trimRemap (s : State) : State :=
  s.tiles.foldl (fun s e => if e.2.remap.isEmpty then s else s.modTile e.1 fun t => { t with remap := t.remap.filter fun r => s.remapped e.1 r.team }) s

/-- Changes a copy. -/
def State.modCopy (s : State) (id : Nat) (f : Copy → Copy) : State :=
  { s with copies := s.copies.map fun c => if c.id = id then f c else c }

/-- A host or remote access of a copy ended in an error: CODE 6, and HOSTERR once for the copy (R252). -/
def State.copyHostErr (s : State) (c : Copy) : State :=
  let s := s.batchErr c 6
  let first := (s.copies.find? fun x => x.id = c.id).elim true fun x => !x.hostErr
  if first then ((s.modCopy c.id fun x => { x with hostErr := true }).ctxCount (c.team % 4096) 3 1).ctxEvent (c.team % 4096) 4
  else s

end Sys2Proof.Machine
end

