-- ==== Sys2Proof/Machine/Perform.lean ====
section
/-!
DEFINITION. Memory operations after issue: performances at L1, scratchpad, home, bank and port, landing
and completion (R187, R199 to R203, R206, R207, R213, R216, R217, R219, R229, R348, R351).
-/

namespace Sys2Proof.Machine

/-! ### Operations and their lanes -/

/-- The operation of an identifier. -/
def State.op? (s : State) (id : Nat) : Option Op := s.ops.find? fun o => o.id = id
/-- Changes an operation. -/
def State.modOp (s : State) (id : Nat) (f : Op → Op) : State :=
  { s with ops := s.ops.map fun o => if o.id = id then f o else o }
/-- Changes one lane of an operation. -/
def State.modLane (s : State) (id l : Nat) (f : LaneOp → LaneOp) : State :=
  s.modOp id fun o => { o with lanes := o.lanes.map fun x => if x.lane = l then f x else x }
/-- A lane of an operation. -/
def Op.lane? (o : Op) (l : Nat) : Option LaneOp := o.lanes.find? fun x => x.lane = l
/-- The context of an operation. -/
def Op.ctx (o : Op) : Nat := o.team % 4096
/-- Bytes of memory a lane touches, for R206. -/
def Op.span (o : Op) (x : LaneOp) : Nat :=
  if o.kind = .wback then x.data.length else if o.kind = .bred then 16 else o.size
/-- Whether two lanes' accesses overlap. -/
def overlap (o : Op) (x : LaneOp) (o' : Op) (x' : LaneOp) : Bool :=
  o.kind.space = o'.kind.space && x.tgt = x'.tgt && x.pa < x'.pa + o'.span x' && x'.pa < x.pa + o.span x

/-- Whether nothing of the same lane, issued earlier and overlapping, is still to be performed; of one
store, lower lanes go first; an access at the home waits for write-backs in flight, but for a store that left before them (R206). LDC
counts as an access of every lane (log 22). -/
def State.laneFree (s : State) (o : Op) (x : LaneOp) : Bool :=
  (s.ops.all fun o' =>
    if o'.k = o.k && o'.id < o.id then
      o'.lanes.all fun x' => !((x'.lane = x.lane || o.kind = .ldc || o'.kind = .ldc) && x'.open && overlap o x o' x')
    else if o'.kind = .wback && o'.k = wbackOwner o.core && !x.l1 && !x.left && o.kind != .wback then
      o'.lanes.all fun x' => !(x'.open && overlap o x o' x')
    else true)
  && (!o.kind.store || o.lanes.all fun x' => !(x'.lane < x.lane && x'.open && overlap o x o x'))

/-- The lanes of an atomic that are applied together with lane `x`: those at its address, in ascending
order (R206). -/
def Op.together (o : Op) (x : LaneOp) : List LaneOp :=
  o.lanes.filter fun y => (y.phase = .waiting || y.phase = .inval) && y.pa = x.pa && y.tgt = x.tgt

/-- Whether a lane may perform: it is free, and for an atomic so are the lanes applied with it, as nothing comes between
them (R206). -/
def State.laneClear (s : State) (o : Op) (x : LaneOp) : Bool :=
  s.laneFree o x && (!o.kind.atomic || (o.together x).all fun y => s.laneFree o y)

/-- Accesses of a copy by way of a port: the `k` of their operation. -/
def copyOwner (id site : Nat) : Nat := 2 ^ 41 + 2 ^ 20 * id + 4 * site

/-- An access that ends in an error: no trap, HOSTERR, a load or returning atomic gets zero with every
poison bit set, a store is dropped (R201), the parts of one write-back or of a store of the device counting as one; for a copy's write its
batch is marked (R252). -/
def State.laneError (s : State) (o : Op) (l : Nat) : State :=
  let s := s.modLane o.id l fun x =>
    { x with phase := .performed, data := [], val := (lostVal o.size).1, vpoi := (lostVal o.size).2 }
  if 2 ^ 41 ≤ o.k then
    match s.copies.find? fun c => copyOwner c.id c.site = o.k with
    | some c => s.copyHostErr c
    | none => s
  else if o.kind = .wback && (s.op? o.id).any fun o => o.lanes.any fun x => x.lane != l && !x.val.isEmpty then s
  else s.hostErr o.ctx

/-- A lane has changed bytes at the home by an atomic: what its core's L1 holds clean of them the lane does not read there any more, as a
later load of it has to return the new value, and a fill on its way no longer completes the line. Other lanes may still read the old
bytes (R206, R220, R390; log 75). -/
def State.markStale (s : State) (o : Op) (x : LaneOp) : State :=
  let key := l1Key o.part x.ea.toNat
  let s := s.unfill o.core (· = key)
  let y := s.l1 o.core key
  let m := y.valid &&& ~~~y.dirty &&& lineMask (x.ea.toNat % 64) o.size
  if m = 0 then s
  else s.setL1 o.core key { y with stale := (o.k, x.lane, m) :: y.stale.filter fun e => !(e.1 = o.k && e.2.1 = x.lane && e.2.2 = m) }

/-- A lane has performed, with its value. -/
def State.laneDone (s : State) (o : Op) (l : Nat) (v : List Byte) (p : List Bool) : State :=
  let s := s.modLane o.id l fun x => { x with phase := .performed, val := v, vpoi := p }
  match o.lane? l with
  | some x => if o.kind = .atom || o.kind = .acas then s.markStale o x else s
  | none => s

/-- The bytes of its line that a load through L1 may not read there (R206). -/
def State.oldBytes (s : State) (o : Op) (x : LaneOp) : BitVec 64 :=
  (s.l1 o.core (l1Key o.part x.ea.toNat)).old o.k (if o.kind = .ldc then none else some x.lane)

/-- Whether L1 has the bytes that a load reads. -/
def State.l1Hit (s : State) (o : Op) (x : LaneOp) : Bool :=
  (s.l1 o.core (l1Key o.part x.ea.toNat)).has (x.ea.toNat % 64) o.size
    && s.oldBytes o x &&& lineMask (x.ea.toNat % 64) o.size = 0

/-- The new bytes of an atomic and their poison from the old ones (R199, R216). -/
def atomNew (o : Op) (x : LaneOp) (old : List Byte) (ps : List Bool) : List Byte × List Bool :=
  (leBytes o.size (atomValue o.f.aop o.f.atype (leNat old) (leNat x.data) (leNat x.data2)),
    List.replicate o.size (ps.any id))

/-! ### L1 and the scratchpad -/

/-- One lane performed in L1 or at the scratchpad: a store's bytes, a load's value where the line has them,
a scratchpad atomic with the lanes at its address. -/
def State.localPerform (s : State) (o : Op) (x : LaneOp) : State :=
  if x.phase != .waiting || o.rel.isSome || !s.laneClear o x then s
  else if o.kind.space = .spad then
    if o.kind = .atoms then
      (o.together x).foldl (fun s y =>
        let (s, old, ps) := s.spadRd o.team y.pa o.size
        let n := atomNew o y old ps
        (s.spadWr o.team y.pa n.1 n.2).laneDone o y.lane old ps) s
    else if o.kind = .sts then (s.spadWr o.team x.pa x.data x.poi).laneDone o x.lane [] []
    else
      let (s, v, ps) := s.spadRd o.team x.pa o.size
      s.laneDone o x.lane v ps
  else if x.l1 && o.kind = .st then
    let key := l1Key o.part x.ea.toNat
    let m := lineMask (x.ea.toNat % 64) x.data.length
    let s := (s.l1Make o.core key).l1Meet o.ctx o.core key (wordsIn m &&& ~~~L1Line.store.fullWords m)
    (s.setL1 o.core key { ((s.l1 o.core key).store (x.ea.toNat % 64) x.data x.poi false) with
      cls := x.cls, use := s.time, tgt := x.tgt, pa := x.pa / 64 * 64, ctx := o.ctx }).laneDone o x.lane [] []
  else if x.l1 && o.kind.load then
    let key := l1Key o.part x.ea.toNat
    let off := x.ea.toNat % 64
    if s.l1Hit o x then
      let s := s.l1Meet o.ctx o.core key (wordsIn (lineMask off o.size))
      let ln := s.l1 o.core key
      (s.setL1 o.core key { ln with cls := x.cls, use := s.time }).laneDone o x.lane
        ((List.range o.size).map fun i => smGet 0 ln.data (off + i))
        ((List.range o.size).map fun i => ln.poi.getLsbD ((off + i) / 8))
    else s
  else s

/-- An access leaves the core for its home or port: a store then updates the L1 copy of its bytes, once (R208). -/
def State.leave (s : State) (o : Op) (x : LaneOp) : State :=
  if o.kind = .st && !x.left then (s.l1Update o.core o.part x).modLane o.id x.lane fun x => { x with left := true } else s

/-! ### Ports (R201, R344 to R351) -/

/-- Whether a port carries traffic (R353). -/
def State.portUp (s : State) (n : Nat) : Bool := (s.port n).st = .up || (s.port n).st = .degraded

/-- The stream from a partition to a peer partition (R346). -/
def streamKey (module rpart : Nat) : Nat := 128 * module + rpart

/-- Whether a failed tag has closed the streams of a partition with a peer partition (R346). -/
def Part.closedTo (x : Part) (module rpart : Nat) : Bool := x.closedStreams.any fun e => e.1 = streamKey module rpart

/-- The port, peer record and peer address of an address of a TGT 2 page; none where the peer table gives
no way (R347). -/
def State.peerRoute (s : State) (p pa : Nat) : Option (Nat × PeerRec × Nat) :=
  let i := pa / 2 ^ 40
  let e := smGet {} (s.part p).peers i
  let fr := pa / 65536 % 2 ^ 24
  if !e.valid || e.expsize ≤ fr || (s.part p).closedTo e.module e.rpart then none
  else if s.portUp e.port then some (e.port, e, e.expbase + pa % 2 ^ 40)
  else if e.altv && s.portUp e.altport then some (e.altport, e, e.expbase + pa % 2 ^ 40)
  else none

/-- The request tag of a lane's packet. -/
def etselTag (id l : Nat) : Nat := (id * 32 + l) % 65536

/-- The IV of the next packet of a stream: its identifier of 32 bits, then its counter of 64 bits, which starts at 1 (R346). -/
def State.nextIv (s : State) (p module rpart : Nat) : Nat :=
  let k := streamKey module rpart
  (Config.streamId (2 ^ 25 * p + k)).toNat * 2 ^ 64 + (smGet 0 (s.part p).ivs k + 1)

/-- A packet leaves by a port: NDATA counts its data flits of 32 bytes, and the counter of its stream's IV advances (R344, R346). -/
def State.sendPacket (s : State) (p port op : Nat) (hdr : EtselHdr) (data : List Byte) (poi : List Bool) (ctx grid : Nat) : State :=
  let k := streamKey hdr.dmod hdr.dpart
  (s.modPart p fun x => { x with ivs := smSet 0 x.ivs k (smGet 0 x.ivs k + 1) }).emit
    (.packet port op { hdr with ndata := (data.length + 31) / 32 } data poi ctx grid (s.nextIv p hdr.dmod hdr.dpart))

/-- Sends a lane's access to its peer: 0 read, 1 write, 2 atomic (R344). -/
def State.etselSend (s : State) (o : Op) (x : LaneOp) : State :=
  match s.peerRoute o.part (if x.l1 then x.pa / 64 * 64 else x.pa) with
  | none => (s.leave o x).laneError o x.lane
  | some (port, e, a) =>
    if (s.port port).xoff.contains 0 then s
    else
      let s := s.leave o x
      let (op, data) := if o.kind.load then (0, []) else if o.kind.store then (1, x.data) else (2, x.data ++ x.data2)
      let hdr : EtselHdr := {
        dmod := e.module, smod := s.flash.module, dpart := e.rpart, spart := o.part, tag := etselTag o.id x.lane,
        addr := BitVec.ofNat 64 a, actl := if op = 2 then o.f.imm &&& 0xFFFF else 0,
        bytes := (if op = 0 then if x.l1 then 64 else o.size else data.length) - 1 }
      (s.modLane o.id x.lane fun x => { x with phase := .sent, seq := s.time, port }).sendPacket o.part port op hdr data x.poi e.rctx e.rgrid

/-! ### The home -/

/-- Where a load at the home reads: the sequencer's copy, or for REPL the nearest replica; and whether the
earlier writes of the lane, or for an LDC those of every lane, stand there (R202, log 22). -/
def State.loadSrc (s : State) (o : Op) (x : LaneOp) : Nat × Bool :=
  match x.rep, o.repl with
  | some i, true =>
    let r := s.nearest o.part i (o.core / 4)
    match (s.repChans o.part i)[r]? with
    | some ch => (repPa x.pa ch, (smGet [] s.repLog (repKey o.part i r)).all fun w =>
        !(w.who = s.whoOf o.team o.k && (o.kind = .ldc || w.lane = x.lane)
          && w.bytes.any fun b => repPa x.pa ch ≤ b.1 && b.1 < repPa x.pa ch + o.size))
    | none => (x.pa, true)
  | _, _ => (s.seqPa o.part x.rep x.pa, true)

/-- The leaf that translates a lane's address at its tile now. -/
def State.leafNow (s : State) (o : Op) (x : LaneOp) : Option Xlate :=
  (s.xlate (o.core / 4) o.part x.ea.toNat).2

/-- Whether a lane's write falls on a page that is migrating (R203). -/
def State.onMigrating (s : State) (o : Op) (x : LaneOp) : Bool :=
  (o.kind.store || o.kind.atomic) && (match s.leafNow o x with | some l => leafMig l.leaf | none => false)

/-- An access whose way meets a link that is down is dropped there (R12, R333). -/
def State.loseLane (s : State) (o : Op) (x : LaneOp) : State :=
  ((s.leave o x).routeDrop o.part).modLane o.id x.lane fun x => { x with phase := .lost }

/-- The site to which an access goes from its tile: that of its home or of its port. -/
def State.waySite (s : State) (o : Op) (x : LaneOp) : Nat :=
  if x.tgt = 0 then s.homeSite (s.loadSrc o x).1
  else if x.tgt = 1 then s.portSite (s.part o.part).port x.pa
  else match s.peerRoute o.part x.pa with | some (port, _, _) => etselSite port | none => o.core / 4

/-- Whether the way of an access from its tile to its home or port meets a link that is down; of a fill also the way back. -/
def State.wayCut (s : State) (o : Op) (x : LaneOp) : Bool :=
  s.cut o.part (o.core / 4) (s.waySite o x) || (x.l1 && s.cut o.part (s.waySite o x) (o.core / 4))

/-- A lane has performed at a site that answers it: an answer whose way meets a link that is down is dropped there, and the access waits for
its error (R333). -/
def State.answer (s : State) (o : Op) (x : LaneOp) (site : Nat) (v : List Byte) (p : List Bool) : State :=
  let s := s.laneDone o x.lane v p
  if s.cut o.part site (o.core / 4) then (s.routeDrop o.part).modLane o.id x.lane fun x => { x with phase := .lost } else s

/-- An access at device memory: a fill, a read, a write, an atomic or a flush. -/
def State.devPerform (s : State) (o : Op) (x : LaneOp) : State :=
  let id := o.id
  if o.kind = .flush then
    let key := l1Key o.part x.ea.toNat
    let s' := if o.f.fn = 2 then s.l1Evict o.core key else s.lineWb o.core key
    let made := (List.range (s'.nextId - s.nextId)).map fun i => s.nextId + i
    let pa := s.seqPa o.part x.rep x.pa
    let s' := if o.f.fn = 1 && o.f.md.getLsbD 0 && x.tgt = 0 then
        if s'.cutBoth o.part (o.core / 4) (s'.homeSite pa) then (s'.routeDrop o.part).hostErr o.ctx
        else if s.owns o.part pa then s'.l2Clean o.ctx (pa / 256) else (s'.tagDrop o.part).hostErr o.ctx
      else s'
    (s'.laneDone o x.lane [] []).modOp id fun o => { o with checked := o.checked ++ made }
  else if o.kind.load then
    let src := s.loadSrc o x
    if !src.2 || (x.l1 && !s.fillReady o.core o.part x.pa x.rep o.repl) then s
    else if x.l1 then
      if s.l1Hit o x then s
      else
        let key := l1Key o.part x.ea.toNat
        let s := if s.oldBytes o x = 0 then s else s.setL1 o.core key ((s.l1 o.core key).drop (s.oldBytes o x))
        let r := s.l1Fetch o.core o.part o.ctx x.ea.toNat x.pa x.tgt x.rep o.repl x.cls
        if r.2 then r.1 else r.1.laneError o x.lane
    else
      match s.homeRd o.part o.ctx src.1 o.size x.cls with
      | (s, some (v, ps)) => s.answer o x (s.homeSite src.1) v ps
      | (s, none) => s.laneError o x.lane
  else if o.kind.store then
    let bs := wbytes (s.seqPa o.part x.rep x.pa) x.data x.poi
    match (s.leave o x).homeWr o.part o.ctx bs x.cls with
    | (s, true) =>
      (s.orderWr o.part x.rep id (if o.kind = .wback then none else s.whoOf o.team o.k) o.ctx o.core x.lane bs).answer o x (s.waySite o x) [] []
    | (s, false) => s.laneError o x.lane
  else if o.kind.atomic then
    (o.together x).foldl (fun s y =>
      let pa := s.seqPa o.part y.rep y.pa
      match s.homeRd o.part o.ctx pa o.size y.cls with
      | (s, none) => s.laneError o y.lane
      | (s, some (old, ps)) =>
        let n := atomNew o y old ps
        let bs := wbytes pa n.1 n.2
        (((s.homeWr o.part o.ctx bs y.cls).1).orderWr o.part y.rep id (s.whoOf o.team o.k) o.ctx o.core y.lane bs).answer o y
          (s.homeSite pa) old ps) s
  else s

/-- Whether a write to a host or remote page may go to its port: the group's earlier writes to that target have been accepted by
the port, and of one instruction those of lower lanes (R235). An atomic that waits for its release holds nothing (R229). -/
def State.portTurn (s : State) (o : Op) (x : LaneOp) : Bool :=
  !(o.kind = .st || o.kind.atomic) ||
    s.ops.all fun o' =>
      o'.k != o.k || o.id < o'.id || o'.rel.isSome || !(o'.kind = .st || o'.kind.atomic)
        || o'.lanes.all fun x' =>
          !((x'.phase = .waiting || x'.phase = .migrating) && x'.tgt = x.tgt && (x.tgt = 1 || x'.pa / 2 ^ 40 = x.pa / 2 ^ 40)
            && (o'.id != o.id || x'.lane < x.lane) && !x'.l1)

/-- Whether a write of a core at the home has to stay behind a store of it to the same bytes that has left and is not performed (R206,
R221). -/
def State.behindLeft (s : State) (o : Op) (x : LaneOp) : Bool :=
  !x.l1 && o.k < copyOwner 0 0 && (o.kind = .wback || (o.kind = .st && !x.left))
    && s.leftIn o.core (l1Key o.part x.ea.toNat) (lineMask (x.ea.toNat % 64) x.data.length)

/-- The channel whose home agent an access of global memory waits for. -/
def State.homeChan (s : State) (o : Op) (x : LaneOp) : Option Nat :=
  if x.tgt = 0 && x.phase = .waiting && o.rel.isNone && o.kind.space = .global && o.kind != .flush && s.laneClear o x
      && !(x.l1 && (o.kind = .st || s.l1Hit o x)) then some ((s.loadSrc o x).1 / 2 ^ 32)
  else none

/-- The partitions other than `p` that have requests waiting at the home agent of a channel (R357). -/
def State.rivals (s : State) (p ch : Nat) : List Nat :=
  ((s.ops.filter fun o => o.part != p && o.lanes.any fun x => s.homeChan o x = some ch).map fun o => o.part).eraseDups

/-- BWSHARE of a partition; 0 acts as 1 (R357). -/
def State.bwShare (s : State) (p : Nat) : Nat := max 1 (s.part p).desc.bwshare

/-- Whether the home agent of a channel serves a partition next: with requests of several partitions waiting each has in a round as many as
its BWSHARE says, and the next round starts when none that waits has any left (R357). -/
def State.homeTurn (s : State) (p ch : Nat) : Bool :=
  let r := smGet [] s.served ch
  smGet 0 r p < s.bwShare p || (s.rivals p ch).all fun q => s.bwShare q ≤ smGet 0 r q

/-- The home agent serves a request of a partition: it counts in the round while others wait (R357). -/
def State.homeServe (s : State) (p ch : Nat) : State :=
  if (s.rivals p ch).isEmpty then s
  else
    { s with served := smMod [] s.served ch fun r => if smGet 0 r p < s.bwShare p then smSet 0 r p (smGet 0 r p + 1) else smSet 0 [] p 1 }

/-- HOME_ACCESS of one lane: at device memory, at the host port or towards a peer. A fill waits for bytes of its line that
are on their way home (R206); a write to a line that the host caches first sends a back-invalidate (R351); a write to a migrating
page is held there (R203); the home agent serves the partitions in turn (R357). -/
def State.homeAccess (s : State) (o : Op) (x : LaneOp) : State :=
  if x.phase != .waiting || o.rel.isSome || o.kind.space != .global then s
  else
    let s := if x.l1 || o.kind = .wback || copyOwner 0 0 ≤ o.k then s else s.l1Flush o.core o.part x.ea.toNat o.size
    let key := l1Key o.part x.ea.toNat
    let held : Nat := if x.held = 0 then s.nextId else x.held
    if !s.laneClear o x || (x.l1 && (o.kind = .st || (o.kind.load && (s.l1Hit o x || s.lineLeaving o.core key)))) || s.behindLeft o x then s
    else if o.kind != .flush && s.wayCut o x then s.loseLane o x
    else if x.tgt = 0 then
      if s.onMigrating o x then
        let s := (s.leave o x).modLane o.id x.lane fun x => { x with phase := .migrating, held }
        ({ s with nextId := s.nextId + 1 } : State).modGrp o.k fun g =>
          if g.st = .ready || g.st = .held then { g with st := .held, hold := .migrating } else g
      else if (o.kind.store || o.kind.atomic) && s.hostLines.contains (s.seqPa o.part x.rep x.pa / 64) then
        ({ ((s.leave o x).modLane o.id x.lane fun x => { x with phase := .inval, held }) with nextId := s.nextId + 1 } : State).emit
          (.backInvalidate (s.seqPa o.part x.rep x.pa / 64 * 64))
      else
        match s.homeChan o x with
        | none => s.devPerform o x
        | some ch => if s.homeTurn o.part ch then (s.homeServe o.part ch).devPerform o x else s
    else if o.kind = .flush then s.devPerform o x
    else if !s.portTurn o x then s
    else if x.tgt = 1 then
      if !s.portUp (s.part o.part).port then (s.leave o x).laneError o x.lane
      else if o.kind.store then
        ((s.leave o x).modLane o.id x.lane fun x => { x with phase := .sent, seq := s.time }).emit (.hostWrite x.pa x.data x.poi)
      else if x.l1 then s.devPerform o x
      else
        let (s, v) := s.freeBytes o.size
        s.answer o x (s.waySite o x) v []
    else if o.kind.atomic then (o.together x).foldl (fun s y => s.etselSend o y) s
    else s.etselSend o x

/-- A step of one lane of an operation, where both exist. -/
def State.onLane (s : State) (id l : Nat) (f : Op → LaneOp → State) : State :=
  match s.op? id with
  | none => s
  | some o => match o.lane? l with
              | none => s
              | some x => f o x

/-- HOME_ACCESS (R206, R219). -/
def execHomeAccess (id lane : Nat) (s : State) : Res := .next (s.onLane id lane fun o x => s.homeAccess o x)

/-- FCLK in a microsecond (R378). -/
def fclkPerUs : Nat := 1800

/-- The context for which a miss is walked: that of its group or of its copy. -/
def State.missCtx (s : State) (m : Miss) : Nat :=
  if copyOwner 0 0 ≤ m.k then ((s.copies.find? fun c => copyOwner c.id c.site = m.k).map fun c => c.team % 4096).getD noCtx else (s.grp m.k).ctx

/-- PAGE_WALK: the walker of a tile takes the first miss, that of this page: the table's leaf, as it stands now, goes to the TLB, or
those that wait for it find none. Misses to one page share the walk (R191). A read of the table that the firewall drops ends with an
error and finds none, and so does one that is lost on the mesh, 100 µs later (R201, R333, R356). -/
def execPageWalk (site part : Nat) (va : Word) (s : State) : Res :=
  .next (
    let n := va.toNat / 65536
    match (s.tile site).walks.find? fun m => !m.none with
    | none => s
    | some m =>
      if m.part != part || m.page != n then s
      else
        let hit (m : Miss) : Bool := m.part = part && m.page = n
        let upd (s : State) (f : Miss → Miss) : State := s.modTile site fun c => { c with walks := c.walks.map fun m => if hit m then f m else m }
        let err (s : State) : State := upd (s.hostErr (s.missCtx m)) fun m => { m with none := true }
        match m.lost with
        | some t => if t.toNat + 100 * fclkPerUs ≤ s.time.toNat then err s else s
        | none =>
          match s.xlate site part (65536 * n) with
          | (s, some _) => s.modTile site fun c => { c with walks := c.walks.filter fun m => !hit m }
          | (s, none) =>
            match s.walkAt site part (65536 * n) with
            | .dropped a =>
              if s.owns part a then upd (s.routeDrop part) fun m => { m with lost := some s.time } else err (s.tagDrop part)
            | _ => upd s fun m => { m with none := true })

/-- WRITEBACK_PERFORM: the dirty bytes of an L1 line are performed at their home (R194, R222). -/
def execWritebackPerform (core line : Nat) (s : State) : Res := .next (s.writeback core line)

/-- REPLICA_APPLY: the next write in the sequencer's order is applied at a replica, for the context that made it (R200, R202); a line that
the host caches is back-invalidated first (R351). -/
def execReplicaApply (part idx rep : Nat) (s : State) : Res :=
  .next (match smGet [] s.repLog (repKey part idx rep) with
    | [] => s
    | w :: q =>
      (({ s with repLog := smSet [] s.repLog (repKey part idx rep) q } : State).hostInval (w.bytes.map Prod.fst)).chanWr w.ctx w.bytes 0)

/-- Whether an access held at a migrating page comes before another of it: it was held there before it (R203). -/
def heldBefore (l : Xlate) (o : Op) (x : LaneOp) (o' : Op) (y : LaneOp) : Bool :=
  (y.phase = .migrating || y.phase = .inval || (y.phase = .waiting && y.held != 0))
    && o'.part = o.part && (y.pa / 65536 = x.pa / 65536 || (l.base ≤ y.ea.toNat && y.ea.toNat < l.base + l.size))
    && (y.held < x.held || (y.held = x.held && y.lane < x.lane))

/-- MIGRATION_REPLAY: a held access is translated again and performed at the new frame, those that were held at its page before it
first (R203). -/
def execMigrationReplay (id lane : Nat) (s : State) : Res :=
  .next (s.onLane id lane fun o x =>
    match s.leafNow o x with
    | some l =>
      let first := s.ops.all fun o' => o'.lanes.all fun y => !heldBefore l o x o' y
      if x.phase = .migrating && first && !leafMig l.leaf then
        let x' := { x with phase := .waiting, pa := l.pa, tgt := leafTgt l.leaf, rep := leafRep l.leaf }
        let s := s.modOp id fun o => { o with lanes := o.lanes.map fun y =>
          if y.lane = lane then x'
          else if o.kind.atomic && y.phase = .migrating && y.ea = x.ea then
            { y with phase := .waiting, pa := l.pa, tgt := leafTgt l.leaf, rep := leafRep l.leaf } else y }
        let s := match s.op? id with | some o => s.homeAccess o x' | none => s
        if s.ops.any fun o' => o'.k = o.k && o'.lanes.any fun y => y.phase = .migrating then s
        else s.modGrp o.k fun g => if g.hold = .migrating then { g with st := .ready, hold := .none } else g
      else s
    | none => s)

/-- HOST_PORT_COMPLETION: the host's completion performs a write to host memory (R219); a back-invalidate
response lets the device write go on (R351). -/
def execHostPortCompletion (id lane : Nat) (s : State) : Res :=
  .next (s.onLane id lane fun o x =>
    if x.phase = .inval then
      let ln := s.seqPa o.part x.rep x.pa / 64
      { (s.modLane id lane fun x => { x with phase := .waiting }) with hostLines := s.hostLines.filter (· != ln) }
    else if x.phase = .sent && x.tgt = 1 then s.answer o x (s.waySite o x) [] []
    else s)

/-- HOST_ACCESS_ERROR: an access to the host or to a peer ends with an error completion (R201). -/
def execHostAccessError (id lane : Nat) (s : State) : Res :=
  .next (s.onLane id lane fun o x =>
    if x.tgt != 0 && (x.phase = .sent || x.phase = .waiting) && o.rel.isNone then s.laneError o lane else s)

/-- Completion timeout of a port in FCLK (R354). -/
def Port.timeout (p : Port) : Nat := clampNat 50 64000 p.cto.toNat * fclkPerUs
where
  /-- A number brought into a range. -/
  clampNat (lo hi n : Nat) : Nat := max lo (min hi n)

/-- LOST_ACCESS_TIMEOUT: an access whose flit was lost ends as an error 100 µs after issue (R333). -/
def execLostAccessTimeout (id lane : Nat) (s : State) : Res :=
  .next (s.onLane id lane fun o x =>
    if x.phase = .lost && o.time.toNat + 100 * fclkPerUs ≤ s.time.toNat then s.laneError o lane else s)

/-! ### Bank memory (R187, R217) -/

/-- A contribution or more are dropped and counted (R200, R217). -/
def State.bredDrop (s : State) (c n : Nat) : State := if n = 0 then s else (s.ctxCount c 4 n).ctxEvent c 6

/-- A write of any of bytes 8 to 15 of a cell discards the contributions held for it (R217). -/
def State.bredClear (s : State) (p off n : Nat) : State :=
  let hit (e : BredEnt) : Bool := e.part = p && off < e.cell + 16 && e.cell + 8 < off + n
  (s.bred.filter hit).foldl (fun s e => s.bredDrop e.ctx 1) { s with bred := s.bred.filter fun e => !hit e }

/-- The bank of a 64-byte unit under the bank-address hash table of its partition, as site and number (R187; log 23): its reorder window is
shared by the cells of the bank (R217). -/
def State.bankOf (s : State) (p cell : Nat) : Nat × Nat :=
  (s.part p).hash.getD (cell / 64 % max 1 (s.part p).hash.length) (0, 0)

/-- The site of the bank that holds an offset of the bank memory. -/
def State.bankSite (s : State) (p off : Nat) : Nat := (s.bankOf p off).1

/-- Whether the way of an access from its tile to its bank meets a link that is down (R333). -/
def State.bankCut (s : State) (o : Op) (x : LaneOp) : Bool := s.cut o.part (o.core / 4) (s.bankSite o.part x.pa)

/-- A lane has performed at its bank, which answers it. -/
def State.bankAnswer (s : State) (o : Op) (x : LaneOp) (v : List Byte) (p : List Bool) : State := s.answer o x (s.bankSite o.part x.pa) v p

/-- BANK_ACCESS: a lane performed at its bank (R187); while the bank words move for a growth it is held at its tile (R361). -/
def State.bankAccess (s : State) (o : Op) (x : LaneOp) : State :=
  if x.phase != .waiting || o.rel.isSome || (s.part o.part).grow.isSome || o.kind.space != .bank || o.kind = .bred || !s.laneClear o x then s
  else if s.bankCut o x then s.loseLane o x
  else if o.kind = .ldb then
    let (s, v, ps) := s.rdStore o.ctx .bank (bankAddr o.part x.pa) o.size
    s.bankAnswer o x v ps
  else if o.kind = .stb then
    ((s.wrStore o.ctx .bank (wbytes (bankAddr o.part x.pa) x.data x.poi)).bredClear o.part x.pa o.size).bankAnswer o x [] []
  else
    (o.together x).foldl (fun s y =>
      let (s, old, ps) := s.rdStore o.ctx .bank (bankAddr o.part y.pa) o.size
      let n := atomNew o y old ps
      let s := s.wrStore o.ctx .bank (wbytes (bankAddr o.part y.pa) n.1 n.2)
      (if o.kind = .atomb then s.bredClear o.part y.pa o.size else s).bankAnswer o y old ps) s

/-- BANK_ACCESS (R187). -/
def execBankAccess (id lane : Nat) (s : State) : Res := .next (s.onLane id lane fun o x => s.bankAccess o x)

/-- Applies a contribution of a context and then the held ones that follow, at most `fuel`; the words are read on behalf of each
one's context (R200, R217). -/
def bredApply (p cell ty c : Nat) : Nat → Word → State → State
  | 0, _, s => s
  | fuel + 1, x, s =>
    let a := bankAddr p cell
    let n := atomSize ty
    let (s, old, ps) := s.rdStore c .bank a n
    let s := s.wrStore c .bank (wbytes a (leBytes n (atomValue 0 ty (leNat old) (x.toNat % 2 ^ (8 * n)) 0)) (List.replicate n (ps.any id)))
    let next := memLoad s.bank (a + 8) 8 + 1
    let s := s.wrStore c .bank (wbytes (a + 8) (leBytes 8 next) (List.replicate 8 (smGet false s.bpoi (a / 8 + 1))))
    let hit (e : BredEnt) : Bool := e.part = p && e.cell = cell && e.q.toNat = next % 2 ^ 64
    match s.bred.find? hit with
    | none => s
    | some e => bredApply p cell e.ty e.ctx fuel e.x { s with bred := s.bred.filter fun e => !hit e }

/-- BRED_CONTRIBUTION: dropped, applied, held, or to be resent (R217). -/
def State.bredArrive (s : State) (o : Op) (x : LaneOp) : State :=
  if x.phase != .waiting || o.rel.isSome || (s.part o.part).grow.isSome || o.kind != .bred || !s.laneClear o x then s
  else if s.bankCut o x then s.loseLane o x
  else
    let a := bankAddr o.part x.pa
    let (s, nb, _) := s.rdStore o.ctx .bank (a + 8) 8
    let next := leNat nb
    let q := x.seq.toNat
    let v : Word := BitVec.ofNat 64 (leNat x.data)
    if q < next || s.bred.any (fun e => e.part = o.part && e.cell = x.pa && e.q = x.seq) then
      (s.bredDrop o.ctx 1).bankAnswer o x [] []
    else if q = next then (bredApply o.part x.pa o.f.atype o.ctx (s.bred.length + 1) v s).bankAnswer o x [] []
    else if q < next + 64 && (s.bred.countP fun e => e.part = o.part && s.bankOf o.part e.cell = s.bankOf o.part x.pa) < 64 then
      ({ s with bred := s.bred ++ [{ part := o.part, cell := x.pa, q := x.seq, x := v, ty := o.f.atype, ctx := o.ctx }] } : State).bankAnswer
        o x [] []
    else s.modLane o.id x.lane fun x => { x with phase := .resend }

/-- BRED_CONTRIBUTION (R217). -/
def execBredContribution (id lane : Nat) (s : State) : Res := .next (s.onLane id lane fun o x => s.bredArrive o x)

/-- BRED_RESEND: the issuing tile sends the contribution again (R217). -/
def execBredResend (id lane : Nat) (s : State) : Res :=
  .next (s.onLane id lane fun _ x =>
    if x.phase = .resend then s.modLane id lane fun x => { x with phase := .waiting } else s)

/-! ### Landing and completion (R39, R90, R199, R207) -/

/-- The registers of a load's bytes: zero- or sign-extended below 8 bytes (R208), with poison by byte. -/
def landRegs (size : Nat) (sx : Bool) (v : List Byte) (ps : List Bool) : List Reg :=
  let one (v : List Byte) (ps : List Bool) (n : Nat) : Reg :=
    let x := leNat (v.take n)
    { val := BitVec.ofNat 64 (if sx then wrapTo 64 (sext x (8 * n)) else x),
      poi := BitVec.ofFnLE fun i : Fin 8 => ps.getD i false }
  if size ≤ 8 then [one v ps size]
  else (List.range (size / 8)).map fun i => one (v.drop (8 * i)) ((ps.drop (8 * i)).take 8) 8

/-- Writes the landed registers of a lane. -/
def Group.landLane (g : Group) (o : Op) (x : LaneOp) : Group :=
  let rs := landRegs o.size (o.kind.load && o.f.md.getLsbD 3) x.val x.vpoi
  if o.kind = .ldc then g.wrS o.f.d.toNat (rs.headD {})
  else (rs.zipIdx).foldl (fun g r => g.wrV (o.f.d.toNat + r.2) (1 <<< x.lane) fun _ => r.1) g

/-- MEMORY_RESPONSE of one lane: a local access is performed; a performed value lands; a failed ACAS sets
the lane's yield bit (R90). -/
def State.memResponse (s : State) (o : Op) (x : LaneOp) : State :=
  let s := s.localPerform o x
  s.onLane o.id x.lane fun o x =>
    if x.phase != .performed then s
    else
      let s := s.modLane o.id x.lane fun x => { x with phase := .done }
      let s := if o.kind = .fill then
          s.modGrp o.k fun g => g.mapLanes (1 <<< x.lane) fun _ l => { l with fill := some ((landRegs 8 false x.val x.vpoi).headD {}) }
        else if o.wr.isEmpty then s else s.modGrp o.k fun g => g.landLane o x
      if o.kind = .acas && !x.data.isEmpty && leNat x.val != leNat x.data then
        s.modGrp o.k fun g =>
          (g.mapLanes (1 <<< x.lane) fun _ l => if l.st = .live then { l with yld := true } else l).settle
      else s

/-- MEMORY_RESPONSE (R207). -/
def execMemoryResponse (id lane : Nat) (s : State) : Res := .next (s.onLane id lane fun o x => s.memResponse o x)

/-- RELEASE_ATOMIC_PERFORM: the release of an atomic is complete, and it is performed (R229). -/
def execReleaseAtomicPerform (id : Nat) (s : State) : Res :=
  .next (match s.op? id with
    | some o =>
      match o.rel with
      | some r => if s.relDone r then s.modOp id fun o => { o with rel := none } else s
      | none => s
    | none => s)

/-- Whether every lane of an operation is complete under R207. -/
def State.opReady (s : State) (o : Op) : Bool :=
  o.rel.isNone && (s.ops.all fun o' => !o.checked.contains o'.id)
    && o.lanes.all fun x => x.phase = .done || (x.phase = .performed && o.wr.isEmpty && o.kind != .acas)

/-- An operation completes: its slot is lowered, its flags are set, and the acquire of an atomic acts (R39,
R76, R229); what a copy has read goes to its element (R252). -/
def State.retire (s : State) (o : Op) : State :=
  let s := { s with ops := s.ops.filter fun o' => o'.id != o.id }
  let s := match o.acq with | some sc => s.acquire o.core sc | none => s
  if o.kind = .wback then s
  else if copyOwner 0 0 ≤ o.k then
    { s with copies := s.copies.map fun c =>
        if copyOwner c.id c.site = o.k then { c with got := (o.lanes.map fun x => (o.addr.toNat, x.val, x.vpoi)) ++ c.got } else c }
  else s.modGrp o.k fun g => (g.flag o.flags).lowerSb o.sbs

/-- SCOREBOARD_COMPLETION: stores that stand in L1 or the scratchpad are performed, and the operation
completes when every lane has (R39, R207). -/
def execScoreboardCompletion (id : Nat) (s : State) : Res :=
  .next (match s.op? id with
    | none => s
    | some o =>
      if o.kind = .queue then s
      else
        let s := if o.kind.store then
            o.lanes.foldl (fun s x => match s.op? id with | some o => s.localPerform o x | none => s) s else s
        match s.op? id with
        | some o => if s.opReady o then s.retire o else s
        | none => s)

/-- RESULT_LANDING: the fixed-latency results of a group that are due land (R37, R76). -/
def execResultLanding (k : Nat) (s : State) : Res :=
  .next (s.modGrp k fun g => g.landIf fun p => p.land.toNat ≤ s.time.toNat)

/-! ### The host (R236, R351) -/

/-- HOST_WRITE: a host write to device memory is performed at the home when it arrives (R236): it is no device write, so no line is
back-invalidated for it (R351). One whose way from the port to the home meets a link that is down is dropped there (R333). -/
def execHostWrite (tag pa : Nat) (data : List Byte) (s : State) : Res :=
  .next (if !s.portUp (s.part tag).port then s
    else if s.cut tag (s.hostSite (s.part tag).port pa) (s.homeSite pa) then s.routeDrop tag
    else (s.homePutAll false tag noCtx (wbytes pa data []) 0).1)

/-- HOST_READ: a host read of device memory; on a CXL port the home tracks the lines that the host now caches, on a PCI Express port the host
caches none (R351; DEDUCED, log 106). A request or answer that meets a link that is down is dropped there (R333). -/
def execHostRead (tag pa n : Nat) (s : State) : Res :=
  .next (if !s.portUp (s.part tag).port then s
    else if s.cutBoth tag (s.hostSite (s.part tag).port pa) (s.homeSite pa) then s.routeDrop tag
    else
      match s.homeRd tag noCtx pa n 0 with
      | (s, none) => s
      | (s, some (v, ps)) =>
        let lns := (List.range (if n = 0 then 0 else (pa + n - 1) / 64 - pa / 64 + 1)).map fun i => pa / 64 + i
        (if (s.port (s.part tag).port).cxl then
            { s with hostLines := s.hostLines ++ lns.filter fun l => !s.hostLines.contains l }
         else s).emit (.hostData v ps))

end Sys2Proof.Machine
end

