-- ==== Sys2Proof/Machine/Control.lean ====
section
/-!
DEFINITION. VOTE, transfers of control with the return stacks, waiting and ending, safe points and pins,
traps by instruction, special registers and reserved opcodes (R43, R97, R116 to R129).
-/

namespace Sys2Proof.Machine

/-! ### VOTE (R116) -/

/-- VOTE over its participants: 0 any, 1 all, 2 ballot. -/
def voteBody (env : Env) (s : State) : Out :=
  let g := s.grp env.k
  let m := g.rdP env.f.a.toNat &&& env.e
  if env.f.fn = 2 then .regs (g.wrS env.f.d.toNat (.of (m.zeroExtend 64))) 0 0
  else .regs (g.wrP env.f.d.toNat env.e (if (env.f.fn = 0 && m != 0) || (env.f.fn = 1 && m = env.e) then allLanes else 0)) 0 0

/-! ### Branches (R117 to R119, R121) -/

/-- F18 of word 0, signed. -/
def f18 (f : Fields) : Int := (f.b.extractLsb' 0 6 ++ f.a.extractLsb' 0 6 ++ f.d.extractLsb' 0 6 : BitVec 18).toInt
/-- F12 of word 0, signed. -/
def f12 (f : Fields) : Int := (f.b.extractLsb' 0 6 ++ f.a.extractLsb' 0 6 : BitVec 12).toInt
/-- A target at a word offset from the instruction, modulo 2^56. -/
def Env.target (env : Env) (off : Int) : Word :=
  BitVec.ofNat 64 (((env.pc.toNat : Int) + 4 * (off + env.f.disp)) % 2 ^ 56).toNat

/-- Lanes of E go to `t`, the others of the path to the next instruction. -/
def Env.goTo (env : Env) (t : Word) (l : LaneId) : Word := if env.e.getLsbD l then t else env.nxt

/-- BRA. -/
def braBody (env : Env) (s : State) : Out := .pcs s (env.goTo (env.target (f18 env.f)))

/-- BRP: the condition over E by XF. -/
def brpBody (env : Env) (s : State) : Out :=
  let m := (s.grp env.k).rdP env.f.d.toNat &&& env.e
  let holds : Bool :=
    match env.f.xf.toNat with
    | 0 => m != 0
    | 1 => m = env.e
    | 2 => m = 0
    | _ => m != env.e
  .pcs s (if holds then env.goTo (env.target (f12 env.f)) else fun _ => env.nxt)

/-- The register target of BRX and CALLX in a lane, and whether the register is poisoned, which reads as 0
(R106). -/
def regTarget (env : Env) (g : Group) (l : LaneId) : Word × Bool :=
  let r := env.srcA g l
  ((if r.bad then 0 else r.val) + BitVec.ofInt 64 env.f.disp, r.bad)

/-- A target that R119 refuses. -/
def badTarget (t : Word) : Bool := t.toNat % 4 != 0 || t.toNat / 2 ^ 56 != 0

/-- BRX. With sr.ctl.pt a poisoned register in any lane comes before the ALIGN of another (DESIGN CHOICE, log 81). -/
def brxBody (env : Env) (s : State) : Out :=
  let g := s.grp env.k
  let cons := consOf env.e fun l => if (regTarget env g l).2 then 1 else 0
  poisonGate env s cons
    (match (laneList env.e).find? fun l => badTarget (regTarget env g l).1 with
      | some l => .trap causeAlign (regTarget env g l).1 0 (s.consume env.k cons)
      | none => .pcs (s.consume env.k cons) fun l => if env.e.getLsbD l then (regTarget env g l).1 else env.nxt)

/-- LOOP. -/
def loopBody (env : Env) (s : State) : Out :=
  let g := s.grp env.k
  let r := g.rdS env.f.d.toNat
  let bad := r.bad
  let cnt : Word := if bad then 0 else r.val - 1
  poisonGate env s (if bad then 1 else 0)
    (.pcs ((s.setGrp env.k (g.wrS env.f.d.toNat (if bad then .poisoned else .of cnt))).consume env.k (if bad then 1 else 0))
      (if cnt = 0 then fun _ => env.nxt else env.goTo (env.target (f12 env.f))))

/-! ### Return stacks (R97, R120) -/

/-- What one lane of CALL, CALLX or RET does: it is done and goes to an address, it faults, it waits, or it first has to read
its return address from the host or a peer. -/
inductive CallRes where
  | done (s : State) (t : Word)
  | fault (s : State) (cause : Nat) (addr : Word)
  | wait
  | ask (lo : LaneOp)

/-- The lanes of CALL, CALLX or RET as far as they are done: the state, the lanes done and their targets, the first fault,
whether a lane has to wait, and the fills to ask for. -/
structure CallAcc where
  s     : State
  done  : List (LaneId × Word) := []
  fault : Option (Nat × Word) := none
  wait  : Bool := false
  ask   : List LaneOp := []

/-- sr.trapaddr of STACK_SPILL: the nested cause above the address. -/
def spillAddr (cause : Nat) (a : Word) : Word := BitVec.ofNat 64 (cause * 2 ^ 58 + a.toNat % 2 ^ 56)

/-- The address of entry `n` of a lane's spill region. -/
def spillEntry (g : Group) (l : LaneId) (n : Nat) : Word :=
  BitVec.ofNat 64 (g.bind.stack + l * g.bind.spillCap * 8 + n * 8)

/-- The 8-byte access of a spill or fill of a lane, translated. -/
def spillLane (l : LaneId) (a : Word) (x : Xlate) : LaneOp :=
  { lane := l, ea := a, pa := x.pa, tgt := leafTgt x.leaf, rep := leafRep x.leaf }

/-- Whether a spill or fill has to wait for an earlier access of the lane to those bytes (R206). -/
def State.spillWaits (s : State) (k : Nat) (lo : LaneOp) (st : Bool) : Bool :=
  !s.laneClear { id := s.nextId, k, kind := if st then .st else .ld, size := 8 } lo

/-- Whether a spill is performed at its home in the FCLK of its CALL: its page is in device memory and not migrating, no link of its way is
down, and nothing at the home or in the core is before it. Any other spill is a store of the group in flight. -/
def State.spillNow (s : State) (k p : Nat) (lo : LaneOp) (x : Xlate) : Bool :=
  lo.tgt = 0 && !leafMig x.leaf && !s.cutBoth p (siteOf k) (s.homeSite (s.seqPa p lo.rep lo.pa))
    && !s.leftIn (coreOf k) (l1Key p lo.ea.toNat) (lineMask (lo.ea.toNat % 64) 8) && !s.hostLines.contains (s.seqPa p lo.rep lo.pa / 64)

/-- The address that CALL, CALLX or RET spills to or fills from in a lane (R97). -/
def spillAt (g : Group) (l : LaneId) (push : Bool) : Option Word :=
  let ln := g.lane[l]
  if push then (if ln.hw.length < 8 || ln.spilled.toNat = g.bind.spillCap then none else some (spillEntry g l ln.spilled.toNat))
  else if ln.hw.isEmpty && ln.spilled != 0 then some (spillEntry g l (ln.spilled.toNat - 1)) else none

/-- A return address is pushed; a full hardware stack first spills its oldest entry at the home, which updates an L1 copy as a store
there does (R97, R208): at once where nothing stands in the way, and otherwise as a store of the group in flight, in the group's order at a
port (R235) and held at a migrating page (R203). -/
def pushCall (env : Env) (s : State) (l : LaneId) (t : Word) : CallRes :=
  let g := s.grp env.k
  let ln := g.lane[l]
  let push (s : State) (n : BitVec 32) (hw : List Word) : CallRes :=
    .done (s.modGrp env.k fun g => g.mapLanes (1 <<< l.val) fun _ x => { x with hw := (env.nxt :: hw), spilled := n }) t
  if ln.hw.length < 8 then push s ln.spilled ln.hw
  else
    let a := spillEntry g l ln.spilled.toNat
    if ln.spilled.toNat = g.bind.spillCap then .fault s causeSpill (spillAddr causePerm a)
    else
      let p := (s.ctx g.ctx).part
      match s.globalCheck (siteOf env.k) p a .store with
      | (s, .error c) => .fault s causeSpill (spillAddr c a)
      | (s, .ok x) =>
        let lo := spillLane l a x
        if s.spillWaits env.k lo true then .wait
        else
          let v := leBytes 8 (ln.hw.getLastD 0).toNat
          let s := s.l1Flush (coreOf env.k) p a.toNat 8
          let s := if s.spillNow env.k p lo x then
              let bs := wbytes (s.seqPa p lo.rep lo.pa) v []
              match (s.l1Update (coreOf env.k) p { lo with data := v }).homeWr p g.ctx bs 0 with
              | (s, true) =>
                { (s.orderWr p lo.rep s.nextId (s.whoOf g.team env.k) g.ctx (coreOf env.k) l bs) with nextId := s.nextId + 1 }
              | (s, false) => s.hostErr g.ctx
            else
              { s with
                ops := s.ops ++ [{ id := s.nextId, k := env.k, kind := .st, part := p, team := g.team, size := 8, time := s.time,
                                   lanes := [{ lo with data := v }] }]
                nextId := s.nextId + 1 }
          push s (ln.spilled + 1) ln.hw.dropLast

/-- A return address is popped, from the spill region where the hardware stack is empty; at depth 0 the lane
exits (R97, R120). -/
def popRet (env : Env) (s : State) (l : LaneId) : CallRes :=
  let g := s.grp env.k
  let ln := g.lane[l]
  let upd (s : State) (f : Lane → Lane) : State := s.modGrp env.k fun g => g.mapLanes (1 <<< l.val) fun _ x => f x
  let finish (s : State) (t : Word) : CallRes :=
    if t.toNat % 4 != 0 then .fault s causeAlign t else .done s t
  match ln.hw with
  | t :: hw => finish (upd s fun x => { x with hw }) t
  | [] =>
    if ln.spilled = 0 then .done (upd s fun x => { x with st := .exited, yld := false }) env.nxt
    else
      let a := spillEntry g l (ln.spilled.toNat - 1)
      let p := (s.ctx g.ctx).part
      match s.globalCheck (siteOf env.k) p a .load with
      | (s, .error c) => .fault s causeSpill (spillAddr c a)
      | (s, .ok x) =>
        let lo := spillLane l a x
        if s.spillWaits env.k lo false then .wait
        else if ln.fill.isNone && (lo.tgt != 0 || s.cutBoth p (siteOf env.k) (s.homeSite (s.seqPa p lo.rep lo.pa))) then .ask lo
        else
          let s := s.l1Flush (coreOf env.k) p a.toNat 8
          let (s, v, bad) : State × List Byte × Bool :=
            match ln.fill with
            | some r => (upd s fun x => { x with fill := none }, leBytes 8 r.val.toNat, r.bad)
            | none =>
              match s.homeRd p g.ctx (s.seqPa p lo.rep lo.pa) 8 0 with
              | (s, some (v, ps)) => (s, v, ps.any id)
              | (s, none) => (s.hostErr g.ctx, [], true)
          let s := s.consume env.k (if bad then 1 else 0)
          if bad && g.pt then .fault s causePoison env.pc
          else finish (upd s fun x => { x with spilled := x.spilled - 1 }) (if bad then 0 else BitVec.ofNat 64 (leNat v))

/-- The lanes of E one after the other. -/
def callLanes (one : State → LaneId → CallRes) (ls : List LaneId) (s : State) : CallAcc :=
  ls.foldl (fun r l =>
    match one r.s l with
    | .done s t => { r with s, done := r.done ++ [(l, t)] }
    | .fault s c a => { r with s, fault := r.fault.or (some (c, a)) }
    | .wait => { r with wait := true }
    | .ask lo => { r with ask := r.ask ++ [lo] }) { s }

/-- Reads of return addresses from the host or a peer, each a lane's access of its own; the RET waits for them (R97, R201). -/
def State.askFills (s : State) (env : Env) (los : List LaneOp) : State :=
  if (s.opsOf env.k).any fun o => o.kind = .fill then s
  else
    let g := s.grp env.k
    { s with
      ops := s.ops ++ [{ id := s.nextId, k := env.k, kind := .fill, part := (s.ctx g.ctx).part, team := g.team, size := 8, lanes := los, time := s.time }]
      nextId := s.nextId + 1 }

/-- CALL, CALLX and RET: per-lane restartable (R99); lanes done in an earlier, trapped execution go where it
sent them. `push` tells a call from a return. -/
def callBody (push : Bool) (one : Env → State → LaneId → CallRes) (env : Env) (s : State) : Out :=
  let g := s.grp env.k
  withWalks env s ((laneList env.e).filterMap fun l => (spillAt g l push).map BitVec.toNat) fun s =>
  let r := callLanes (one env) (laneList env.e) s
  if r.wait then .hold .regs
  else if r.ask != [] then .wait .access (s.askFills env r.ask)
  else
    match r.fault with
    | some (c, a) =>
      .trap c a ((r.done.map Prod.fst).foldl (fun m l => m ||| (1 <<< l.val)) g.donemask)
        (r.done.foldl (fun s x => s.modGrp env.k fun g => g.mapLanes (1 <<< x.1.val) fun _ l => { l with tgt := some x.2 }) r.s)
    | none =>
      .pcs r.s fun l =>
        match r.done.find? fun x => x.1 = l with
        | some x => x.2
        | none => g.doneTarget env.nxt l

/-- CALL. -/
def callOne (env : Env) (s : State) (l : LaneId) : CallRes := pushCall env s l (env.target (f18 env.f))

/-- CALLX: the ALIGN check of R119 first, then the spill. -/
def callxOne (env : Env) (s : State) (l : LaneId) : CallRes :=
  let g := s.grp env.k
  let (t, bad) := regTarget env g l
  let s := s.consume env.k (if bad then 1 else 0)
  if bad && g.pt then .fault s causePoison env.pc
  else if badTarget t then .fault s causeAlign t
  else pushCall env s l t

/-! ### Waiting and ending (R122 to R127) -/

/-- Sets the yield bits of E. -/
def State.yieldE (s : State) (env : Env) : State :=
  s.modGrp env.k fun g => g.mapLanes env.e fun _ l => { l with yld := true }

/-- YIELD. -/
def yieldBody (env : Env) (s : State) : Out := .next (s.yieldE env)

/-- SLEEP: the group is held until its time, a wake, a hold, a stop or a kill. -/
def sleepBody (env : Env) (s : State) : Out :=
  let r := env.srcB (s.grp env.k) 0
  let t := if r.bad then 0 else min r.val.toNat (2 ^ 32 - 1)
  let s' := (s.yieldE env).consume env.k (if r.bad then 1 else 0)
  poisonGate env s (if r.bad then 1 else 0)
    (if t = 0 then .next s'
     else .held .sleep (s'.modGrp env.k fun g =>
       { g.raiseSb env.f.slot with sleepEnd := some (s.time + BitVec.ofNat 64 t), sleepSb := env.f.slot }))

/-- EXIT. -/
def exitBody (env : Env) (s : State) : Out :=
  .next (s.modGrp env.k fun g => g.mapLanes env.e fun _ l => { l with st := .exited, yld := false })

/-- NOP. -/
def nopBody (_ : Env) (s : State) : Out := .next s

/-- SAFEPT: under a pending pre-emption request the group stops at the next boundary once its copies are
complete (R125). -/
def safeptBody (env : Env) (s : State) : Out :=
  if (s.ctx (s.grp env.k).ctx).preempt.isSome then
    .held .copies (s.modGrp env.k fun g => { g with stopReq := some .safePoint })
  else .next s

/-- PIN and UNPIN (R126). -/
def pinFlagBody (on : Bool) (env : Env) (s : State) : Out := .next (s.modGrp env.k fun g => { g with pin := on })

/-- TRAP and BKPT: at the address of word 0 (R127). -/
def trapBody (cause : Nat) (env : Env) (s : State) : Out := .trap cause env.pc 0 s

/-! ### Special registers (R83, R128, R129) -/

/-- The value of a special register in a lane; sr.fflags holds the flags of completions in earlier FCLKs (R128). -/
def State.special (s : State) (k : Nat) (n : Nat) (l : LaneId) : Word :=
  (s.grp k).special (siteOf k) (s.time + (s.ctx (s.grp k).ctx).desc.toff) n l

/-- MOVSR: a read of sr.moved clears it. -/
def movsrBody (env : Env) (s : State) : Out :=
  let n := env.f.a.toNat
  let g := if n = 0x06 then { s.grp env.k with moved := false } else s.grp env.k
  if env.f.xf = 1 then .regs (g.wrS env.f.d.toNat (.of (s.special env.k n (lowLane env.e)))) 0 0
  else .regs (g.wrV env.f.d.toNat env.e fun l => .of (s.special env.k n l)) 0 0

/-- MOVRS to sr.fflags, sr.srseed or sr.ctl; the other numbers trap PRIVILEGE before this (R40). The flags of completions
in this FCLK are ORed into the written value when it ends (R76). -/
def movrsBody (env : Env) (s : State) : Out :=
  let g := s.grp env.k
  let r := env.srcB g 0
  let v : Word := if r.bad then 0 else r.val
  let cons := if r.bad then 1 else 0
  poisonGate env s cons
    (.regs (if env.f.d = 0x0A then { g with fflags := v.truncate 6 }
            else if env.f.d = 0x0E then { g with srseed := v }
            else { g with ctl := v.truncate 2 }) 0 cons)

/-! ### The meanings -/

/-- VOTE (R116). -/
def execVote (f : Fields) (s : State) : Res := .next (issueSync 0x1E f s voteBody)
/-- BRA (R118). -/
def execBra (f : Fields) (s : State) : Res := .next (issueWith 0x20 f s braBody)
/-- BRA (R118), extended form. -/
def execBraExt (f : Fields) (s : State) : Res := .next (issueWith 0x20 f s braBody)
/-- BRP (R118). -/
def execBrp (f : Fields) (s : State) : Res := .next (issueWith 0x20 f s brpBody)
/-- BRP (R118), extended form. -/
def execBrpExt (f : Fields) (s : State) : Res := .next (issueWith 0x20 f s brpBody)
/-- BRX (R119). -/
def execBrx (f : Fields) (s : State) : Res := .next (issueWith 0x20 f s brxBody)
/-- BRX (R119), extended form. -/
def execBrxExt (f : Fields) (s : State) : Res := .next (issueWith 0x20 f s brxBody)
/-- CALL (R120). -/
def execCall (f : Fields) (s : State) : Res := .next (issueWith 0x21 f s (callBody true callOne))
/-- CALL (R120), extended form. -/
def execCallExt (f : Fields) (s : State) : Res := .next (issueWith 0x21 f s (callBody true callOne))
/-- CALLX (R119, R120). -/
def execCallx (f : Fields) (s : State) : Res := .next (issueWith 0x21 f s (callBody true callxOne))
/-- CALLX (R119, R120), extended form. -/
def execCallxExt (f : Fields) (s : State) : Res := .next (issueWith 0x21 f s (callBody true callxOne))
/-- RET (R120). -/
def execRet (f : Fields) (s : State) : Res := .next (issueWith 0x22 f s (callBody false popRet))
/-- RET (R120), extended form. -/
def execRetExt (f : Fields) (s : State) : Res := .next (issueWith 0x22 f s (callBody false popRet))
/-- LOOP (R121). -/
def execLoop (f : Fields) (s : State) : Res := .next (issueWith 0x23 f s loopBody)
/-- LOOP (R121), extended form. -/
def execLoopExt (f : Fields) (s : State) : Res := .next (issueWith 0x23 f s loopBody)
/-- YIELD (R122). -/
def execYield (f : Fields) (s : State) : Res := .next (issueWith 0x24 f s yieldBody)
/-- YIELD (R122), extended form. -/
def execYieldExt (f : Fields) (s : State) : Res := .next (issueWith 0x24 f s yieldBody)
/-- SLEEP (R123). -/
def execSleep (f : Fields) (s : State) : Res := .next (issueWith 0x24 f s sleepBody)
/-- SLEEP (R123), extended or literal form. -/
def execSleepExt (f : Fields) (s : State) : Res := .next (issueWith 0x24 f s sleepBody)
/-- EXIT (R124). -/
def execExit (f : Fields) (s : State) : Res := .next (issueWith 0x25 f s exitBody)
/-- EXIT (R124), extended form. -/
def execExitExt (f : Fields) (s : State) : Res := .next (issueWith 0x25 f s exitBody)
/-- NOP (R124). -/
def execNop (f : Fields) (s : State) : Res := .next (issueWith 0x26 f s nopBody)
/-- NOP (R124), extended form. -/
def execNopExt (f : Fields) (s : State) : Res := .next (issueWith 0x26 f s nopBody)
/-- SAFEPT (R125). -/
def execSafept (f : Fields) (s : State) : Res := .next (issueWith 0x26 f s safeptBody)
/-- SAFEPT (R125), extended form. -/
def execSafeptExt (f : Fields) (s : State) : Res := .next (issueWith 0x26 f s safeptBody)
/-- PIN (R126). -/
def execPin (f : Fields) (s : State) : Res := .next (issueWith 0x26 f s (pinFlagBody true))
/-- PIN (R126), extended form. -/
def execPinExt (f : Fields) (s : State) : Res := .next (issueWith 0x26 f s (pinFlagBody true))
/-- UNPIN (R126). -/
def execUnpin (f : Fields) (s : State) : Res := .next (issueWith 0x26 f s (pinFlagBody false))
/-- UNPIN (R126), extended form. -/
def execUnpinExt (f : Fields) (s : State) : Res := .next (issueWith 0x26 f s (pinFlagBody false))
/-- TRAP (R127). -/
def execTrap (f : Fields) (s : State) : Res := .next (issueWith 0x27 f s (trapBody causeSoftware))
/-- TRAP (R127), extended form. -/
def execTrapExt (f : Fields) (s : State) : Res := .next (issueWith 0x27 f s (trapBody causeSoftware))
/-- BKPT (R127). -/
def execBkpt (f : Fields) (s : State) : Res := .next (issueWith 0x27 f s (trapBody causeBreak))
/-- BKPT (R127), extended form. -/
def execBkptExt (f : Fields) (s : State) : Res := .next (issueWith 0x27 f s (trapBody causeBreak))
/-- MOVSR (R128). -/
def execMovsr (f : Fields) (s : State) : Res := .next (issueWith 0x28 f s movsrBody)
/-- MOVSR (R128), extended form. -/
def execMovsrExt (f : Fields) (s : State) : Res := .next (issueWith 0x28 f s movsrBody)
/-- MOVRS (R129). -/
def execMovrs (f : Fields) (s : State) : Res := .next (issueWith 0x28 f s movrsBody)
/-- MOVRS (R129), extended or literal form. -/
def execMovrsExt (f : Fields) (s : State) : Res := .next (issueWith 0x28 f s movrsBody)

/-- A trap of the group whose turn it is at its issue address, before anything of the instruction executes: that of a
fetch with its address, or that of a word that is no instruction, which lanes parked at its address do not issue (R94). -/
def State.trapIssue (s : State) (cause : Nat) (addr : Option Word) : State :=
  let s := s.modGrp s.cur fun g => g.tick s.time
  let g := s.grp s.cur
  if g.mayIssue s.time then
    match g.select with
    | some sel => if sel.sync && addr.isNone then s.holdGrp s.cur .parked s.time else s.trap s.cur cause (addr.getD sel.pc) 0
    | none => s
  else s

/-- A reserved major opcode or an unused FN traps ILLEGAL_OPCODE at its issue (R43). -/
def execReservedMajorOpcode (_ : Word32) (s : State) : Res := .next (s.trapIssue causeIllegal none)

end Sys2Proof.Machine
end

