-- ==== Sys2Proof/Machine/Float.lean ====
section
/-!
DEFINITION. Floating-point arithmetic, selection, sign, classification, dot and compare instructions
0x30 to 0x43 (R133 to R138).
-/

namespace Sys2Proof.Machine

/-- A result element with the poisoned elements it read and its flags. -/
structure FElem where
  e     : Elem
  cons  : Nat := 0
  flags : BitVec 6 := 0
deriving DecidableEq, Repr

/-- The element format of FN and MOD[0] (R33, R133). -/
def fnFmt (f : Fields) : Fmt :=
  match f.fn.toNat with
  | 0 => fp32
  | 1 => bf16
  | 2 => fp16
  | _ => if f.md.getLsbD 0 then e5m2 else e4m3

/-- A register of result elements. -/
def fReg (w : Nat) (es : List FElem) : LRes :=
  { r := packReg w (es.map FElem.e), cons := (es.map FElem.cons).sum, flags := es.foldl (fun a x => a ||| x.flags) 0 }

/-- An element computed from source elements given as register, width and index: poison gives `pv` with
its poison bits set and no flag (R77); otherwise the code and flags of `go`. -/
def fElem (pv : Nat) (srcs : List (Reg × Nat × Nat)) (go : List Nat → Nat × BitVec 6) : FElem :=
  let bad := srcs.countP fun x => elemBad x.1 x.2.1 x.2.2
  if bad != 0 then { e := (pv, true), cons := bad }
  else
    let r := go (srcs.map fun x => elem x.1 x.2.1 x.2.2)
    { e := (r.1, false), flags := r.2 }

/-- A lane instruction that computes each element of the format from elements at its own index. -/
def floatBody (srcs : Env → Group → LaneId → List Reg) (pv : Fmt → Nat) (go : Fmt → Nat → List Nat → Nat × BitVec 6)
    (env : Env) (s : State) : Out :=
  let g := s.grp env.k
  let fm := fnFmt env.f
  vecOut env s fun l =>
    let rs := srcs env g l
    fReg fm.w ((List.range (64 / fm.w)).map fun i =>
      fElem (pv fm) (rs.map fun r => (r, fm.w, i)) fun cs => go fm env.f.rn cs)

/-- Sources A and B. -/
def srcAB (env : Env) (g : Group) (l : LaneId) : List Reg := [env.srcA g l, env.srcB g l]
/-- Sources A, B and C. -/
def srcABC (env : Env) (g : Group) (l : LaneId) : List Reg := [env.srcA g l, env.srcB g l, env.srcC g l]
/-- Source A. -/
def srcA1 (env : Env) (g : Group) (l : LaneId) : List Reg := [env.srcA g l]

/-- FADD and FSUB (R133, R134). -/
def addBody (negB : Bool) : Env → State → Out :=
  floatBody srcAB Fmt.canon fun fm rn cs =>
    fm.dotRound rn [] [fm.val (cs.getD 0 0), (fm.val (cs.getD 1 0)).flip negB]

/-- FMUL. -/
def mulBody : Env → State → Out :=
  floatBody srcAB Fmt.canon fun fm rn cs => fm.dotRound rn [(fm.val (cs.getD 0 0), fm.val (cs.getD 1 0))] []

/-- FFMA, FFMS, FNFMA and FNFMS: the product and the addend with the signs of R133. -/
def fmaBody (negP negC : Bool) : Env → State → Out :=
  floatBody srcABC Fmt.canon fun fm rn cs =>
    fm.dotRound rn [((fm.val (cs.getD 0 0)).flip negP, fm.val (cs.getD 1 0))] [(fm.val (cs.getD 2 0)).flip negC]

/-- FMINNUM and FMAXNUM (R135). -/
def minNumBody (isMax : Bool) : Env → State → Out :=
  floatBody srcAB Fmt.canon fun fm _ cs => (fm.minmaxNum isMax (cs.getD 0 0) (cs.getD 1 0), 0)

/-- FMINNAN and FMAXNAN (R135). -/
def minNanBody (isMax : Bool) : Env → State → Out :=
  floatBody srcAB Fmt.canon fun fm _ cs => (fm.minmaxNan isMax (cs.getD 0 0) (cs.getD 1 0), 0)

/-- FABS and FNEG (R135). -/
def signBody (neg : Bool) : Env → State → Out :=
  floatBody srcA1 Fmt.canon fun fm _ cs =>
    let a := cs.getD 0 0
    (if fm.isNan a then fm.canon else if neg then (a + fm.sgn) % (2 * fm.sgn) else a % fm.sgn, 0)

/-- FCPYSGN (R135). -/
def cpySgnBody : Env → State → Out :=
  floatBody srcAB Fmt.canon fun fm _ cs =>
    let a := cs.getD 0 0
    let b := cs.getD 1 0
    (if fm.isNan a then fm.canon else a % fm.sgn + b / fm.sgn % 2 * fm.sgn, 0)

/-- The class code of R136. -/
def Fmt.classOf (fm : Fmt) (c : Nat) : Nat :=
  match fm.val c with
  | .nan => 8
  | .inf neg => if neg then 0 else 7
  | .fin neg m _ =>
    let k := if m = 0 then 3 else if m < 2 ^ fm.mb then 2 else 1
    if neg then k else 7 - k

/-- FCLASS (R136). -/
def classBody : Env → State → Out :=
  floatBody srcA1 (fun _ => 0) fun fm _ cs => (fm.classOf (cs.getD 0 0), 0)

/-- FRND of one code: integers are the representable values; NX when the result differs (R136). -/
def Fmt.integral (fm : Fmt) (rn a : Nat) : Nat × BitVec 6 :=
  match fm.val a with
  | .nan => (fm.canon, 0)
  | .inf _ => (a, 0)
  | .fin neg m e =>
    if 0 ≤ e || m = 0 then (a, 0)
    else
      let (n, exact) := roundGrid rn 0 neg m e 0
      if exact then (a, 0) else ((fm.round 1 0 false neg n 0).1, fNX)

/-- FRND. -/
def rndBody : Env → State → Out := floatBody srcA1 Fmt.canon fun fm rn cs => fm.integral rn (cs.getD 0 0)

/-- FSCALE of one code by 2^k (R136); every count beyond 1,000 gives what 1,000 gives. -/
def Fmt.scale (fm : Fmt) (rn a : Nat) (k : Int) : Nat × BitVec 6 :=
  match fm.val a with
  | .nan => (fm.canon, 0)
  | .inf _ => (a, 0)
  | .fin neg m e => fm.round rn 0 false neg m (e + clampTo (-1000) 1000 k)

/-- FSCALE: element i of B is a signed integer of the element width. -/
def scaleBody : Env → State → Out :=
  floatBody srcAB Fmt.canon fun fm rn cs => fm.scale rn (cs.getD 0 0) (sext (cs.getD 1 0) fm.w)

/-- FDOT2: each 32-bit half sums its products and c once (R137). -/
def dot2Body (env : Env) (s : State) : Out :=
  let g := s.grp env.k
  let fm := fnFmt env.f
  let n := 32 / fm.w
  vecOut env s fun l =>
    let a := env.srcA g l
    let b := env.srcB g l
    let c := env.srcC g l
    fReg 32 ((List.range 2).map fun j =>
      let ix := (List.range n).map fun i => j * n + i
      fElem fp32.canon (ix.map (fun i => (a, fm.w, i)) ++ ix.map (fun i => (b, fm.w, i)) ++ [(c, 32, j)]) fun cs =>
        fp32.dotRound env.f.rn
          ((List.range n).map fun i => (fm.val (cs.getD i 0), fm.val (cs.getD (n + i) 0))) [fp32.val (cs.getD (2 * n) 0)])

/-- FHADD: sums of adjacent elements of A, then of B (R137). -/
def haddBody (env : Env) (s : State) : Out :=
  let g := s.grp env.k
  let fm := fnFmt env.f
  let h := 32 / fm.w
  vecOut env s fun l =>
    let half (r : Reg) := (List.range h).map fun i =>
      fElem fm.canon [(r, fm.w, 2 * i), (r, fm.w, 2 * i + 1)] fun cs =>
        fm.dotRound env.f.rn [] [fm.val (cs.getD 0 0), fm.val (cs.getD 1 0)]
    fReg fm.w (half (env.srcA g l) ++ half (env.srcB g l))

/-- The comparison of PSETF on two codes: condition codes 0 eq to 5 ge, 6 ord, 7 uno (R138). -/
def Fmt.compare (fm : Fmt) (c a b : Nat) : Bool × BitVec 6 :=
  if fm.isNan a || fm.isNan b then (c = 1 || c = 7, if 2 ≤ c && c ≤ 5 then fNV else 0)
  else if c = 6 then (true, 0) else if c = 7 then (false, 0) else (condHolds' c (fm.key a) (fm.key b), 0)
where
  /-- eq, ne, lt, le, gt and ge on ordered keys. -/
  condHolds' (c : Nat) (x y : Int) : Bool :=
    match c with
    | 0 => x = y
    | 1 => x != y
    | 2 => x < y
    | 3 => x ≤ y
    | 4 => y < x
    | _ => y ≤ x

/-- PSETF (R138). -/
def psetfBody (env : Env) (s : State) : Out :=
  let g := s.grp env.k
  let fm := fnFmt env.f
  let i := bits env.f.c 0 3
  let c := bits env.f.c 3 4
  predOut env s fun l =>
    let a := env.srcA g l
    let b := env.srcB g l
    let bad := (if elemBad a fm.w i then 1 else 0) + (if elemBad b fm.w i then 1 else 0)
    if bad != 0 then (false, bad, 0)
    else
      let r := fm.compare c (elem a fm.w i) (elem b fm.w i)
      (r.1, 0, r.2)

/-! ### The meanings, by opcode (R42, R133) -/

/-- FADD (R134). -/
def execFadd (f : Fields) (s : State) : Res := .next (issueWith 0x30 f s (addBody false))
/-- FADD (R134), extended or literal form. -/
def execFaddExt (f : Fields) (s : State) : Res := .next (issueWith 0x30 f s (addBody false))
/-- FSUB (R134). -/
def execFsub (f : Fields) (s : State) : Res := .next (issueWith 0x31 f s (addBody true))
/-- FSUB (R134), extended or literal form. -/
def execFsubExt (f : Fields) (s : State) : Res := .next (issueWith 0x31 f s (addBody true))
/-- FMUL (R134). -/
def execFmul (f : Fields) (s : State) : Res := .next (issueWith 0x32 f s mulBody)
/-- FMUL (R134), extended or literal form. -/
def execFmulExt (f : Fields) (s : State) : Res := .next (issueWith 0x32 f s mulBody)
/-- FFMA (R134). -/
def execFfma (f : Fields) (s : State) : Res := .next (issueWith 0x33 f s (fmaBody false false))
/-- FFMA (R134), extended or literal form. -/
def execFfmaExt (f : Fields) (s : State) : Res := .next (issueWith 0x33 f s (fmaBody false false))
/-- FFMS (R134). -/
def execFfms (f : Fields) (s : State) : Res := .next (issueWith 0x34 f s (fmaBody false true))
/-- FFMS (R134), extended or literal form. -/
def execFfmsExt (f : Fields) (s : State) : Res := .next (issueWith 0x34 f s (fmaBody false true))
/-- FNFMA (R134). -/
def execFnfma (f : Fields) (s : State) : Res := .next (issueWith 0x35 f s (fmaBody true false))
/-- FNFMA (R134), extended or literal form. -/
def execFnfmaExt (f : Fields) (s : State) : Res := .next (issueWith 0x35 f s (fmaBody true false))
/-- FNFMS (R134). -/
def execFnfms (f : Fields) (s : State) : Res := .next (issueWith 0x36 f s (fmaBody true true))
/-- FNFMS (R134), extended or literal form. -/
def execFnfmsExt (f : Fields) (s : State) : Res := .next (issueWith 0x36 f s (fmaBody true true))
/-- FMINNUM (R135). -/
def execFminnum (f : Fields) (s : State) : Res := .next (issueWith 0x37 f s (minNumBody false))
/-- FMINNUM (R135), extended or literal form. -/
def execFminnumExt (f : Fields) (s : State) : Res := .next (issueWith 0x37 f s (minNumBody false))
/-- FMAXNUM (R135). -/
def execFmaxnum (f : Fields) (s : State) : Res := .next (issueWith 0x38 f s (minNumBody true))
/-- FMAXNUM (R135), extended or literal form. -/
def execFmaxnumExt (f : Fields) (s : State) : Res := .next (issueWith 0x38 f s (minNumBody true))
/-- FMINNAN (R135). -/
def execFminnan (f : Fields) (s : State) : Res := .next (issueWith 0x39 f s (minNanBody false))
/-- FMINNAN (R135), extended or literal form. -/
def execFminnanExt (f : Fields) (s : State) : Res := .next (issueWith 0x39 f s (minNanBody false))
/-- FMAXNAN (R135). -/
def execFmaxnan (f : Fields) (s : State) : Res := .next (issueWith 0x3A f s (minNanBody true))
/-- FMAXNAN (R135), extended or literal form. -/
def execFmaxnanExt (f : Fields) (s : State) : Res := .next (issueWith 0x3A f s (minNanBody true))
/-- FABS (R135). -/
def execFabs (f : Fields) (s : State) : Res := .next (issueWith 0x3B f s (signBody false))
/-- FABS (R135), extended or literal form. -/
def execFabsExt (f : Fields) (s : State) : Res := .next (issueWith 0x3B f s (signBody false))
/-- FNEG (R135). -/
def execFneg (f : Fields) (s : State) : Res := .next (issueWith 0x3C f s (signBody true))
/-- FNEG (R135), extended or literal form. -/
def execFnegExt (f : Fields) (s : State) : Res := .next (issueWith 0x3C f s (signBody true))
/-- FCPYSGN (R135). -/
def execFcpysgn (f : Fields) (s : State) : Res := .next (issueWith 0x3D f s cpySgnBody)
/-- FCPYSGN (R135), extended or literal form. -/
def execFcpysgnExt (f : Fields) (s : State) : Res := .next (issueWith 0x3D f s cpySgnBody)
/-- FCLASS (R136). -/
def execFclass (f : Fields) (s : State) : Res := .next (issueWith 0x3E f s classBody)
/-- FCLASS (R136), extended or literal form. -/
def execFclassExt (f : Fields) (s : State) : Res := .next (issueWith 0x3E f s classBody)
/-- FRND (R136). -/
def execFrnd (f : Fields) (s : State) : Res := .next (issueWith 0x3F f s rndBody)
/-- FRND (R136), extended or literal form. -/
def execFrndExt (f : Fields) (s : State) : Res := .next (issueWith 0x3F f s rndBody)
/-- FSCALE (R136). -/
def execFscale (f : Fields) (s : State) : Res := .next (issueWith 0x40 f s scaleBody)
/-- FSCALE (R136), extended or literal form. -/
def execFscaleExt (f : Fields) (s : State) : Res := .next (issueWith 0x40 f s scaleBody)
/-- FDOT2 (R137). -/
def execFdot2 (f : Fields) (s : State) : Res := .next (issueWith 0x41 f s dot2Body)
/-- FDOT2 (R137), extended or literal form. -/
def execFdot2Ext (f : Fields) (s : State) : Res := .next (issueWith 0x41 f s dot2Body)
/-- FHADD (R137). -/
def execFhadd (f : Fields) (s : State) : Res := .next (issueWith 0x42 f s haddBody)
/-- FHADD (R137), extended or literal form. -/
def execFhaddExt (f : Fields) (s : State) : Res := .next (issueWith 0x42 f s haddBody)
/-- PSETF (R138). -/
def execPsetf (f : Fields) (s : State) : Res := .next (issueWith 0x43 f s psetfBody)
/-- PSETF (R138), extended or literal form. -/
def execPsetfExt (f : Fields) (s : State) : Res := .next (issueWith 0x43 f s psetfBody)

end Sys2Proof.Machine
end

