-- ==== Sys2Proof/Machine/Convert.lean ====
section
/-!
DEFINITION. Conversions between element types: CVT, CVTI, CVTF8, PACK and UNPACK (R141 to R144).
-/

namespace Sys2Proof.Machine

/-- The format of a type code of R141. -/
def cvtFmt : Nat → Fmt
  | 0 => fp32
  | 1 => bf16
  | 2 => fp16
  | 3 => e4m3
  | _ => e5m2

/-- A conversion of R141 and R142 between element widths: `pv` is the code of a poisoned result, `one`
converts one code with the draw of the destination element. The elements not written come from C with their poison, which is a move
and no consumption (DEDUCED, log 85). -/
def convBody (ws wd pv : Nat) (one : Nat → Nat → Nat × BitVec 6) (env : Env) (s : State) : Out :=
  let g := s.grp env.k
  let m := 64 / max ws wd
  let q := env.f.xf.toNat
  vecOutG env s (g.advanceDraw env) fun l =>
    let a := env.srcA g l
    let si (i : Nat) := if ws < wd then q * m + i else i
    let di (i : Nat) := if wd < ws then q * m + i else i
    let es := (List.range m).map fun i => fElem pv [(a, ws, si i)] fun cs => one (cs.getD 0 0) (env.draw s l (di i))
    let r := fReg wd es
    if wd < ws then { r with r := insertElems (env.srcC g l) wd (q * m) (es.map FElem.e) } else r

/-- CVT (R141). -/
def cvtBody (env : Env) (s : State) : Out :=
  let dst := cvtFmt (bits env.f.b 3 3)
  let src := cvtFmt (bits env.f.b 0 3)
  let sat := env.f.md.getLsbD 0
  convBody src.w dst.w dst.canon (fun c dr => dst.ofVal env.f.rn dr sat (src.val c)) env s

/-- CVTI (R142). -/
def cvtiBody (env : Env) (s : State) : Out :=
  let iw := itWidth (bits env.f.b 3 2)
  let fm := cvtFmt (bits env.f.b 0 3)
  let uns := env.f.md.getLsbD 0
  if env.f.b.getLsbD 5 then
    convBody iw fm.w fm.canon (fun c dr =>
      let x : Int := if uns then c else sext c iw
      fm.round env.f.rn dr false (x < 0) x.natAbs 0) env s
  else
    let lo : Int := if uns then 0 else -2 ^ (iw - 1)
    let hi : Int := if uns then 2 ^ iw - 1 else 2 ^ (iw - 1) - 1
    convBody fm.w iw 0 (fun c dr =>
      let r := valToInt env.f.rn dr lo hi (fm.val c)
      (wrapTo iw r.1, r.2)) env s

/-- A narrow source code as E4M3, exactly (R65): selector 0 INT4, 1 E3M2, 2 E2M3. -/
def narrowToE4m3 (sel c : Nat) : Nat :=
  if sel = 0 then
    let x := sext c 4
    (e4m3.round 0 0 false (x < 0) x.natAbs 0).1
  else
    match (if sel = 1 then e3m2 else e2m3).val c with
    | .fin neg m e => (e4m3.round 0 0 false neg m e).1
    | _ => 0

/-- CVTF8 (R143): eight codes of the stream formed by C above A. -/
def cvtf8Body (env : Env) (s : State) : Out :=
  let g := s.grp env.k
  let sel := env.f.b.toNat
  let n := if sel = 0 then 4 else 6
  let k := 16 * env.f.xf.toNat
  vecOut env s fun l =>
    let a := env.srcA g l
    let c := if env.sh.c.rd then env.srcC g l else {}
    let stream := a.val.toNat + 2 ^ 64 * c.val.toNat
    let poi := a.poi.toNat + 2 ^ 8 * c.poi.toNat
    let es := (List.range 8).map fun i =>
      let lo := k + n * i
      let bytes := (List.range 2).filter fun j => lo / 8 + j ≤ (lo + n - 1) / 8
      let bad := bytes.countP fun j => poi.testBit (lo / 8 + j)
      if bad != 0 then ({ e := (e4m3.canon, true), cons := 1 } : FElem)
      else { e := (narrowToE4m3 sel (stream / 2 ^ lo % 2 ^ n), false) }
    fReg 8 es

/-- The narrow width of PACK and UNPACK (R144). -/
def packWidth (f : Fields) : Nat := match bits f.c 0 2 with | 0 => 8 | 1 => 16 | 2 => 32 | _ => 4

/-- One element of PACK: mode 0 keeps the low bits, 1 signed to signed, 2 signed to unsigned, 3 unsigned
to unsigned, saturating. -/
def packElem (mode wn x : Nat) : Nat :=
  let v : Int := sext x (2 * wn)
  match mode with
  | 0 => x % 2 ^ wn
  | 1 => wrapTo wn (clampTo (-2 ^ (wn - 1)) (2 ^ (wn - 1) - 1) v)
  | 2 => wrapTo wn (clampTo 0 (2 ^ wn - 1) v)
  | _ => min x (2 ^ wn - 1)

/-- PACK (R144). -/
def packBody (env : Env) (s : State) : Out :=
  let g := s.grp env.k
  let wn := packWidth env.f
  let ww := 2 * wn
  vecOut env s fun l =>
    let half (r : Reg) := (List.range (64 / ww)).map fun i =>
      fElem 0 [(r, ww, i)] fun cs => (packElem (bits env.f.c 2 2) wn (cs.getD 0 0), 0)
    fReg wn (half (env.srcA g l) ++ half (env.srcB g l))

/-- UNPACK (R144). -/
def unpackBody (env : Env) (s : State) : Out :=
  let g := s.grp env.k
  let wn := packWidth env.f
  let ww := 2 * wn
  let m := 64 / ww
  let h := if env.f.c.getLsbD 3 then m else 0
  vecOut env s fun l =>
    fReg ww ((List.range m).map fun i =>
      fElem 0 [(env.srcA g l, wn, h + i)] fun cs =>
        (if env.f.c.getLsbD 2 then cs.getD 0 0 else wrapTo ww (sext (cs.getD 0 0) wn), 0))

/-! ### The meanings (R42) -/

/-- CVT (R141). -/
def execCvt (f : Fields) (s : State) : Res := .next (issueWith 0x4D f s cvtBody)
/-- CVT, extended form. -/
def execCvtExt (f : Fields) (s : State) : Res := .next (issueWith 0x4D f s cvtBody)
/-- CVTI (R142). -/
def execCvti (f : Fields) (s : State) : Res := .next (issueWith 0x4E f s cvtiBody)
/-- CVTI, extended form. -/
def execCvtiExt (f : Fields) (s : State) : Res := .next (issueWith 0x4E f s cvtiBody)
/-- CVTF8 (R143). -/
def execCvtf8 (f : Fields) (s : State) : Res := .next (issueWith 0x4F f s cvtf8Body)
/-- CVTF8, extended form. -/
def execCvtf8Ext (f : Fields) (s : State) : Res := .next (issueWith 0x4F f s cvtf8Body)
/-- PACK (R144). -/
def execPack (f : Fields) (s : State) : Res := .next (issueWith 0x50 f s packBody)
/-- PACK, extended or literal form. -/
def execPackExt (f : Fields) (s : State) : Res := .next (issueWith 0x50 f s packBody)
/-- UNPACK (R144). -/
def execUnpack (f : Fields) (s : State) : Res := .next (issueWith 0x50 f s unpackBody)
/-- UNPACK, extended form. -/
def execUnpackExt (f : Fields) (s : State) : Res := .next (issueWith 0x50 f s unpackBody)

end Sys2Proof.Machine
end

