-- ==== Sys2Proof/Machine/Block.lean ====
section
/-!
DEFINITION. Block formats (R59 to R64) and their instructions MXSC, MXQ and MXDQ (R145 to R148).
-/

namespace Sys2Proof.Machine

/-! ### Decoding a block (R60 to R62); formats 0 E4M3, 1 E5M2, 2 E2M1, 3 MXE, 4 MXINT8 -/

/-- Width of an element code. -/
def mxWidth (t : Nat) : Nat := if t = 2 || t = 3 then 4 else 8

/-- The format of an element code of formats 0 to 3. -/
def mxFmt (t : Nat) : Fmt := if t = 0 then e4m3 else if t = 1 then e5m2 else e2m1

/-- The value of one element code without the scale; an escape of MXE is decoded by `mxeVals`. -/
def mxElem (t c : Nat) : Val :=
  if t = 4 then let n := sext c 8; .fin (n < 0) n.natAbs (-6) else (mxFmt t).val c

/-- The value 2^(S − 127) × v (R59, R60). -/
def mxScale (sc : Nat) (v : Val) : Val :=
  if sc = 255 then .nan
  else
    match v with
    | .fin n m e => .fin n m (e + sc - 127)
    | x => x

/-- A decoded element: its value, whether it is a fifth or later escape, and the side byte it reads. -/
structure MxVal where
  v    : Val
  olx  : Bool := false
  side : Option Nat := none
deriving DecidableEq, Repr

/-- Decoding of MXE codes in ascending element order after `j` escapes (R62). A poisoned code byte is decoded with the code that it
holds, so one of 0x8 counts as an escape for the elements after it (DESIGN CHOICE, log 87). -/
def mxeVals (side : Nat) : List Nat → Nat → List MxVal
  | [], _ => []
  | c :: r, j =>
    if c = 8 then
      (if j ≤ 3 then { v := e4m3.val (side / 2 ^ (8 * j) % 256), side := some j } else { v := .fin false 0 0, olx := true })
        :: mxeVals side r (j + 1)
    else { v := e2m1.val c } :: mxeVals side r j

/-- The elements of one block before scaling. -/
def mxVals (t side : Nat) (codes : List Nat) : List MxVal :=
  if t = 3 then mxeVals side codes 0 else codes.map fun c => { v := mxElem t c }

/-! ### The control word (R145) -/

/-- FMT. -/
def mxF (f : Fields) : Nat := bits f.imm 0 3
/-- WIDE as a format. -/
def mxW (f : Fields) : Fmt := match bits f.imm 3 2 with | 0 => fp32 | 1 => bf16 | _ => fp16
/-- BS. -/
def mxBs (f : Fields) : Nat := bits f.imm 5 3
/-- SIDE. -/
def mxSide (f : Fields) : Nat := bits f.imm 8 1

/-- Elements of width `w` of a block of 32 held in consecutive registers from `r0` of a lane. -/
def blockElems (g : Group) (l : LaneId) (r0 w : Nat) : List Elem :=
  (List.range 32).map fun i =>
    let r := g.rdV (r0 + i / (64 / w)) l
    (elem r w (i % (64 / w)), elemBad r w (i % (64 / w)))

/-- The registers of 32 elements of width `w`, written from `r0` on in the lanes of a mask. -/
def writeBlock (g : Group) (m : LaneMask) (r0 w : Nat) (es : LaneId → List Elem) : Group :=
  (List.range (32 * w / 64)).foldl (fun g r =>
    g.wrV (r0 + r) m fun l => packReg w (((es l).drop (r * (64 / w))).take (64 / w))) g

/-- Byte `j` of a register replaced. -/
def setByte (r : Reg) (j b : Nat) (bad : Bool) : Reg := insertElems r 8 j [(b, bad)]

/-! ### MXSC (R146) -/

/-- floor(log₂ |x|) of a nonzero finite value. -/
def Val.log2 : Val → Option Int
  | .fin _ m e => if m = 0 then none else some (Nat.log2 m + e)
  | _ => none

/-- The scale of a block and its flags. Where every element of an E4M3 or E5M2 block is NaN or infinite there is no largest magnitude, and the
scale is that of amax = 0 (DESIGN CHOICE, log 117). -/
def mxscScale (t : Nat) (vs : List Val) : Nat × BitVec 6 :=
  if 2 ≤ t && vs.any fun v => v.isNan || v.isInf true || v.isInf false then (255, fNV)
  else
    let emax : Int := if t = 0 then 8 else if t = 1 then 15 else if t = 4 then 0 else 2
    match (vs.filterMap Val.log2) with
    | [] => (127, 0)
    | x :: r => ((clampTo 0 254 (r.foldl max x - emax + 127)).toNat, 0)

/-- MXSC. -/
def mxscBody (env : Env) (s : State) : Out :=
  let g := s.grp env.k
  let fm := mxW env.f
  let j := mxBs env.f
  vecOut env s fun l =>
    let xs := blockElems g l env.f.a.toNat fm.w
    let bad := xs.countP Prod.snd
    if bad != 0 then { r := setByte (env.srcD g l) j 255 true, cons := bad }
    else
      let sc := mxscScale (mxF env.f) (xs.map fun x => fm.val x.1)
      { r := setByte (env.srcD g l) j sc.1 false, flags := sc.2 }

/-! ### MXQ (R147) -/

/-- The rounding of a value to an element code and its flags (R61, R64, R71). A finite value beyond the largest E5M2 magnitude
rounds as R70 gives for a format with infinities: R71, by which R64 saturates, does not name E5M2 (DEDUCED, log 86). -/
def mxRound (t rn dr : Nat) (v : Val) : Nat × BitVec 6 :=
  if t = 4 then
    match v with
    | .fin neg m e =>
      let (n, exact) := roundGrid rn dr neg m (e + 6) 0
      let x : Int := if neg then -(n : Int) else n
      if 127 < n then (wrapTo 8 (if neg then -127 else 127), fOF ||| fNX) else (wrapTo 8 x, if exact then 0 else fNX)
    | _ => (0, 0)
  else (mxFmt t).ofVal rn dr false v

/-- |y − v| in units of 2^−600. -/
def residual (y v : Val) : Nat :=
  match y, v with
  | .fin n m e, .fin n' m' e' =>
    (fx n m e - fx n' m' e').natAbs
  | _, _ => 0
where
  /-- A finite value in units of 2^−600. -/
  fx (n : Bool) (m : Nat) (e : Int) : Int := let x : Int := m * 2 ^ (e + 600).toNat; if n then -x else x

/-- What MXQ delivers for one block: the codes, the four side bytes, whether the scale becomes 0xFF, and
the flags. -/
structure MxqRes where
  codes : List Nat
  side  : Nat := 0
  nan   : Bool := false
  flags : BitVec 6 := 0
deriving DecidableEq, Repr

/-- The quantisation of one block under scale `sc` (R147). `dr` gives the draw of an element index. -/
def mxqBlock (t rn sc : Nat) (dr : Nat → Nat) (xs : List Val) : MxqRes :=
  if sc = 255 then { codes := List.replicate 32 0 }
  else if 2 ≤ t && xs.any fun v => v.isNan || v.isInf true || v.isInf false then
    { codes := List.replicate 32 0, nan := true, flags := fNV }
  else
    let ys := xs.map fun v => match v with | .fin n m e => Val.fin n m (e + 127 - sc) | x => x
    let qs := ys.mapIdx fun i y => mxRound t rn (dr i) y
    let fl (l : List (BitVec 6)) := l.foldl (fun a x => a ||| x) 0
    if t = 3 then
      let res := (ys.zip qs).map fun p => residual p.1 (e2m1.val p.2.1)
      let esc (i : Nat) : Bool :=
        let ri := res.getD i 0
        ri != 0 && ((List.range 32).countP fun k => ri < res.getD k 0 || (ri = res.getD k 0 && k < i)) < 4
      let es := (List.range 32).filter esc
      let sides := es.map fun i => e4m3.ofVal rn (dr (i + 32)) false (ys.getD i .nan)
      { codes := (List.range 32).map fun i =>
          if esc i then 8 else let c := (qs.getD i (0, 0)).1; if c = 8 then 0 else c
        side := packVal 8 (sides.map fun x => (x.1, false))
        flags := fl (sides.map Prod.snd) ||| fl (((List.range 32).filter fun i => !esc i).map fun i => (qs.getD i (0, 0)).2) }
    else { codes := qs.map Prod.fst, flags := fl (qs.map Prod.snd) }

/-- MXQ of one executing lane: the elements with their poison, whether the scale byte becomes 0xFF, the side list with its
poison, the consumptions and flags. -/
structure MxqLane where
  es    : List Elem
  nan   : Bool := false
  side  : Nat × Bool := (0, false)
  cons  : Nat := 0
  flags : BitVec 6 := 0
deriving DecidableEq, Repr

/-- The side-list half of a register replaced. -/
def setSide (r : Reg) (h x : Nat) (bad : Bool) : Reg := insertElems r 32 h [(x, bad)]

/-- MXQ in one lane. -/
def mxqLane (env : Env) (s : State) (l : LaneId) : MxqLane :=
  let g := s.grp env.k
  let t := mxF env.f
  let fm := mxW env.f
  let j := mxBs env.f
  let xs := blockElems g l env.f.a.toNat fm.w
  let b := env.srcB g l
  let bad := xs.countP Prod.snd + (if elemBad b 8 j then 1 else 0)
  if bad != 0 then { es := List.replicate 32 (0, true), side := (0, true), cons := bad }
  else
    let r := mxqBlock t env.f.rn (elem b 8 j) (fun i => env.draw s l i) (xs.map fun x => fm.val x.1)
    { es := r.codes.map fun x => (x, false), nan := r.nan, side := (r.side, false), flags := r.flags }

/-- MXQ: byte BS of vB where the scale becomes 0xFF, the block, and for MXE one half of vC, written in this order; where the
registers overlap the later one stands (DESIGN CHOICE, log 91). -/
def mxqBody (env : Env) (s : State) : Out :=
  let g := s.grp env.k
  let t := mxF env.f
  let cons := consOf env.e fun l => (mxqLane env s l).cons
  let lanes (p : MxqLane → Bool) : LaneMask := BitVec.ofFnLE fun l : Fin 32 => env.e.getLsbD l && p (mxqLane env s l)
  let g' := (g.advanceDraw env).wrV env.f.b.toNat (lanes (·.nan)) fun l => setByte (g.rdV env.f.b.toNat l) (mxBs env.f) 255 false
  let g' := writeBlock g' env.e env.f.d.toNat (mxWidth t) fun l => (mxqLane env s l).es
  let g' := if t != 3 then g' else g'.wrV env.f.c.toNat env.e fun l =>
    let x := (mxqLane env s l).side
    setSide (g'.rdV env.f.c.toNat l) (mxSide env.f) x.1 x.2
  poisonGate env s cons (.regs g' (flagsOf env.e fun l => (mxqLane env s l).flags) cons)

/-! ### MXDQ (R148) -/

/-- MXDQ in one lane: the wide elements, consumptions and flags. Under rs the draw of an element uses its index in the block, 0 to
31, over all destination registers, as R147 gives for MXQ; R72 says the index within the packed result (DEDUCED, log 84). -/
def mxdqLane (env : Env) (s : State) (l : LaneId) : List FElem :=
  let g := s.grp env.k
  let t := mxF env.f
  let fm := mxW env.f
  let j := mxBs env.f
  let cs := blockElems g l env.f.a.toNat (mxWidth t)
  let b := env.srcB g l
  let c := env.srcC g l
  let h := mxSide env.f
  let vs := mxVals t (elem c 32 h) (cs.map Prod.fst)
  let sc := elem b 8 j
  let sBad := elemBad b 8 j
  (cs.zip vs).mapIdx fun i (p : Elem × MxVal) =>
    let sideBad := match p.2.side with | some k => elemBad c 8 (4 * h + k) | none => false
    let n := (if p.1.2 then 1 else 0) + (if sideBad then 1 else 0) + (if sBad && i = 0 then 1 else 0)
    if p.1.2 || sideBad || sBad then { e := (fm.canon, true), cons := n }
    else
      let r := fm.ofVal env.f.rn (env.draw s l i) false (mxScale sc p.2.v)
      { e := (r.1, false), flags := r.2 ||| (if p.2.olx then fOLX else 0) }

/-- MXDQ. -/
def mxdqBody (env : Env) (s : State) : Out :=
  let g := s.grp env.k
  let cons := consOf env.e fun l => ((mxdqLane env s l).map FElem.cons).sum
  let g' := writeBlock (g.advanceDraw env) env.e env.f.d.toNat (mxW env.f).w fun l => (mxdqLane env s l).map FElem.e
  poisonGate env s cons
    (.regs g' (flagsOf env.e fun l => (mxdqLane env s l).foldl (fun a x => a ||| x.flags) 0) cons)

/-! ### The meanings (R42) -/

/-- MXSC (R146). -/
def execMxsc (f : Fields) (s : State) : Res := .next (issueWith 0x51 f s mxscBody)
/-- MXQ (R147). -/
def execMxq (f : Fields) (s : State) : Res := .next (issueWith 0x52 f s mxqBody)
/-- MXDQ (R148). -/
def execMxdq (f : Fields) (s : State) : Res := .next (issueWith 0x53 f s mxdqBody)

end Sys2Proof.Machine
end

