-- ==== Sys2Proof/Machine/Matrix.lean ====
section
/-!
DEFINITION. Accumulators and the matrix array (R79, R156 to R184): binding and release, fragments and
scratchpad operands, the MMA queue, k-steps, poison faults, ARD and AWR.
-/

namespace Sys2Proof.Machine

/-! ### Accumulators of a core (R158 to R160) -/

/-- Changes a physical accumulator of a core. -/
def State.modAcc (s : State) (c n : Nat) (f : Acc → Acc) : State :=
  s.modCore c fun x => { x with accs := Vector.ofFn fun i => if i.val = n then f x.accs[i] else x.accs[i] }

/-- A physical accumulator. -/
def Core.acc (c : Core) (n : Nat) : Acc := (c.accs[n]?).getD {}

/-- The physical accumulator of a logical name of a group. -/
def Group.accOf (g : Group) (name : Nat) : Option Nat := (g.acc[name]?).getD none

/-- Binds or frees a logical name. -/
def Group.bindAcc (g : Group) (name : Nat) (n : Option Nat) : Group :=
  { g with acc := Vector.ofFn fun i => if i.val = name then n else g.acc[i] }

/-- The free accumulators of a core, ascending. -/
def Core.freeAccs (c : Core) : List Nat := (List.range 8).filter fun i => (c.acc i).st = .free

/-- The lowest-numbered free accumulator of a core. -/
def Core.freeAcc (c : Core) : Option Nat := c.freeAccs.head?

/-- Queue entries of an accumulator, oldest first. -/
def Core.mmasFor (c : Core) (n : Nat) : List MmaEnt := c.queue.filter fun m => m.acc = n

/-- Element width of an MMA's type: A and B have the same (R173). -/
def MmaEnt.width (m : MmaEnt) : Nat :=
  if m.x then (if mmax4 m.ty then 4 else 8)
  else match m.ty with | 0 => 16 | 1 => 16 | 2 => 32 | 7 => 4 | _ => 8

/-- k-steps of an MMA: K / 8 with K = 512 / width (R157). -/
def MmaEnt.steps (m : MmaEnt) : Nat := 64 / m.width

/-- LCLK edges of one k-step (R157). -/
def MmaEnt.lclks (m : MmaEnt) : Nat := match m.width with | 4 => 8 | 8 => 16 | 16 => 32 | _ => 128

/-- Register reads that k-step `p` of an MMA needs (R379). -/
def MmaEnt.readsAt (m : MmaEnt) (p : Nat) : Nat :=
  let per := 2 * max 1 (m.width / 8)
  (if m.apair.isSome then 0 else per) + (if m.bpair.isSome then 0 else per)
    + (if m.x && p = 0 then
        2 + (if mmaxMxe m.ty false then 4 else 0) + (if mmaxMxe m.ty true then 4 else 0) else 0)

/-- The k-steps of an MMA that have begun. -/
def Core.begun (c : Core) (m : MmaEnt) : Nat := if c.run.any fun r => r.1 = m.id then m.prog + 1 else m.prog

/-- The k-step that starts next: that of the oldest entry in the array which has one left, those after a requested stop and those
behind an unfinished MMA of the same accumulator apart (R156, R176, R178). -/
def Core.nextStep (c : Core) : Option (MmaEnt × Nat) :=
  (c.queue.find? fun m =>
    m.inArray && !(c.acc m.acc).fault && c.begun m < min m.steps (m.stop.getD m.steps)
      && (c.queue.takeWhile fun y => y.id != m.id).all fun y => y.acc != m.acc || y.steps ≤ c.begun y).map fun m => (m, c.begun m)

/-- The MMA that the array executes: the one whose k-step is under way, or the one whose k-step starts next (R156). -/
def Core.executing (c : Core) : Option MmaEnt :=
  match c.run with
  | some r => c.queue.find? fun m => m.id = r.1
  | none => c.nextStep.map Prod.fst

/-- The reads granted for the next k-step stand only as long as it is the next one of the same MMA (R379). -/
def Core.regrant (c old : Core) : Core :=
  { c with kgrant := if c.nextStep.map (fun x => x.1.id) = old.nextStep.map fun x => x.1.id then c.kgrant else 0 }

/-- The status word of R160. -/
def accStatus (c : Core) (n : Nat) : Nat := (c.acc n).status n (c.mmasFor n)

/-- An MMA of group `k` leaves for good, completed or cancelled: its slot is lowered, its ranges are free,
and the copy it follows on is told (R159, R171, R183). -/
def State.endMma (s : State) (c k : Nat) (m : MmaEnt) : State :=
  let s := s.modCore c fun x => { x with queue := x.queue.filter fun y => y.id != m.id }.regrant x
  let s := s.modTile (c / 4) fun t => { t with range := t.range.filter fun e => e.mma != some m.id }
  let s := s.modGrp k fun g => g.lowerSb m.sbs
  match m.copy with
  | some id => { s with copies := s.copies.map fun y => if y.id = id then { y with followDone := true } else y }
  | none => s

/-- Release: the queued MMAs of an accumulator are cancelled, and it drains (R159). -/
def State.releaseAcc (s : State) (c n : Nat) : State :=
  let k := ((s.core c).acc n).owner
  (((s.core c).mmasFor n).foldl (fun s m => s.endMma c k m) s).modAcc c n fun a =>
    { a with st := .draining, fault := false, owner := 0, name := 0 }

/-- Every accumulator bound to a group is released (R159). -/
def State.releaseAll (s : State) (k : Nat) : State :=
  (List.range 8).foldl (fun s i =>
    match (s.grp k).accOf i with
    | some n => (s.releaseAcc (coreOf k) n).modGrp k fun g => g.bindAcc i none
    | none => s) s

/-! ### Operands (R165, R168 to R171, R174) -/

/-- Fields of a scratchpad pair. -/
def pairBase (p : Word × Word) : Nat := bits p.1 0 23
/-- LPITCH. -/
def pairL (p : Word × Word) : Nat := bits p.1 24 16
/-- TPITCH. -/
def pairT (p : Word × Word) : Nat := bits p.1 40 24
/-- LINES. -/
def pairLines (p : Word × Word) : Nat := bits p.2 8 7
/-- Offset of line `n` of a pair. -/
def pairLine (p : Word × Word) (n : Nat) : Nat := pairBase p + n / 8 * pairT p + n % 8 * pairL p

/-- First and last + 1 byte of the lines below LINES (R171). -/
def pairRange (p : Word × Word) : Nat × Nat :=
  ((List.range (pairLines p)).map (pairLine p)).foldl (fun r a => (min r.1 a, max r.2 (a + 64))) (pairBase p, 0)

/-- The checks of R170 over the pairs that are not poisoned: cause and address. -/
def pairFault (pc : Word) (w : Nat) (ps : List (Word × Word)) : Option (Nat × Word) :=
  let outside (p : Word × Word) : List Nat :=
    ((List.range (pairLines p)).map (pairLine p)).filter fun a => w < a + 64
  if ps.any fun p => p.1.getLsbD 23 || bits p.2 15 49 != 0 || bits p.2 3 5 != 0 || 64 < pairLines p then
    some (causeReserved, pc)
  else
    match ps.find? fun p => pairBase p % 8 != 0 || pairL p % 8 != 0 || pairT p % 8 != 0 with
    | some p => some (causeAlign, BitVec.ofNat 64 (pairBase p))
    | none =>
      match ps.find? fun p => !(outside p).isEmpty with
      | some p => some (causeSpad, BitVec.ofNat 64 ((outside p).foldl min ((outside p).headD 0)))
      | none => none

/-- Byte `b` of line `n` of an operand with its poison (R165, R169). -/
def State.lineByte (s : State) (k : Nat) (pair : Option (Word × Word)) (reg n b : Nat) : State × Byte × Bool :=
  match pair with
  | some p =>
    if pairLines p ≤ n then (s, 0, false)
    else
      match s.spadRd (s.grp k).team (pairLine p n + 8 * ((b / 8 + bits p.2 0 3 * n) % 8) + b % 8) 1 with
      | (s, v, q) => (s, v.headD 0, q.headD false)
  | none =>
    let r := (s.grp k).rdV (reg + 8 * (n % 2) + b / 8) (Fin.ofNat 32 (n / 2))
    (s, BitVec.ofNat 8 (elem r 8 (b % 8)), r.poi.getLsbD (b % 8))

/-- `len` bytes of line `n` from byte `off`. -/
def State.lineRead (s : State) (k : Nat) (pair : Option (Word × Word)) (reg n off len : Nat) :
    State × List (Byte × Bool) :=
  (List.range len).foldl (fun r i =>
    let x := r.1.lineByte k pair reg n (off + i)
    (x.1, r.2 ++ [x.2])) (s, [])

/-- One element of an operand in a k-step: its value, whether it or what it is decoded with is poisoned, and
whether it is a fifth or later escape. -/
abbrev KElem := Val × Bool × Bool

/-- The format of an unscaled MMA's operand (R173). -/
def mmaFmt (ty : Nat) (opB : Bool) : Fmt :=
  match ty with
  | 0 => bf16
  | 1 => fp16
  | 2 => fp32
  | 3 => e4m3
  | 4 => if opB then e5m2 else e4m3
  | 5 => if opB then e4m3 else e5m2
  | 6 => e5m2
  | _ => e2m1

/-- The block format of an MMAX's operand (R173): 0 E4M3, 1 E5M2, 2 E2M1, 3 MXE, 4 MXINT8. -/
def mmaxFmt (ty : Nat) (opB : Bool) : Nat :=
  match ty with
  | 0 => 0
  | 1 => if opB then 1 else 0
  | 2 => if opB then 0 else 1
  | 3 => 1
  | 8 => 4
  | _ => if mmaxMxe ty opB then 3 else 2

/-- Codes of width `w` in bytes; one is poisoned when a byte that it has bits in is (R77). -/
def codesOf (w : Nat) (bs : List (Byte × Bool)) : List Elem :=
  let x := leNat (bs.map Prod.fst)
  (List.range (8 * bs.length / w)).map fun i =>
    (x / 2 ^ (w * i) % 2 ^ w, ((bs.drop (w * i / 8)).take ((w + 7) / 8)).any Prod.snd)

/-- The eight elements of line `n` of an unscaled operand in k-step `t`. -/
def plainElems (ty w : Nat) (opB : Bool) (bs : List (Byte × Bool)) : List KElem :=
  (codesOf w bs).map fun e => ((mmaFmt ty opB).val e.1, e.2, false)

/-- The eight elements of a block-scaled line in k-step `t`, from the bytes of its block, the scale byte and
the side list with its poison by byte. -/
def blockK (fm w t : Nat) (bs : List (Byte × Bool)) (sc : Nat) (scBad : Bool) (side : Nat) (sideBad : Nat → Bool) : List KElem :=
  let cs := codesOf w bs
  let vs := mxVals fm side (cs.map Prod.fst)
  ((cs.zip vs).drop (t % 4 * 8)).take 8 |>.map fun x =>
    (mxScale sc x.2.v, x.1.2 || scBad || (match x.2.side with | some j => sideBad j | none => false), x.2.olx)

/-- The operand of an MMA of group `k` in k-step `t`: eight elements of each of the 64 lines. -/
def State.operand (s : State) (k : Nat) (m : MmaEnt) (opB : Bool) (t : Nat) : State × List (List KElem) :=
  let g := s.grp k
  let w := m.width
  let pair := if opB then m.bpair else m.apair
  let bad := if opB then m.bpoi else m.apoi
  let reg := if opB then m.breg else m.areg
  (List.range 64).foldl (fun r n =>
    if bad then (r.1, r.2 ++ [List.replicate 8 (.fin false 0 0, true, false)])
    else if m.x then
      let fm := mmaxFmt m.ty opB
      let kb := t / 4
      let mno := n % 2 * (64 / w / 4) + kb
      let l : LaneId := Fin.ofNat 32 (n / 2)
      let sreg := g.rdV (bits m.ctrl (if opB then 8 else 0) 7) l
      let byte := (if m.ctrl.getLsbD (if opB then 15 else 7) then 4 else 0) + mno
      let list := g.rdV (bits m.ctrl (if opB then 23 else 16) 7 + mno / 2) l
      let x := r.1.lineRead k pair reg n (kb * 4 * w) (4 * w)
      (x.1, r.2 ++ [blockK fm w t x.2 (elem sreg 8 byte) (sreg.poi.getLsbD byte) (elem list 32 (mno % 2))
        fun j => list.poi.getLsbD (4 * (mno % 2) + j)])
    else
      let x := r.1.lineRead k pair reg n (t * w) w
      (x.1, r.2 ++ [plainElems m.ty w opB x.2])) (s, [])

/-! ### The k-step (R79, R175) -/

/-- The k-step of one accumulator element: its new code and flags. -/
def kElem (a b : List Val) (c : Nat) : Nat × BitVec 6 :=
  let ps := a.zip b
  let nan := ps.any fun p => p.1.isNan || p.2.isNan
  let prods := ((ps.filter fun p => !(p.1.isNan || p.2.isNan)).map fun p => p.1.mul p.2)
  let inv := prods.any Option.isNone
  let vs := prods.filterMap id
  let pinf := vs.any (Val.isInf false)
  let ninf := vs.any (Val.isInf true)
  let cv := fp32.val c
  let f : BitVec 6 := if inv || (pinf && ninf) then fNV else 0
  if nan || inv || (pinf && ninf) || cv.isNan then (fp32.canon, f)
  else if pinf || ninf then
    if cv.isInf ninf || !(cv.isInf pinf) then (fp32.signed ninf fp32.infCode, f) else (fp32.canon, f ||| fNV)
  else if cv.isInf false || cv.isInf true then (c, f)
  else
    let (x, e) := exactSum vs
    if x = 0 then (c, f)
    else
      let r := fp32.sumRound 0 0 [cv, .fin (x < 0) x.natAbs e]
      (r.1, f ||| r.2)

/-- A stop takes the MMAs of group `k`: the executing one ends with the k-step under way and the others do not start (R178). What a
trap, a supervisor hold or a poison fault of the group waits for goes on to its completion first (R87, R98, R100, R179). -/
def State.stopMmas (s : State) (k : Nat) : State :=
  let g := s.grp k
  if g.trapReq.isSome || g.holdReq || s.faulted k then s.freeMmas k
  else
    s.modCore (coreOf k) fun c =>
      { c with queue := c.queue.map fun (m : MmaEnt) =>
          if (c.acc m.acc).owner != k || m.stop.isSome then m else { m with stop := some (c.begun m) } }.regrant c

/-- Whether a stop that is under way takes the MMAs of group `k` (R126, R178). -/
def State.mmaStop (s : State) (k : Nat) : Bool :=
  let g := s.grp k
  g.stopReq.any fun r => r != .safePoint
    && !(r = .castling && s.groups.any fun e => e.2.team = g.team && e.2.st != .free && e.2.st != .bound && e.2.pin)

/-- Changes an entry of a core's MMA queue. -/
def State.modMma (s : State) (c id : Nat) (f : MmaEnt → MmaEnt) : State :=
  s.modCore c fun x => { x with queue := x.queue.map fun m => if m.id = id then f m else m }

/-- The accumulator after a k-step with operand lines `A` and `B`, and the flags. -/
def kApply (a : Acc) (A B : List (List KElem)) : Acc × BitVec 6 :=
  let cell (x : Nat) : Nat × Word32 × Bool × BitVec 6 :=
    let ra := A.getD (x / 64) []
    let rb := B.getD (x % 64) []
    if smGet false a.poi x || ra.any (fun e => e.2.1) || rb.any (fun e => e.2.1) then
      (x, BitVec.ofNat 32 fp32.canon, true, 0)
    else
      let r := kElem (ra.map Prod.fst) (rb.map Prod.fst) (smGet 0 a.c x).toNat
      (x, BitVec.ofNat 32 r.1, false, r.2)
  let cs := (List.range 4096).map cell
  let olx := (A ++ B).any fun l => l.any fun e => e.2.2
  ({ a with c := (cs.filter fun e => e.2.1 != 0).map fun e => (e.1, e.2.1),
            poi := (cs.filter fun e => e.2.2.1).map fun e => (e.1, true) },
    cs.foldl (fun f e => f ||| e.2.2.2) (if olx then fOLX else 0))

/-- K_STEP (R157, R175): at an LCLK edge, with no k-step under way, the next one starts once its reads are granted and its operands
fetched. What it reads it reads now (R171), and the array is taken for its LCLKs; its progress counts when it ends. Under sr.ctl.pt one
that would read poison stalls the accumulator instead (R179). -/
def State.kStep (s : State) (c : Nat) : State :=
  let x := s.core c
  if x.run.isSome || x.edgeAt != s.time || x.edges = 0 then s
  else
    match x.nextStep with
    | none => s
    | some (m, _) =>
      let a := x.acc m.acc
      let k := a.owner
      if x.kgrant < m.readsAt m.prog || s.time.toNat < m.ready.toNat then s
      else
        let s := s.meetRegs k m.frag allLanes
        match s.operand k m false m.prog with
        | (s, A) =>
          match s.operand k m true m.prog with
          | (s, B) =>
            let bad := !a.poi.isEmpty || (A ++ B).any fun l => l.any fun e => e.2.1
            let s := s.modCore c fun x => { x with kgrant := 0 }
            if bad && (s.grp k).pt then
              ((s.modAcc c m.acc fun a => { a with st := .stalled, fault := true }).modMma c m.id fun m => { m with inArray := false }).modCore
                c fun x => { x with queue := x.queue.map fun y => if y.acc = m.acc then { y with stop := none } else y }
            else
              let r := kApply a A B
              let s := if bad && !m.counted then s.consume k 1 else s
              ((s.modAcc c m.acc fun _ => r.1).modCore c fun x => { x with run := some (m.id, m.lclks) }).modMma c m.id fun m =>
                { m with flags := m.flags ||| r.2, counted := m.counted || bad }

/-- K_STEP (R175). -/
def execKStep (c : Nat) (s : State) : Res := .next (s.kStep c)

/-- MMA_COMPLETE: the oldest MMA whose last k-step ended 12 FCLK ago completes (R175). -/
def execMmaComplete (c : Nat) (s : State) : Res :=
  .next (match (s.core c).queue.find? fun m => m.steps ≤ m.prog && m.endAt.toNat + 12 ≤ s.time.toNat with
    | none => s
    | some m =>
      let k := ((s.core c).acc m.acc).owner
      (s.endMma c k m).modGrp k fun g => g.flag m.flags)

/-- ACC_POISON_TRAP: the owner of a faulted accumulator traps POISON at its boundary (R179). -/
def State.accTrap (s : State) (k : Nat) : State :=
  let c := s.core (coreOf k)
  match c.queue.find? fun m => !m.inArray && (c.acc m.acc).fault && (c.acc m.acc).owner = k with
  | some m => s.trap k causePoison m.addr 0
  | none => s

/-- ACC_POISON_TRAP (R179). -/
def execAccPoisonTrap (k : Nat) (s : State) : Res := .next (s.accTrap k)

/-- A stalled MMA re-enters the array behind the entries there, then those behind it on its accumulator
(R179, R180). -/
def State.reenter (s : State) (c n : Nat) : State :=
  (s.modCore c fun x => { x with
    queue := (x.queue.filter fun m => m.acc != n) ++ (x.mmasFor n).map fun m =>
      { m with inArray := true, stop := none, ready := s.time + 8 } }).modAcc c n
      fun a => { a with st := if a.st = .stalled then .accumulating else a.st, fault := false }

/-- The resume of a group puts its faulted MMAs back into the array (R179). -/
def State.resumeAccs (s : State) (k : Nat) : State :=
  (List.range 8).foldl (fun s i =>
    match (s.grp k).accOf i with
    | some n => if ((s.core (coreOf k)).acc n).fault then s.reenter (coreOf k) n else s
    | none => s) s

/-- ACC_DRAIN_COMPLETE: a draining accumulator is zeroed and free (R159). -/
def execAccDrainComplete (c n : Nat) (s : State) : Res :=
  .next (if ((s.core c).acc n).st = .draining then s.modAcc c n fun _ => {} else s)

/-! ### Read grants (R379, R380) -/

/-- Whether a core is in lane wait (R380). -/
def Core.laneWait (c : Core) : Bool := 8 ≤ c.backlog || 4 ≤ c.pipe

/-- The LCLK edges of a tile in this FCLK: at code 0 one in every even FCLK since module reset (R378). -/
def State.lclkEdges (s : State) (site : Nat) : Nat :=
  match (s.tile site).lclk with
  | 0 => 1 - s.time.toNat % 2
  | n => n

/-- The LCLK edges that a core has passed in the FCLK `now`. -/
def Core.passedEdges (c : Core) (now : Word) : Nat := if c.edgeAt = now then c.edges else 0

/-- Whether anything of a core waits for its LCLK. -/
def Core.clocked (c : Core) : Bool := !c.queue.isEmpty || c.run.isSome || c.backlog != 0 || c.pipe != 0

/-- The k-step under way is one LCLK further; with its last its MMA's progress counts (R157, R175). -/
def Core.runOn (c : Core) (now : Word) : Core :=
  match c.run with
  | none => c
  | some (id, n) =>
    if 1 < n then { c with run := some (id, n - 1) }
    else { c with run := none, queue := c.queue.map fun m => if m.id = id then { m with prog := m.prog + 1, endAt := now } else m }

/-- `n` reads are granted to the instructions of the backlog, the oldest first. -/
def grantWaits : Nat → List (Nat × Nat) → List (Nat × Nat)
  | _, [] => []
  | n, (k, r) :: l => if r ≤ n then grantWaits (n - r) l else (k, r - n) :: l

/-- The collector grants `G` reads: k-step reads first, then the backlog; a vector operation starts, or every one when the backlog is
empty (R379, log 27). -/
def Core.grant (c : Core) (G : Nat) : Core :=
  if G = 0 then c
  else
    let need := match c.nextStep with | some (m, p) => m.readsAt p - c.kgrant | none => 0
    let rest := G - min G need
    let q := c.backlog - rest
    { c with kgrant := c.kgrant + min G need, backlog := q, waits := grantWaits rest c.waits, pipe := if q = 0 then 0 else c.pipe - 1 }

/-- READ_GRANT: one LCLK edge of a core, at most as many in an FCLK as its tile has (R378, R379). -/
def execReadGrant (c : Nat) (s : State) : Res :=
  .next (
    let x := s.core c
    if !x.clocked || s.lclkEdges (c / 4) ≤ x.passedEdges s.time then s
    else s.modCore c fun x =>
      { (x.runOn s.time).grant (s.tile (c / 4)).ration with edgeAt := s.time, edges := x.passedEdges s.time + 1 })

/-! ### AALLOC, AFREE, AZERO, ARD, AWR, AKS (R161 to R167) -/

/-- The operation of an accumulator instruction in flight. -/
def accOp (env : Env) (name : Option Nat) : Op := { id := 0, k := 0, kind := .alu, wr := regWrites env.sh env.f, acc := name }

/-- The AALLOCs that wait in lower slots of a group's core, which have the free accumulators first (R162). -/
def State.allocBefore (s : State) (k : Nat) : Nat :=
  (List.range (slotOf k)).countP fun i =>
    let g := s.grp (16 * coreOf k + i)
    g.st = .held && g.hold = .aalloc

/-- AALLOC. -/
def aallocBody (env : Env) (s : State) : Out :=
  let g := s.grp env.k
  let name := env.f.a.toNat
  let c := coreOf env.k
  if (g.accOf name).isSome then .trap causeAcc env.pc 0 s
  else
    match (s.core c).freeAccs[s.allocBefore env.k]? with
    | some n =>
      .start ((s.modAcc c n fun _ => { st := .zeroed, owner := env.k, name }).modGrp env.k fun g =>
        (g.bindAcc name (some n)).wrS env.f.d.toNat (.of 0)) (accOp env none)
    | none =>
      if env.f.xf = 1 then .hold .aalloc
      else .start (s.modGrp env.k fun g => g.wrS env.f.d.toNat (.of 1)) (accOp env none)

/-- An instruction on a bound accumulator: a free name traps ACC_STATE (R158). -/
def withAcc (env : Env) (s : State) (name : Nat) (body : Nat → Out) : Out :=
  match (s.grp env.k).accOf name with
  | none => .trap causeAcc env.pc 0 s
  | some n => body n

/-- Whether MMAs on an accumulator are still to complete. -/
def State.accBusy (s : State) (k n : Nat) : Bool := !((s.core (coreOf k)).mmasFor n).isEmpty

/-- AFREE. -/
def afreeBody (env : Env) (s : State) : Out :=
  let name := env.f.a.toNat
  withAcc env s name fun n =>
    if (s.opsOf env.k).any fun o => o.acc = some name then .hold .accBusy
    else .start ((s.releaseAcc (coreOf env.k) n).modGrp env.k fun g => g.bindAcc name none) (accOp env none)

/-- AZERO. -/
def azeroBody (env : Env) (s : State) : Out :=
  let name := env.f.d.toNat
  withAcc env s name fun n =>
    if s.accBusy env.k n then .hold .accBusy
    else .start (s.modAcc (coreOf env.k) n fun a => { a with st := .zeroed, c := [], poi := [], fault := false })
      (accOp env (some name))

/-- The element of quarter `q` that lane `l` holds in element `e` of register `m` (R166). -/
def quarterElem (q l m e : Nat) : Nat := (16 * q + l / 2) * 64 + 32 * (l % 2) + 2 * m + e

/-- ARD. -/
def ardBody (env : Env) (s : State) : Out :=
  let name := env.f.a.toNat
  let q := env.f.xf.toNat
  withAcc env s name fun n =>
    if s.accBusy env.k n then .hold .accBusy
    else
      let a := (s.core (coreOf env.k)).acc n
      let cells := (laneList env.e).flatMap fun l => (List.range 32).map fun i => quarterElem q l (i / 2) (i % 2)
      let bad := cells.any fun x => smGet false a.poi x
      let cons := if bad then 1 else 0
      poisonGate env s cons
        (let g := (List.range 16).foldl (fun (g : Group) m => g.wrV (env.f.d.toNat + m) env.e fun l =>
            packReg 32 ((List.range 2).map fun e =>
              let x := quarterElem q l m e
              ((smGet 0 a.c x).toNat, smGet false a.poi x))) (s.grp env.k)
         let s := s.setGrp env.k g
         let s := if env.f.md.getLsbD 0 then
             s.modAcc (coreOf env.k) n fun a => { a with
               c := a.c.filter fun e => !cells.contains e.1, poi := a.poi.filter fun e => !cells.contains e.1 }
           else s
         .start (s.consume env.k cons) (accOp env (some name)))

/-- AWR: a NaN is stored canonical, a poisoned element canonical with its poison bit. -/
def awrBody (env : Env) (s : State) : Out :=
  let name := env.f.d.toNat
  let q := env.f.xf.toNat
  let g := s.grp env.k
  withAcc env s name fun n =>
    if s.accBusy env.k n then .hold .accBusy
    else
      let cells : List (Nat × Elem) := (laneList env.e).flatMap fun l => (List.range 32).map fun i =>
        let r := g.rdV (env.f.a.toNat + i / 2) l
        let x := elem r 32 (i % 2)
        let bad := elemBad r 32 (i % 2)
        (quarterElem q l (i / 2) (i % 2), (if bad || fp32.isNan x then fp32.canon else x, bad))
      let cons := if cells.any fun x => x.2.2 then 1 else 0
      poisonGate env s cons
        (.start ((s.modAcc (coreOf env.k) n fun a => { a with
            st := .accumulating,
            c := cells.foldl (fun m x => smSet 0 m x.1 (BitVec.ofNat 32 x.2.1)) a.c,
            poi := cells.foldl (fun m x => smSet false m x.1 x.2.2) a.poi }).consume env.k cons) (accOp env (some name)))

/-- AKS. -/
def aksBody (env : Env) (s : State) : Out :=
  let w := match (s.grp env.k).accOf env.f.a.toNat with
    | some n => accStatus (s.core (coreOf env.k)) n
    | none => 0
  .start (s.modGrp env.k fun g => g.wrS env.f.d.toNat (.of (BitVec.ofNat 64 w))) (accOp env none)

/-! ### MMA and MMAX (R170 to R176) -/

/-- The value and poison of the pair that an operand field names, where it names one. -/
def pairOf (g : Group) (isS : Bool) (n : Nat) : Option ((Word × Word) × Bool) :=
  if isS then some (((g.rdS n).val, (g.rdS (n + 1)).val), (g.rdS n).bad || (g.rdS (n + 1)).bad) else none

/-- The scratchpad operands of an MMA that are read: those of a poisoned pair are not (R170). -/
def MmaEnt.pairs (m : MmaEnt) : List (Word × Word) :=
  (if m.apoi then [] else m.apair.toList) ++ (if m.bpoi then [] else m.bpair.toList)

/-- The range entries of an MMA with identifier `id` of a team: one for each scratchpad operand, which covers no byte where LINES
is 0 (R171). -/
def MmaEnt.ranges (m : MmaEnt) (team id : Nat) : List RangeEnt :=
  m.pairs.map fun p => { team, dest := false, lo := (pairRange p).1, hi := (pairRange p).2, copy := none, mma := some id }

/-- The sr.groupid of the group that a CPYF's follow-on MMA is for (R182). -/
def Copy.followGid (c : Copy) : Nat := leNat (c.desc.follow.take 8) % 32

/-- Whether a follow-on MMA whose last operand byte landed in an earlier FCLK has still to enter the queue of a core: it comes before
an MMA that issues now (R156, R323). -/
def State.followDue (s : State) (core : Nat) : Bool :=
  s.copies.any fun c => c.kind = .follow && !c.followIn && !c.followDone && c.landAt.any (fun t => t.toNat < s.time.toNat)
    && (s.groups.any fun e => coreOf e.1 = core && e.2.team = c.team && e.2.gid = c.followGid && e.2.st != .free && e.2.st != .bound)

/-- Room for an MMA: the core's queue has fewer than 4 entries in it, and the tile's range scoreboard takes
the MMA's ranges (R156, R171). -/
def State.mmaRoom (s : State) (k : Nat) (m : MmaEnt) : Bool :=
  ((s.core (coreOf k)).queue.countP fun m => m.inArray) < 4
    && (s.tile (siteOf k)).range.length + m.pairs.length ≤ 64

/-- An MMA enters the queue of a group's core with its range entries; its first k-step starts 8 FCLK later at the earliest, and not
at all while a stop takes the group's MMAs (R156, R171, R178, R180, R184). -/
def State.mmaEnter (s : State) (k : Nat) (m : MmaEnt) : State :=
  let ents := m.ranges (s.grp k).team s.nextId
  let s := s.modTile (siteOf k) fun t => { t with range := t.range ++ ents }
  let s := s.modCore (coreOf k) fun c => { c with queue := c.queue ++
    [{ m with id := s.nextId, ready := s.time + 8, stop := if s.mmaStop k then some m.prog else none }] }
  { (s.modAcc (coreOf k) m.acc fun a => { a with st := if a.fault then a.st else .accumulating }) with nextId := s.nextId + 1 }

/-- MMA and MMAX. -/
def mmaBody (env : Env) (s : State) : Out :=
  let g := s.grp env.k
  let f := env.f
  withAcc env s f.d.toNat fun n =>
    let pa := pairOf g (f.xf.getLsbD 0) f.a.toNat
    let pb := pairOf g (f.xf.getLsbD 1) f.b.toNat
    let poi (p : Option ((Word × Word) × Bool)) : Bool := match p with | some x => x.2 | none => false
    let m : MmaEnt := {
      acc := n, x := f.fn = 1, ty := f.md.toNat, areg := f.a.toNat, breg := f.b.toNat,
      apair := pa.map Prod.fst, bpair := pb.map Prod.fst, apoi := poi pa, bpoi := poi pb,
      ctrl := f.imm, addr := env.pc, sbs := f.slot }
    if (poi pa || poi pb) && g.pt then .trap causePoison env.pc 0 (s.consume env.k 1)
    else
      match pairFault env.pc (s.team g.team).wsize m.pairs with
      | some (c, a) => .trap c a 0 s
      | none =>
        if !s.mmaRoom env.k m || s.followDue (coreOf env.k) then .hold .mmaQueue
        else .next ((s.mmaEnter env.k m).modGrp env.k fun g => g.raiseSb f.slot)

/-! ### The meanings -/

/-- AALLOC (R162). -/
def execAalloc (f : Fields) (s : State) : Res := .next (issueWith 0x58 f s aallocBody)
/-- AFREE (R163). -/
def execAfree (f : Fields) (s : State) : Res := .next (issueWith 0x58 f s afreeBody)
/-- AZERO (R164). -/
def execAzero (f : Fields) (s : State) : Res := .next (issueWith 0x58 f s azeroBody)
/-- MMA (R172 to R175). -/
def execMma (f : Fields) (s : State) : Res := .next (issueSync 0x59 f s mmaBody)
/-- MMAX (R172 to R175). -/
def execMmax (f : Fields) (s : State) : Res := .next (issueSync 0x59 f s mmaBody)
/-- ARD (R166, R167). -/
def execArd (f : Fields) (s : State) : Res := .next (issueWith 0x5A f s ardBody)
/-- AWR (R166, R167). -/
def execAwr (f : Fields) (s : State) : Res := .next (issueWith 0x5A f s awrBody)
/-- AKS (R160, R164). -/
def execAks (f : Fields) (s : State) : Res := .next (issueWith 0x5A f s aksBody)

end Sys2Proof.Machine
end

