-- ==== Sys2Proof/Machine/Fetch.lean ====
section
/-!
DEFINITION. Instruction fetch (R24, R25), the issue choice of a core (R308), what precedes an issue (R87,
R95, R100, R103), and the passing of time.
-/

namespace Sys2Proof.Machine

/-! ### Fetch (R25) -/

/-- Lines of an instruction cache: 64 KiB (R16). -/
def icacheLines : Nat := 1024

/-- The line of an address comes to a core's instruction cache, where the one that has been there longest makes room. Its bytes are
those of its home; what the firewall of R356 drops, or a link that is down loses, ends with an error and reads as 0 (R201, R333; log 25), and
a host or remote page gives free bytes. -/
def State.icacheFill (s : State) (c p ctx : Nat) (a : Word) (x : Xlate) : State × List Byte :=
  let key := l1Key p a.toNat
  let pa := s.seqPa p (leafRep x.leaf) x.pa / 64 * 64
  let lost : List Byte := List.replicate 64 0
  let r : State × List Byte :=
    if leafTgt x.leaf = 0 then
      if s.cutBoth p (c / 4) (s.homeSite pa) then ((s.routeDrop p).hostErr ctx, lost)
      else
        match s.homeRd p ctx pa 64 0 with
        | (s, some (v, _)) => (s, v)
        | (s, none) => (s.hostErr ctx, lost)
    else s.freeBytes 64
  (r.1.modCore c fun y =>
    { y with icache := (if y.icache.length < icacheLines then y.icache else y.icache.drop 1) ++ [(key, r.2)] }, r.2)

/-- The word of an address as a core's instruction cache gives it (R16). -/
def State.icacheWord (s : State) (core p c : Nat) (a : Word) (x : Xlate) : State × Word32 :=
  let word (v : List Byte) : Word32 := BitVec.ofNat 32 (leNat ((v.drop (a.toNat % 64)).take 4))
  match (s.core core).icache.find? fun e => e.1 = l1Key p a.toNat with
  | some e => (s, word e.2)
  | none => let r := s.icacheFill core p c a x
            (r.1, word r.2)

/-- One word of a group's instruction stream, or the cause of its fault. The page is checked at each fetch; the bytes come from
the core's instruction cache, by the line's address (R16; DESIGN CHOICE, log 92). -/
def State.fetchWord (s : State) (k : Nat) (a : Word) : State × Except Nat Word32 :=
  let c := (s.grp k).ctx
  let p := (s.ctx c).part
  match s.globalCheck (siteOf k) p a .fetch with
  | (s, .error e) => (s, .error e)
  | (s, .ok x) => let r := s.icacheWord (coreOf k) p c a x
                  (r.1, .ok r.2)

/-- `n` words from an address: the first that faults gives the cause and its address (R25). -/
def State.fetchWords (s : State) (k : Nat) : Nat → Word → State × Except (Nat × Word) (List Word32)
  | 0, _ => (s, .ok [])
  | n + 1, a =>
    match s.fetchWord k a with
    | (s, .error c) => (s, .error (c, a))
    | (s, .ok w) =>
      match State.fetchWords s k n (a + 4) with
      | (s, .ok ws) => (s, .ok (w :: ws))
      | (s, .error e) => (s, .error e)

/-- The words of the instruction at an address: word 0 and as many more as its LEN says (R24). -/
def State.fetch (s : State) (k : Nat) (a : Word) : State × Except (Nat × Word) (List Word32) :=
  match s.fetchWords k 1 a with
  | (s, .ok [w0]) =>
    match s.fetchWords k (lenWords (w0.extractLsb' 0 2) - 1) (a + 4) with
    | (s, .ok ws) => (s, .ok (w0 :: ws))
    | (s, .error e) => (s, .error e)
  | r => r

/-- What stands at the issue address of a group: nothing to issue, a trap before the instruction executes, a
reserved opcode, an instruction form, or pages that the walker has to find first. -/
inductive Fetched where
  | idle
  | walks (ns : List Nat)
  | trap (cause : Nat) (addr : Word)
  | reserved (w0 : Word32)
  | form (maj : BitVec 7) (f : Fields)

/-- Fetch and decode at the issue address (R25, R40). -/
def State.fetchInstr (s : State) (k : Nat) : State × Fetched :=
  match ((s.grp k).tick s.time).select with
  | none => (s, .idle)
  | some sel =>
    match s.fetch k sel.pc with
    | (s, .error (c, a)) => (s, .trap c a)
    | (s, .ok ws) =>
      match decodeRaw ws with
      | .ok (.form maj f) => (s, .form maj f)
      | .ok (.reserved w0 _) => (s, .reserved w0)
      | .error .illegalOpcode => (s, .trap causeIllegal sel.pc)
      | .error _ => (s, .trap causeReserved sel.pc)

/-- The pages that the walker still has to find for the words of the instruction at an address (R191). -/
def State.fetchMiss (s : State) (k : Nat) (a : Word) : List Nat :=
  let p := (s.ctx (s.grp k).ctx).part
  match s.missing k p [a.toNat] with
  | [] =>
    match (s.fetchWord k a).2 with
    | .ok w => s.missing k p [(a + BitVec.ofNat 64 (4 * (lenWords (w.extractLsb' 0 2) - 1))).toNat]
    | .error _ => []
  | ns => ns

/-- Fetch and decode of an instruction that issues: its pages come through the walker of the tile (R191). An instruction that goes on after a
wait has been fetched before, and is read again as it stands. -/
def State.fetchIssue (s : State) (k : Nat) : State × Fetched :=
  match ((s.grp k).tick s.time).select with
  | none => (s, .idle)
  | some sel =>
    match s.fetchMiss k sel.pc with
    | [] =>
      match s.fetchInstr k with
      | (s, .trap c a) => (if (s.tile (siteOf k)).walks.any fun m => m.k = k then s.endWalks k else s, .trap c a)
      | r => r
    | ns => (s, .walks ns)

/-- A group waits for the pages of its instruction; one with which its core would have more than 64 misses asks later (R86, R191). -/
def State.fetchWait (s : State) (k : Nat) (ns : List Nat) : State :=
  let s' := s.askWalks k (s.ctx (s.grp k).ctx).part ns
  (if 64 < s'.missesOf (coreOf k) then s else s').modGrp k fun g => { g with st := .held, hold := .access }

/-- The registers of an instruction that executes now are read, a v register across all lanes; an MMA's v registers are read with its
k-steps (R198, R379). -/
def State.readRegs (s : State) (maj : BitVec 7) (f : Fields) : State :=
  match begin maj f (s.modGrp s.cur fun g => g.tick s.time) s.cur with
  | .go e _ =>
    if e.e = 0 then s
    else s.meetRegs s.cur ((regReads maj e.sh f).filter fun r => match r with | .v _ => maj != 0x59 | _ => true) allLanes
  | _ => s

/-! ### Time (R83, R95) -/

/-- The watchdog of a group over `dt` FCLK: it counts while the group is ready or held with a lane parked,
unless a hold of its own rule stops it: a migrating page, a waiting AALLOC, a CWAIT (R95, R162, R203, R259). -/
def Group.watch (g : Group) (dt : Nat) : Group :=
  if (g.st = .ready || g.st = .held) && g.parked != 0 && g.hold != .migrating && g.hold != .aalloc && g.hold != .cwait then
    let n := g.sub.toNat + dt
    { g with sub := BitVec.ofNat 10 (n % 1024), elapsed := g.elapsed + n / 1024 }
  else g

/-- Whether the watchdog has expired: PERIOD 0 stands for 2^32 units (R85). -/
def Group.expired (g : Group) : Bool :=
  (g.st = .ready || g.st = .held) && (if g.period = 0 then 2 ^ 32 else g.period.toNat) ≤ g.elapsed

/-- A result over `dt` FCLK of lane wait: its landing and the four FCLK after it that a short reader waits move (R38). -/
def Pend.still (p : Pend) (now dt : Nat) : Pend :=
  if now ≤ p.land.toNat || (p.dist < p.lat && now < p.land.toNat + 4) then { p with land := p.land + BitVec.ofNat 64 dt } else p

/-- A group over `dt` FCLK in which its core is in lane wait, or its reads are not granted at a ration of 0 (R379): the issue clock stands still, and with it the
stall count, the landings and the stamps (R36 to R38, R308, R380). -/
def Group.still (g : Group) (now dt : Nat) : Group :=
  let d : Word := BitVec.ofNat 64 dt
  { g with
    stallEnd := if now < g.stallEnd.toNat then g.stallEnd + d else g.stallEnd
    pend := g.pend.map fun p => p.still now dt
    lastIssue := g.lastIssue + d, lastReady := g.lastReady + d }

/-- Whether a group has a bank access that is held while its partition grows: the hold does not advance its watchdog (R361). -/
def State.bankHeld (s : State) (k : Nat) : Bool :=
  s.ops.any fun o => o.k = k && o.kind.space = .bank && (s.part o.part).grow.isSome && o.lanes.any LaneOp.open

/-- One group over `dt` FCLK: its flags, the watchdog, the issue clock, and its context's slot-FCLK (R76, R95, R380,
R386). -/
def State.passGroup (s : State) (k now dt : Nat) : State :=
  let g := s.grp k
  if g.st = .free || g.st = .bound then s
  else
    let g := g.joinFlags
    let g := if g.parked = 0 || s.bankHeld k then g else g.watch dt
    let g := if (s.core (coreOf k)).wait || s.starved k then g.still now dt else g
    (s.setGrp k g).modTile (siteOf k) fun t => { t with occ := smMod 0 t.occ g.ctx (· + dt) }

/-- A core over `dt` FCLK: in lane wait its oldest groups wait no longer for it; whether it is in lane wait next is as it
stands at the start of that FCLK (R380). -/
def Core.passed (c : Core) (dt : Nat) : Core :=
  { c with
    oldest := if c.wait then c.oldest.map fun e => (e.1, e.2.map fun x => (x.1, x.2 + BitVec.ofNat 64 dt)) else c.oldest
    wait := c.laneWait }

/-- Time passes. -/
def State.pass (s : State) (dt : Nat) : State :=
  let now := s.time.toNat
  let s := { s with time := s.time + BitVec.ofNat 64 dt }
  if dt = 0 then s
  else
    let s := s.groups.foldl (fun s e => s.passGroup e.1 now dt) s
    { s with cores := s.cores.map fun e => (e.1, e.2.passed dt) }

/-- A watchdog expiry: the group traps with the pcv of its lowest parked lane, and its counts clear (R95). -/
def State.watchdog (s : State) (k : Nat) : State :=
  let g := s.grp k
  if g.expired then
    (s.modGrp k fun g => { g with elapsed := 0, sub := 0 }).trap k causeWatchdog g.lane[lowLane g.parked].pcv 0
  else s

/-- WATCHDOG_EXPIRY (R95): at the end of the FCLK, as a group-synchronous instruction that completes in it comes first and clears the
count (R87). -/
def execWatchdogExpiry (k : Nat) (s : State) : Res := .next (if s.stage = .closing then s.watchdog k else s)

/-! ### The issue choice (R308) -/

/-- The age stamp of a group. -/
def Group.stamp (g : Group) : Nat := max g.lastIssue.toNat g.lastReady.toNat

/-- Whether a group is ready: nothing holds it, its stall count included. -/
def Group.isReady (g : Group) (t : Word) : Bool := g.st = .ready && g.stallEnd.toNat ≤ t.toNat

/-- The ready groups of a core as slot and group, in slot order; a team that has not started has none (R275). -/
def State.readyOn (s : State) (c : Nat) : List (Nat × Group) :=
  ((List.range 16).map fun i => (i, s.grp (16 * c + i))).filter fun x => x.2.isReady s.time && (s.team x.2.team).st != .starting

/-- The oldest of the highest priority among `gs`; ties go round-robin after the slot the issue slot `sl`
chose last at that priority. -/
def State.pick (s : State) (c sl : Nat) (gs : List (Nat × Group)) : Option Nat :=
  let pri := (gs.map fun x => x.2.bind.pri).foldl max 0
  let top := gs.filter fun x => x.2.bind.pri = pri
  let age := (top.map fun x => x.2.stamp).foldl min (top.headD (0, {})).2.stamp
  let last := smGet 0 (s.core c).rr (16 * sl + pri)
  let far (i : Nat) : Nat := (i + 31 - last) % 16
  ((top.filter fun x => x.2.stamp = age).foldl (fun (b : Option Nat) x =>
    match b with
    | none => some x.1
    | some y => if far x.1 < far y then some x.1 else some y) none)

/-- The oldest ready group of a priority on a core. -/
def State.oldest (s : State) (c pri : Nat) : Option Nat :=
  let gs := (s.readyOn c).filter fun x => x.2.bind.pri = pri
  let age := (gs.map fun x => x.2.stamp).foldl min (gs.headD (0, {})).2.stamp
  (gs.find? fun x => x.2.stamp = age).map Prod.fst

/-- In each FCLK a core notes, by priority, the oldest ready group and since when it has been so without issuing: an issue in the FCLK
of the note or later starts it anew. -/
def State.markOldest (s : State) (c : Nat) : State :=
  let now := (List.range 16).map fun p =>
    (p, (s.oldest c p).map fun i =>
      match smGet none (s.core c).oldest p with
      | some (j, t) => if j = i && (s.grp (16 * c + i)).lastIssue.toNat < t.toNat && (s.grp (16 * c + i)).lastReady.toNat ≤ t.toNat then (i, t)
                       else (i, s.time)
      | none => (i, s.time))
  s.modCore c fun x => { x with oldest := now.filter fun e => e.2.isSome }

/-- Since when a slot of a core has been the oldest ready one of its priority. -/
def State.oldSince (s : State) (c i : Nat) : Option Word :=
  match smGet none (s.core c).oldest (s.grp (16 * c + i)).bind.pri with
  | some (j, t) => if j = i then some t else none
  | none => none

/-- Whether a ready group has been the oldest one of its priority for 48 FCLK. -/
def State.overdue (s : State) (c i : Nat) : Bool :=
  (s.grp (16 * c + i)).isReady s.time && ((s.oldSince c i).elim false fun t => t.toNat + 48 ≤ s.time.toNat)

/-- The overdue group that issue slot 1 takes: the one that has waited longest, then of the higher priority, then in the
lower slot. -/
def State.late (s : State) (c : Nat) : Option Nat :=
  ((s.readyOn c).filter fun x => s.overdue c x.1).foldl (fun (b : Option Nat) x =>
    match b with
    | none => some x.1
    | some y =>
      let wx := ((s.oldSince c x.1).getD 0).toNat
      let wy := ((s.oldSince c y).getD 0).toNat
      if wx < wy || (wx = wy && (s.grp (16 * c + y)).bind.pri < x.2.bind.pri) then some x.1 else some y) none

/-- The choices of issue slots 0 and 1 of a core in this FCLK. -/
def State.choices (s : State) (c : Nat) : Option Nat × Option Nat :=
  let gs := s.readyOn c
  match s.late c with
  | some l => (s.pick c 0 (gs.filter fun x => x.1 != l), some l)
  | none =>
    match s.pick c 0 gs with
    | none => (none, none)
    | some a => (some a, s.pick c 1 (gs.filter fun x => x.1 != a))

/-- The ready groups of teams that make their first issue now: all of a bind set's issue in the same FCLK (R301). -/
def State.firsts (s : State) (c : Nat) : List Nat :=
  ((s.readyOn c).filter fun x =>
    let t := s.team x.2.team
    t.st != .absent && !t.begun).map fun x => 16 * c + x.1

/-- A core's issue slots choose: their groups are to issue in slot order, and the rounds move on. In the FCLK of a team's first issue its
groups on the core issue, and the slots choose none (DESIGN CHOICE, log 80). -/
def State.choose (s : State) (c : Nat) : State :=
  let other := s.turns.filter fun k => coreOf k != c
  if !(s.firsts c).isEmpty then { s with turns := other ++ s.firsts c } else
  let ch := s.choices c
  let note (s : State) (sl : Nat) : Option Nat → State
    | none => s
    | some i => s.modCore c fun x => { x with rr := smSet 0 x.rr (16 * sl + (s.grp (16 * c + i)).bind.pri) i }
  let s := note (note s 0 ch.1) 1 ch.2
  { s with turns := other ++ (((List.range 16).filter fun i => ch.1 = some i || ch.2 = some i).map fun i => 16 * c + i) }

/-! ### Holds and stops before an issue (R87, R100, R103, R126) -/

/-- A supervisor hold takes effect once earlier work has landed (R100). -/
def State.suspendIf (s : State) (k : Nat) : State :=
  let g := s.grp k
  if g.holdReq && (g.st = .ready || g.st = .held) && g.trapReq.isNone && s.quiet k then
    s.modGrp k fun g => { g.landAll.endSleep.endWait with st := .suspended, hold := .none, holdReq := false }
  else s

/-- The holds of R86 on the instruction at a group's issue address: the group is held where one applies, as when the
supervisor core resumes it (R102). -/
def State.holdNow (s : State) (k : Nat) : State :=
  match (s.fetchInstr k).2 with
  | .form maj f => (match begin maj f s k with | .wait h t => s.holdGrp k h t | _ => s)
  | _ => s

/-- Whether a stop request must wait for a pin: castling only (R126). -/
def Group.pinned (g : Group) : Bool := g.pin && g.stopReq = some .castling

/-- A group that waits where a pre-emption stops it at once (R314). -/
def Group.waits (g : Group) : Bool :=
  g.st = .held && (g.hold = .sleep || g.hold = .rpop || g.hold = .pwait || g.hold = .cwait || g.hold = .aalloc
    || (g.hold = .bwait && g.arrive.isNone))

/-- The stop that a group has to make: one requested of it, or a pre-emption's while it waits (R314). -/
def State.stopWant (s : State) (k : Nat) : Option StopReason :=
  let g := s.grp k
  match g.stopReq with
  | some r => some r
  | none => if (s.ctx g.ctx).stops && g.waits then some .safePoint else none

/-- Whether a group has reached its stop: earlier work has landed, MMAs and copies apart; at a safe point
its copies are complete too, but for a BARV whose arrival has been counted, and after SAFEPT its MMAs (R103, R125, R178, R314). A team makes its first issue
before it stops (R275). -/
def State.canStop (s : State) (k : Nat) : Bool :=
  let g := s.grp k
  match s.stopWant k with
  | none => false
  | some r =>
    !g.pinned && g.trapReq.isNone && !g.arriving && !s.starved k && (s.opsOf k).isEmpty && (s.team g.team).begun
      && (r != .safePoint || (g.hold = .bwait && g.batch.bvValid)
        || ((s.copiesOf k).isEmpty && (g.waits || (g.hold = .copies && (s.mmasAll k).isEmpty))))

/-- A group that a stop has reached enters stopped; a trapped or suspended one is taken as it stands by the
team stop (R309). Every stop clears the pin flag (R126). -/
def State.stopIf (s : State) (k : Nat) : State :=
  let g := s.grp k
  if (g.st = .ready || g.st = .held) && s.canStop k then
    s.modGrp k fun g => { g.landAll.endSleep.endWait with st := .stopped, hold := .none, pin := false }
  else s

/-- What comes before an issue at a boundary: a pending trap, that of a poison fault first, a watchdog expiry, a supervisor hold, a stop,
in this order (R87). A watchdog expiry leaves first a group-synchronous instruction that issues in the FCLK. The groups of a team that
has not started do not issue (R275). True when the group may issue. -/
def State.boundary (s : State) (k : Nat) : State × Bool :=
  let g := s.grp k
  if s.faulted k && g.trapReq.isNone then (s.accTrap k, false)
  else if g.expired && !(s.stage = .issues && g.allParked && !g.holdReq && !s.canStop k) then (s.watchdog k, false)
  else if g.holdReq then (s.suspendIf k, false)
  else if s.canStop k then (s.stopIf k, false)
  else if g.stopReq.isSome && !g.pinned && (s.team g.team).begun && (g.stopReq != some .safePoint || g.hold = .copies) then (s, false)
  else (s, g.trapReq.isNone && (s.team g.team).st != .starting)

/-- GROUP_SUSPEND (R100): what else is pending at the boundary comes first (R87). -/
def execGroupSuspend (k : Nat) (s : State) : Res := .next (if (s.grp k).holdReq then (s.boundary k).1 else s)

/-- A barrier instruction that ends before a trap, a hold or a stop reaches its group (R87, R246): the instruction goes on
where `go` takes it, and a trap that waits for it stays requested. That of a watchdog expiry leaves the lanes parked (R95). -/
def State.endSync (s : State) (k : Nat) (go : BitVec 7 → Fields → Option (State → State)) : State :=
  let g := s.grp k
  if g.st != .held || g.trapReq.any (fun r => r.1.toNat = causeWatchdog) then s
  else
    match ({ (s.modGrp k fun g => { g with hold := .none, trapReq := none }) with cur := k } : State).fetchInstr k with
    | (s1, .form maj f) =>
      match go maj f with
      | some h => if g.trapReq.isNone then h s1 else (h s1).modGrp k fun g' => { g' with st := .held, hold := .trapping, trapReq := g.trapReq }
      | none => s
    | _ => s

/-- The wait of a held group's instruction ends, where its hold is one of `hs` and `go` takes the instruction, which goes
on as if issued now; a trap, hold or stop at the boundary comes first (R86, R87). Where it still has to wait nothing changes. -/
def State.resume (s : State) (k : Nat) (hs : List Hold) (go : BitVec 7 → Fields → Option (State → State)) : State :=
  let g := s.grp k
  if g.st != .held || !hs.contains g.hold then s
  else
    match s.boundary k with
    | (s1, false) => s1
    | (s1, true) =>
      match ({ (s1.modGrp k fun g => { g with hold := .none }) with cur := k } : State).fetchInstr k with
      | (s2, .form maj f) =>
        match go maj f with
        | some h => let s3 := h s2; if (s3.grp k).hold = g.hold then s else s3
        | none => s
      | _ => s

/-- STALL_COUNT_EXPIRY: the stall count has run out, and the group is ready (R36). -/
def execStallCountExpiry (k : Nat) (s : State) : Res :=
  .next (let g := s.grp k
         if g.st = .held && g.hold = .stall && g.stallEnd.toNat ≤ s.time.toNat then
           s.modGrp k fun g => { g with st := .ready, hold := .none, lastReady := g.stallEnd }
         else s)

/-- SLEEP_TIMEOUT: sr.time has reached the sleep limit (R123). -/
def execSleepTimeout (k : Nat) (s : State) : Res :=
  .next (match (s.grp k).sleepEnd with
    | some t =>
      if t.toNat ≤ s.time.toNat then
        s.modGrp k fun g =>
          let g := g.endSleep
          if g.st = .held && g.hold = .sleep then { g with st := .ready, hold := .none, lastReady := s.time } else g
      else s
    | none => s)

/-- TRAP_ENTRY: the earlier instructions have completed, and the group enters trapped (R98). -/
def execTrapEntry (k : Nat) (s : State) : Res :=
  .next (match (s.grp k).trapReq with
    | some (c, a, d) => if s.quietFor k c.toNat then s.enterTrap k c a d else s
    | none => s)

/-- GROUP_OVERDUE: issue slot 1 takes the overdue group before slot 0 chooses, in no lane wait (R308, R380). -/
def execGroupOverdue (k : Nat) (s : State) : Res :=
  .next (if s.late (coreOf k) = some (slotOf k) && !s.turns.contains k && !(s.core (coreOf k)).wait then { s with turns := s.turns ++ [k] }
    else s)

end Sys2Proof.Machine
end

