-- ==== Sys2Proof/Machine/Barrier.lean ====
section
/-!
DEFINITION. Phase tokens (R224 to R227), barriers (R238 to R246) and copy batches (R257 to R261).
-/

namespace Sys2Proof.Machine

/-! ### Tokens (R225 to R227) -/

/-- Changes a token of a group. -/
def State.modTok (s : State) (k n : Nat) (f : Tok → Tok) : State :=
  s.modGrp k fun g => { g with tok := Vector.ofFn fun i => if i.val = n then f g.tok[i] else g.tok[i] }

/-- A token of a group. -/
def Group.token (g : Group) (n : Nat) : Tok := (g.tok[n]?).getD {}

/-- Two releases merged: everything either waits for. -/
def Rel.merge (a b : Rel) : Rel :=
  { scope := max a.scope b.scope, cover := a.cover ++ b.cover, lines := a.lines ++ b.lines.filter fun l => !a.lines.contains l }

/-- A pending token whose release has nothing left to do is complete. -/
def State.tokDone (s : State) (k n : Nat) : State :=
  let t := (s.grp k).token n
  if t.st = .pending && (!t.rel || s.relDone t.toRel) then s.modTok k n fun t => { t with st := .complete, cover := [], lines := [] }
  else s

/-- PHASE (R226). -/
def phaseBody (env : Env) (s : State) : Out :=
  let n := env.f.d.toNat
  let t := (s.grp env.k).token n
  let sc := bits env.f.md 0 3
  let x := env.f.xf
  let merged : Bool := t.st = .pending
  let scope := if merged then max t.scope sc else sc
  let acq := x != 2 || (merged && t.acq)
  let rel := x != 1 || (merged && t.rel)
  let new := if rel then s.mkRel env.k scope else { scope }
  let r := if merged && t.rel then Rel.merge t.toRel new else new
  .next ((s.modTok env.k n fun _ =>
    { st := .pending, acq, rel, scope, cover := r.cover, lines := r.lines }).tokDone env.k n)

/-- PWAIT (R227). -/
def pwaitBody (env : Env) (s : State) : Out :=
  let n := env.f.a.toNat
  let t := (s.grp env.k).token n
  if t.st = .pending then .hold .pwait
  else
    .next ((if t.st = .complete && t.acq then s.acquire (coreOf env.k) t.scope else s).modTok env.k n fun t =>
      { t with st := .idle, cover := [], lines := [] })

/-! ### Barrier words (R239 to R242) -/

/-- The fields of a barrier word. -/
structure BarWord where
  gmask   : BitVec 32 := 0
  members : Nat := 0
  arrived : Nat := 0
  perr    : Bool := false
  err     : Bool := false
  parity  : Bool := false
  init    : Bool := false
deriving DecidableEq, Repr

/-- The fields of a word. -/
def BarWord.of (w : Word) : BarWord :=
  { gmask := w.extractLsb' 32 32, members := bits w 16 8, arrived := bits w 8 8, perr := w.getLsbD 3, err := w.getLsbD 2,
    parity := w.getLsbD 1, init := w.getLsbD 0 }

/-- The word of the fields. -/
def BarWord.word (b : BarWord) : Word :=
  BitVec.ofNat 64 (b.gmask.toNat * 2 ^ 32 + b.members % 256 * 2 ^ 16 + b.arrived % 256 * 2 ^ 8 + b.perr.toNat * 8
    + b.err.toNat * 4 + b.parity.toNat * 2 + b.init.toNat)

/-- A barrier of a team. -/
def State.bar (s : State) (tk n : Nat) : BarWord := BarWord.of (((s.team tk).bars[n]?).getD 0)

/-- Changes a barrier of a team. -/
def State.setBar (s : State) (tk n : Nat) (b : BarWord) : State :=
  s.modTeam tk fun t => { t with bars := Vector.ofFn fun i => if i.val = n then b.word else t.bars[i] }

/-- An arrival (R241). -/
def BarWord.arrive (b : BarWord) (gid : Option Nat) (err : Bool) : BarWord :=
  let n := b.arrived + 1
  let m := match gid with | some g => b.gmask ||| (1 <<< g) | none => b.gmask
  let p := b.perr || err
  if n = b.members then { b with parity := !b.parity, err := p, perr := false, arrived := 0, gmask := 0 }
  else { b with arrived := n, gmask := m, perr := p }

/-- Whether a group waits at barrier `n`, in a BARV since it arrived or in a BWAIT that `parity` ends, and its wait is not
over. -/
def Group.waitsAt (g : Group) (n : Nat) (parity : Bool) : Bool :=
  g.st = .held && g.ended.isNone
    && ((g.batch.bvValid && g.batch.bvBar = n) || (match g.bwait with | some w => w.1 = n && w.2 != parity | none => false))

/-- An arrival at a barrier of a team; a completion ends the wait of every group that waits there, with its ERR (R241,
R244). -/
def State.arriveAt (s : State) (tk n : Nat) (gid : Option Nat) (err : Bool) : State :=
  let b := (s.bar tk n).arrive gid err
  let s' := s.setBar tk n b
  if b.parity = (s.bar tk n).parity then s'
  else s'.groups.foldl (fun s e => if e.2.team = tk && e.2.waitsAt n b.parity then s.modGrp e.1 fun g => { g with ended := some b.err } else s) s'

/-! ### Barrier instructions (R243 to R245) -/

/-- An instruction without a result that completes later. -/
def laterOp (env : Env) : Op := { id := 0, k := 0, kind := .alu, wr := regWrites env.sh env.f }

/-- An instruction that a poisoned s register keeps from its effect: it traps with sr.ctl.pt, and goes on with
`bad` otherwise (R244, R259). -/
def poisonS (env : Env) (s : State) (r : Reg) (bad : State → Out) (go : Out) : Out :=
  if r.bad then poisonGate env s 1 (bad (s.consume env.k 1)) else go

/-- BINIT. -/
def binitBody (env : Env) (s : State) : Out :=
  let g := s.grp env.k
  let r := if env.f.xf = 1 then Reg.of (env.f.imm.zeroExtend 64) else g.rdS env.f.b.toNat
  poisonS env s r (fun s => .start s (laterOp env))
    (let n := r.val.toNat
     let b := s.bar g.team env.f.d.toNat
     if n = 0 || 255 < n then .trap causeReserved env.pc 0 s
     else if b.arrived != 0 then .trap causeBarOver env.pc 0 s
     else .start (s.setBar g.team env.f.d.toNat { b with init := true, members := n, perr := false }) (laterOp env))

/-- A group's arrival at a barrier: its two causes, then its release at scope team (R233, R242). -/
def arriveBody (env : Env) (s : State) : Out :=
  let g := s.grp env.k
  let n := env.f.a.toNat
  let b := s.bar g.team n
  if g.arrive.isSome then .hold .bwait
  else if !b.init then .trap causeBarInit env.pc 0 s
  else if b.gmask.getLsbD g.gid then .trap causeBarOver env.pc 0 s
  else .wait .bwait (s.modGrp env.k fun g => { g with arrive := some { bar := n, rel := s.mkRel env.k 1 } })

/-- The arrival of a group whose release is complete is counted; it is the execution of the instruction for the watchdog,
and a BARV notes its wait (R241, R245). -/
def State.countArrival (s : State) (k : Nat) (a : Arrive) (barv : Bool) : State :=
  let g := s.grp k
  let b := s.bar g.team a.bar
  (s.modGrp k fun g => { g with
    elapsed := 0, sub := 0
    arrive := if barv then none else some { a with parity := some b.parity }
    batch := if barv then { g.batch with bvValid := true, bvParity := b.parity, bvBar := a.bar } else g.batch }).arriveAt
      g.team a.bar (some g.gid) false

/-- BARV: arrival, then the wait with its record, then the result and the acquire (R244). A group that resumes at a BARV
with its record valid examines the parity (R245). -/
def barvBody (env : Env) (s : State) : Out :=
  let g := s.grp env.k
  let n := env.f.a.toNat
  if g.batch.bvValid && g.batch.bvBar = n && g.arrive.isNone then
    let b := s.bar g.team n
    match g.ended.or (if b.parity != g.batch.bvParity then some b.err else none) with
    | some err =>
      .next ((s.acquire (coreOf env.k) 1).modGrp env.k fun g =>
        ({ g.endWait with batch := { g.batch with bvValid := false, bvParity := false, bvBar := 0 } }).wrS env.f.d.toNat
          (.of (BitVec.ofNat 64 err.toNat)))
    | none => .hold .bwait
  else arriveBody env s

/-- BARA: s[D] is the parity before the arrival, once that is counted. -/
def baraBody (env : Env) (s : State) : Out :=
  match (s.grp env.k).arrive with
  | some { parity := some p, .. } =>
    .start (s.modGrp env.k fun g => ({ g with arrive := none }).wrS env.f.d.toNat (.of (BitVec.ofNat 64 p.toNat))) (laterOp env)
  | _ => arriveBody env s

/-- BWAIT: the first completion after its issue ends a wait whose parity stands (R244). INIT = 0 traps before a poisoned parity register is
looked at (DESIGN CHOICE, log 118). -/
def bwaitBody (env : Env) (s : State) : Out :=
  let g := s.grp env.k
  let n := env.f.a.toNat
  let b := s.bar g.team n
  let p := (g.rdS env.f.b.toNat).val.getLsbD 0
  if !b.init then .trap causeBarInit env.pc 0 s
  else
    poisonS env s (g.rdS env.f.b.toNat) .next
      (if g.ended.isSome || b.parity != p then .next ((s.acquire (coreOf env.k) 1).modGrp env.k Group.endWait)
       else .wait .bwait (s.modGrp env.k fun g => { g with bwait := some (n, p) }))

/-- BTEST: the word as it stood at the start of this FCLK (R244). -/
def btestBody (env : Env) (s : State) : Out :=
  let w := ((s.team (s.grp env.k).team).shown[env.f.a.toNat]?).getD 0
  .start (s.modGrp env.k fun g => g.wrS env.f.d.toNat (.of w)) (laterOp env)

/-! ### Copy batches (R257 to R260) -/

/-- Whether a batch number is sealed. -/
def Batch.sealed (b : Batch) (n : BitVec 32) : Bool := (b.issued - 1 - n).toNat < 2 ^ 31
/-- Whether a batch number is complete. -/
def Batch.complete (b : Batch) (n : BitVec 32) : Bool := b.sealed n && (b.done - 1 - n).toNat < 2 ^ 31
/-- The age of a batch number: 0 for the open batch. -/
def Batch.age (b : Batch) (n : BitVec 32) : Nat := (b.issued - n).toNat

/-- DONE advances over the batches at the head that are complete; they take the next places among the completed ones from `n` on, and the
codes of those with an error are counted (R241, R257, R329). -/
def Batch.advanceAll (b : Batch) (n : Nat) : Batch × Nat :=
  let r := Batch.advance b.incomplete b
  ((List.range r.2.length).foldl (fun x i => x.modSlot (b.done.toNat + i) fun y => { y with order := n + i }) r.1, r.2.countP (· != 0))

/-- DONE advances; a batch that completes with an error raises COPYERR (R329). An open batch that waits to be sealed is sealed then
(R261). -/
def Group.advanceBatch (g : Group) (n : Nat) : Group × Nat :=
  let r := g.batch.advanceAll n
  let g := { g with batch := r.1 }
  if !g.sealDue then (g, r.2)
  else
    let g := g.sealOpen
    let r' := g.batch.advanceAll (n + 8)
    ({ g with batch := r'.1 }, r.2 + r'.2)

/-- DONE of a group's batch record advances. -/
def State.advanceBatch (s : State) (k : Nat) : State :=
  let r := (s.grp k).advanceBatch s.nextId
  let s := { s.setGrp k r.1 with nextId := s.nextId + 16 }
  if r.2 = 0 then s else s.ctxEvent r.1.ctx 2

/-- CSEAL. -/
def csealBody (env : Env) (s : State) : Out :=
  let b := (s.grp env.k).batch
  if b.full then .hold .cseal
  else
    .start ((s.modGrp env.k fun g =>
      ({ g with batch := g.batch.seal }).wrS env.f.d.toNat (.of (b.issued.zeroExtend 64))).advanceBatch env.k) (laterOp env)

/-- The batch number an instruction names, and its register. -/
def batchArg (env : Env) (g : Group) : Reg :=
  if env.f.fn = 1 && env.f.xf = 1 then .of (env.f.imm.zeroExtend 64) else g.rdS env.f.a.toNat

/-- CWAIT: the acquire of R232 where a batch up to the one waited for wrote a global byte; a batch whose record
has gone counts as one that did. -/
def cwaitBody (env : Env) (s : State) : Out :=
  let g := s.grp env.k
  let b := g.batch
  poisonS env s (batchArg env g) .next
    (let n0 : BitVec 32 := (batchArg env g).val.truncate 32
     let n := if b.sealed n0 then n0 else b.issued - 1
     if !b.complete n then .hold .cwait
     else
       let glob := 8 ≤ b.age n || (List.range 8).any fun i => b.age n ≤ i && (b.slot (b.issued - BitVec.ofNat 32 i).toNat).glob
       .next (if glob then s.acquire (coreOf env.k) 1 else s))

/-- CBIND. -/
def cbindBody (env : Env) (s : State) : Out :=
  let g := s.grp env.k
  let b := g.batch
  let d := env.f.d.toNat
  poisonS env s (batchArg env g) (fun s => .start s (laterOp env))
    (let n : BitVec 32 := (batchArg env g).val.truncate 32
     let slot := b.slot n.toNat
     if !b.sealed n then .trap causeReserved env.pc 0 s
     else if !(s.bar g.team d).init then .trap causeBarInit env.pc 0 s
     else if 8 ≤ b.age n then .start (s.arriveAt g.team d none false) (laterOp env)
     else if b.complete n then .start (s.arriveAt g.team d none (slot.code != 0)) (laterOp env)
     else if slot.bound then .trap causeBarOver env.pc 0 s
     else .start (s.modGrp env.k fun g => { g with batch := g.batch.modSlot n.toNat fun x => { x with bound := true, bar := d } })
       (laterOp env))

/-- The status word of R260. -/
def Batch.status (b : Batch) (n : BitVec 32) : Nat :=
  if 8 ≤ b.age n then 3
  else
    let x := b.slot n.toNat
    x.nfault * 2 ^ 24 + x.code * 2 ^ 16 + x.bar * 2 ^ 12 + x.out * 4 + (if b.age n = 0 then 2 else if b.complete n then 0 else 1)

/-- CSTAT. -/
def cstatBody (env : Env) (s : State) : Out :=
  let g := s.grp env.k
  let put (s : State) (r : Reg) : Out := .start (s.modGrp env.k fun g => g.wrS env.f.d.toNat r) (laterOp env)
  poisonS env s (batchArg env g) (fun s => put s .poisoned)
    (put s (.of (BitVec.ofNat 64 (g.batch.status ((batchArg env g).val.truncate 32)))))

/-! ### Events -/

/-- PHASE_RELEASE_COMPLETE: a token's release actions have finished (R226). -/
def execPhaseReleaseComplete (k tok : Nat) (s : State) : Res := .next (s.tokDone k tok)

/-- The barrier instructions that wait. -/
def barrierGo (maj : BitVec 7) (f : Fields) : Option (State → State) :=
  if maj = 0x69 && f.fn = 1 then some fun s => issueSync 0x69 f s barvBody
  else if maj = 0x69 && f.fn = 2 then some fun s => issueSync 0x69 f s baraBody
  else if maj = 0x69 && f.fn = 3 then some fun s => issueWith 0x69 f s bwaitBody
  else none

/-- The instruction at which a group's lanes are parked is a BARV. -/
def State.atBarv (s : State) (k : Nat) : Bool :=
  match (s.fetchInstr k).2 with
  | .form maj f => maj = 0x69 && f.fn = 1
  | _ => false

/-- BARRIER_ARRIVAL: a group's arrival is counted once its release is complete, also where its watchdog has trapped it meanwhile, and a
BARA ends with it (R95, R241, R244). -/
def execBarrierArrival (k : Nat) (s : State) : Res :=
  .next (match (s.grp k).arrive with
    | some a =>
      if !((s.grp k).st = .held || (s.grp k).st = .trapped) || a.parity.isSome || !s.relDone a.rel then s
      else
        let barv := s.atBarv k
        let s := s.countArrival k a barv
        if barv then s else s.endSync k barrierGo
    | none => s)

/-- BARRIER_WAITER_RELEASE: a BARV or BWAIT whose phase has completed goes on, with the acquire (R244). -/
def execBarrierWaiterRelease (k : Nat) (s : State) : Res :=
  .next (
    let g := s.grp k
    if g.arrive.isSome then s else if g.arriving then s.endSync k barrierGo else s.resume k [.bwait] barrierGo)

/-- The groups whose wait at a barrier a completion has ended go on (R241, R244). -/
def State.releaseWaiters (s : State) : State :=
  ((s.groups.filter fun e => e.2.ended.isSome && e.2.st = .held).map Prod.fst).foldl (fun s k =>
    if (s.grp k).arrive.isSome then s else if (s.grp k).arriving then s.endSync k barrierGo else s.resume k [.bwait] barrierGo) s

/-- A group that goes on with its lanes parked at a BARV whose wait record is valid waits on, and its wait is over where the parity has
changed (R245, R246). -/
def State.rewait (s : State) (k : Nat) : State :=
  let g := s.grp k
  if !g.batch.bvValid || !(g.st = .ready || g.st = .held) || !s.atBarv k then s
  else
    let b := s.bar g.team g.batch.bvBar
    s.modGrp k fun g => { g with st := .held, hold := .bwait, ended := if b.parity != g.batch.bvParity then some b.err else none }

/-- PWAIT_RESUME (R227). -/
def execPwaitResume (k : Nat) (s : State) : Res :=
  .next (s.resume k [.pwait] fun maj f =>
    if maj = 0x68 && f.fn = 1 then some fun s => issueWith 0x68 f s pwaitBody else none)

/-- CWAIT_RESUME (R259). -/
def execCwaitResume (k : Nat) (s : State) : Res :=
  .next (s.resume k [.cwait, .cseal] fun maj f =>
    if maj = 0x6C && f.fn = 1 then some fun s => issueWith 0x6C f s cwaitBody
    else if maj = 0x6C && f.fn = 0 then some fun s => issueWith 0x6C f s csealBody
    else none)

/-- A bound batch in slot `j` that is complete arrives at its barrier (R233, R259); the last exit may have sealed an eighth
(R261), and the group may stand in a team image (R246). -/
def Group.batchArrives (g : Group) (j : Nat) : Option (Group × Nat × Bool) :=
  let b := g.batch
  let n := ((List.range 8).map fun i => b.issued - 1 - BitVec.ofNat 32 i).find? fun n => n.toNat % 8 = j
  let x := b.slot j
  match n with
  | some n =>
    if x.bound && b.complete n then some ({ g with batch := b.modSlot j fun x => { x with bound := false } }, x.bar, x.code != 0)
    else none
  | none => none

/-- BATCH_ARRIVAL (R233). -/
def execBatchArrival (k j : Nat) (s : State) : Res :=
  .next (match (s.grp k).batchArrives j with
    | some (g, n, err) => (s.setGrp k g).arriveAt g.team n none err
    | none => s)

/-! ### The meanings -/

/-- PHASE (R226). -/
def execPhase (f : Fields) (s : State) : Res := .next (issueWith 0x68 f s phaseBody)
/-- PWAIT (R227). -/
def execPwait (f : Fields) (s : State) : Res := .next (issueWith 0x68 f s pwaitBody)
/-- BINIT (R244). -/
def execBinit (f : Fields) (s : State) : Res := .next (issueWith 0x69 f s binitBody)
/-- BARV (R244). -/
def execBarv (f : Fields) (s : State) : Res := .next (issueSync 0x69 f s barvBody)
/-- BARA (R244). -/
def execBara (f : Fields) (s : State) : Res := .next (issueSync 0x69 f s baraBody)
/-- BWAIT (R244). -/
def execBwait (f : Fields) (s : State) : Res := .next (issueWith 0x69 f s bwaitBody)
/-- BTEST (R244). -/
def execBtest (f : Fields) (s : State) : Res := .next (issueWith 0x6A f s btestBody)
/-- CSEAL (R259). -/
def execCseal (f : Fields) (s : State) : Res := .next (issueWith 0x6C f s csealBody)
/-- CWAIT (R259). -/
def execCwait (f : Fields) (s : State) : Res := .next (issueWith 0x6C f s cwaitBody)
/-- CBIND (R259). -/
def execCbind (f : Fields) (s : State) : Res := .next (issueWith 0x6C f s cbindBody)
/-- CSTAT (R260). -/
def execCstat (f : Fields) (s : State) : Res := .next (issueWith 0x6C f s cstatBody)

end Sys2Proof.Machine
end

