-- ==== Sys2Proof/Machine/Route.lean ====
section
/-!
DEFINITION. Numbered routes (R334 to R337): their paths, the checks of their installation, and where traffic leaves them.
-/

namespace Sys2Proof.Machine

/-! ### Paths and checks (R334, R336) -/

/-- The origin of a partition (R355). -/
def Part.origin (p : Part) : Nat × Nat :=
  (p.sites.foldl (fun m t => min m (siteX t)) 47, p.sites.foldl (fun m t => min m (siteY t)) 95)

/-- The coordinates from one to another, the first left out. -/
def towards (a b : Nat) : List Nat :=
  if a ≤ b then (List.range (b - a)).map fun i => a + i + 1 else (List.range (a - b)).map fun i => a - i - 1

/-- The points after the first of a leg, X first, then Y. -/
def leg (a b : Nat × Nat) : List (Nat × Nat) := (towards a.1 b.1).map (fun x => (x, a.2)) ++ (towards a.2 b.2).map fun y => (b.1, y)

/-- The logical points of a route's path. -/
def routePath (r : Route) : List (Nat × Nat) :=
  r.src :: ((r.via ++ [r.dst]).foldl (fun (x : (Nat × Nat) × List (Nat × Nat)) p => (p, x.2 ++ leg x.1 p)) (r.src, [])).2

/-- The link from a site to a neighbour: 0 north, 1 east, 2 south, 3 west. -/
def linkTo (a b : Nat) : Nat := if b = a + 48 then 0 else if b = a + 1 then 1 else if b + 48 = a then 2 else 3

/-- Whether traffic of a partition may stand at a site: a member, or a pass-through (R11, R355). -/
def State.passable (s : State) (p t : Nat) : Bool :=
  (s.part p).sites.contains t || s.site t = .spare || s.site t = .mappedOut

/-- Whether a list of neighbouring sites is a path that the tag's permissions allow (R331, R336). -/
def State.pathOk (s : State) (p : Nat) : List Nat → Bool
  | [] => true
  | [t] => s.passable p t && s.site t != .hole
  | a :: b :: r =>
    s.passable p a && s.site a != .hole && (smGet [] (s.router a).links p).contains (linkTo a b)
      && (smGet [] (s.router b).links p).contains (linkTo b a) && s.pathOk p (b :: r)

/-- Whether a route may be installed (R336). -/
def State.routeOk (s : State) (p : Nat) (r : Route) : Bool :=
  let o := (s.part p).origin
  let pts := (routePath r).map fun x => (x.1 + o.1, x.2 + o.2)
  r.num < 256 && r.via.length ≤ 12 && pts.all (fun x => x.1 < 48 && x.2 < 96) && s.pathOk p (pts.map fun x => siteAt x.1 x.2)

/-- Whether a route can be installed beside those there: its number is free or has the same path (R334). -/
def State.routeFits (s : State) (p : Nat) (r : Route) : Bool :=
  match smGet none (s.part p).routes r.num with
  | none => true
  | some x => routePath x = routePath r

/-! ### Traffic on a numbered route (R337) -/

/-- The sites on the path of an installed route of a partition. -/
def State.routeSites (s : State) (p num : Nat) : List Nat :=
  let o := (s.part p).origin
  match smGet none (s.part p).routes num with
  | some r => (routePath r).map fun x => siteAt (x.1 + o.1) (x.2 + o.2)
  | none => []

/-- The places on a route from which a site has the fewest hops; traffic to it leaves the route at the first of them (R337). -/
def State.leaveAt (s : State) (p dst : Nat) (path : List Nat) : Nat :=
  let far := path.map fun t => s.pathHops p t dst
  far.findIdx fun n => far.all fun m => n ≤ m

/-- Whether a link between neighbours on a path is down. -/
def State.pathCut (s : State) : List Nat → Bool
  | a :: b :: r => (s.router a).down.contains (linkTo a b) || s.pathCut (b :: r)
  | _ => false

/-- Whether traffic on a numbered route meets a link that is down: on the way to its first tile, on the route as far as it follows it,
or from where it leaves it (R333, R337). -/
def State.routeCut (s : State) (p num a dst : Nat) : Bool :=
  let path := s.routeSites p num
  match path[s.leaveAt p dst path]? with
  | none => s.cut p a dst
  | some t => s.cut p a (path.headD a) || s.pathCut (path.take (s.leaveAt p dst path + 1)) || s.cut p t dst

/-- The output link of a flit, and the part of its route that is then still ahead of it: by the route table to the route's first tile, along
the route, and from the first tile with the fewest hops by the route table to its destination (R332, R337). -/
def State.flitLink (s : State) (x : Flit) : Option Nat × List Nat :=
  match x.path with
  | [] => (s.nextLink x.tag x.site x.dst, [])
  | a :: r =>
    if x.site != a then (s.nextLink x.tag x.site a, a :: r)
    else
      match r with
      | b :: _ => if s.leaveAt x.tag x.dst (a :: r) = 0 then (s.nextLink x.tag x.site x.dst, []) else (some (linkTo a b), r)
      | [] => (s.nextLink x.tag x.site x.dst, [])

end Sys2Proof.Machine
end

