-- ==== Sys2Proof/Machine/Copy.lean ====
section
/-!
DEFINITION. The copy engine and messages (R247 to R256, R322, R323, R337 to R341): CPY, CPYM, CPYF and
XSEND at issue, element reads and writes, shares, follow-on MMAs and completion.
-/

namespace Sys2Proof.Machine

/-! ### Descriptors (R248 to R251) -/

/-- Bytes of an element type (R250). -/
def copyBytes (t : Nat) : Nat :=
  match t with
  | 0 => 1
  | 1 => 2
  | 2 => 4
  | 3 => 8
  | 4 => 4
  | 5 => 2
  | 6 => 2
  | _ => 1

/-- The format of a floating element type. -/
def copyFmt (t : Nat) : Fmt := cvtFmt (t - 4)

/-- A little-endian field of the descriptor. -/
def descNat (bs : List Byte) (o n : Nat) : Nat := leNat ((bs.drop o).take n)

/-- The descriptor's fields. -/
def readDesc (bs : List Byte) : CopyDesc :=
  let c := descNat bs 0 8
  { ndim := c % 16, styp := c / 2 ^ 4 % 16, dtyp := c / 2 ^ 8 % 32, rnd := c / 2 ^ 13 % 8, sat := c / 2 ^ 16 % 2 = 1,
    sspace := c / 2 ^ 18 % 4, dspace := c / 2 ^ 20 % 4, route := c / 2 ^ 28 % 256,
    src := BitVec.ofNat 64 (descNat bs 8 8), dst := BitVec.ofNat 64 (descNat bs 16 8),
    fill := BitVec.ofNat 64 (descNat bs 24 8), multi := BitVec.ofNat 64 (descNat bs 32 8),
    dims := (List.range (c % 16)).map fun i =>
      let o := 0x28 + 24 * i
      { sstride := sext (descNat bs o 6) 48, dstride := sext (descNat bs (o + 6) 6) 48, size := descNat bs (o + 12) 4,
        start := sext (descNat bs (o + 16) 4) 32, extent := descNat bs (o + 20) 4 },
    follow := (bs.drop 0xD0).take 48 }

/-- Elements of a copy. -/
def CopyDesc.count (d : CopyDesc) : Nat := d.dims.foldl (fun n x => n * x.size) 1

/-- The conditions of COPY_DESC that every copy has (R248 to R251); `c` is the control word. -/
def CopyDesc.bad (d : CopyDesc) (c : Nat) : Bool :=
  c / 2 ^ 36 != 0 || c / 2 ^ 22 % 64 != 0 || c / 2 ^ 17 % 2 != 0 || d.ndim = 0 || 9 < d.ndim || 8 < d.styp || 8 < d.dtyp
    || 4 < d.rnd || 2 < d.sspace || 2 < d.dspace
    || ((d.styp < 4 || d.dtyp < 4) && (d.styp != d.dtyp || d.rnd != 0 || d.sat))
    || d.dims.any (fun x => x.size = 0 || x.sstride % (copyBytes d.styp : Int) != 0 || x.dstride % (copyBytes d.dtyp : Int) != 0)
    || 2 ^ 40 ≤ d.count || d.src.toNat % copyBytes d.styp != 0 || d.dst.toNat % copyBytes d.dtyp != 0

/-- One dimension of one side: first index, indices and stride. -/
abbrev SideDim := Int × Nat × Int

/-- The source side: the elements in bounds. -/
def CopyDesc.srcSide (d : CopyDesc) : List SideDim :=
  d.dims.map fun x =>
    let a := if x.extent = 0 then x.start else max x.start 0
    let z := if x.extent = 0 then x.start + (x.size : Int) else min (x.start + (x.size : Int)) (x.extent : Int)
    (a, (z - a).toNat, x.sstride)

/-- The destination side. -/
def CopyDesc.dstSide (d : CopyDesc) : List SideDim := d.dims.map fun x => (0, x.size, x.dstride)

/-- Lowest and highest exact address of a side. -/
def sideSpan (base : Nat) (ds : List SideDim) : Int × Int :=
  ds.foldl (fun r x =>
    let p := x.1 * x.2.2
    let q := (x.1 + (x.2.1 : Int) - 1) * x.2.2
    (r.1 + min p q, r.2 + max p q)) (base, base)

/-- Every address of a side, modulo 2^64. -/
def sideAll (base : Int) : List SideDim → List Nat
  | [] => [(base % 2 ^ 64).toNat]
  | x :: r => (List.range x.2.1).flatMap fun i => sideAll (base + (x.1 + i) * x.2.2) r

/-- First and last + 1 byte of a side with elements of `n` bytes, none when it touches nothing; and the lowest
byte at or above `w` that it touches. Where the exact addresses stay in one block of 2^64 below `w` no element
need be listed. -/
def sideCheck (base : Nat) (ds : List SideDim) (n w : Nat) : Option (Nat × Nat) × Option Nat :=
  if ds.any fun x => x.2.1 = 0 then (none, none)
  else
    let (lo, hi) := sideSpan base ds
    let q := lo / 2 ^ 64 * 2 ^ 64
    if hi - q + n ≤ w then (some ((lo - q).toNat, (hi - q).toNat + n), none)
    else
      let as := sideAll base ds
      let out := (as.filter fun a => w < a + n).map fun a => max a w
      (some (as.foldl min (as.headD 0), as.foldl (fun m a => max m (a + n)) 0),
        if out.isEmpty then none else some (out.foldl min (out.headD 0)))

/-- Fields of a follow-on block (R182). -/
def followCtl (d : CopyDesc) : Nat := descNat d.follow 0 8

/-- The follow-on block's MMA. -/
def followMma (d : CopyDesc) (id : Nat) : MmaEnt :=
  let c := followCtl d
  let pair (o : Nat) : Word × Word := (BitVec.ofNat 64 (descNat d.follow o 8), BitVec.ofNat 64 (descNat d.follow (o + 8) 8))
  { acc := 0, x := ebit c 9, ty := c / 2 ^ 10 % 16, areg := c / 2 ^ 16 % 128, breg := c / 2 ^ 23 % 128,
    apair := if ebit c 14 then some (pair 8) else none, bpair := if ebit c 15 then some (pair 24) else none,
    ctrl := BitVec.ofNat 32 (c / 2 ^ 30 % 2 ^ 30), copy := some id }

/-- GROUP of a follow-on block. -/
def followGroup (d : CopyDesc) : Nat := followCtl d % 32
/-- ACC of a follow-on block. -/
def followAcc (d : CopyDesc) : Nat := followCtl d / 2 ^ 6 % 8

/-- What makes a follow-on block raise COPY_DESC: a reserved or unused field, an unlisted type, a register
range beyond the target group's budget `regs` (R183). -/
def followBad (d : CopyDesc) (regs : Nat) : Bool :=
  let c := followCtl d
  let m := followMma d 0
  let x := m.ctrl
  let mx (b : Bool) (lo : Nat) : Bool := if mmaxMxe m.ty b then regs < bits x lo 7 + 4 else bits x lo 7 != 0
  c / 2 ^ 60 != 0 || ebit c 5 || descNat d.follow 40 8 != 0
    || (!ebit c 14 && regs < m.areg + 16) || (!ebit c 15 && regs < m.breg + 16)
    || (if m.x then
          8 < m.ty || regs ≤ bits x 0 7 || regs ≤ bits x 8 7 || mx false 16 || mx true 23
            || (mmax4 m.ty && (x.getLsbD 7 || x.getLsbD 15))
        else 7 < m.ty || x != 0)

/-! ### Issue (R251, R255, R256) -/

/-- Copies and messages of a tile issued and not complete. -/
def State.engineLoad (s : State) (site : Nat) : Nat := s.copies.countP fun c => c.site = site

/-- Room for one more copy or message of a group: at its tile and in its open batch (R247, R257, R339). -/
def State.copyRoom (s : State) (k : Nat) : Bool :=
  let b := (s.grp k).batch
  s.engineLoad (siteOf k) < 64 && (b.slot b.issued.toNat).out < 64

/-- A copy or message joins the open batch of its group and takes its ranges and its slot. -/
def State.addCopy (s : State) (env : Env) (c : Copy) (ranges : List RangeEnt) : State :=
  let g := s.grp env.k
  let s := s.modGrp env.k fun g =>
    { g.raiseSb env.f.slot with batch := g.batch.modSlot g.batch.issued.toNat fun x => { x with out := x.out + 1 } }
  let s := s.modTile (siteOf env.k) fun t => { t with range := t.range ++ ranges.map fun e => { e with copy := some s.nextId } }
  { s with
    copies := s.copies ++ [{ c with
      id := s.nextId, gid := g.gid, team := g.team, site := siteOf env.k, part := (s.ctx g.ctx).part, batch := g.batch.issued,
      sbs := env.f.slot }],
    nextId := s.nextId + 1 }

/-- An empty copy or message: it completes at once with CODE 8 (R251, R339). -/
def State.emptyCopy (s : State) (env : Env) : State :=
  s.modGrp env.k fun g => { g with batch := g.batch.modSlot g.batch.issued.toNat fun x =>
    { x with nfault := min 255 (x.nfault + 1), code := if x.code = 0 then 8 else x.code } }

/-- A copy that has passed its checks issues, or is held with what it read: where 64 are issued and not complete (R247), or its
entries cannot all be taken (R255). -/
def State.copyIssue (s : State) (env : Env) (c : Copy) (ranges : List RangeEnt) : Out :=
  let keep (x : Option (Option (Copy × List RangeEnt))) : State := s.modGrp env.k fun g => { g with staged := x }
  if !s.copyRoom env.k then .wait .engine (keep (some (some (c, ranges))))
  else if 64 < (s.tile (siteOf env.k)).range.length + ranges.length then .wait .range (keep (some (some (c, ranges))))
  else .next ((keep none).addCopy env c ranges)

/-- A copy with a poisoned descriptor issues empty, or is held (R251). -/
def State.emptyIssue (s : State) (env : Env) : Out :=
  if s.copyRoom env.k then .next (((s.modGrp env.k fun g => { g with staged := none }).emptyCopy env).consume env.k 1)
  else .wait .engine (s.modGrp env.k fun g => { g with staged := some none })

/-- The lowest of the offsets outside its memory that a copy can touch, with its cause. Where both sides have one the lower offset gives
the cause, and of two equal ones the source's (R251; DESIGN CHOICE, log 93). -/
def firstOut (src dst : Option Nat) (sc dc : Nat) : Option (Nat × Nat) :=
  match src, dst with
  | some x, some y => if x ≤ y then some (sc, x) else some (dc, y)
  | some x, none => some (sc, x)
  | none, some y => some (dc, y)
  | none, none => none

/-- CPY, CPYM and CPYF: the checks of R251, then the holds of R247, R255 and R257. A copy that is held has read its descriptor. -/
def copyBody (kind : CopyKind) (env : Env) (s : State) : Out :=
  let g := s.grp env.k
  let t := s.team g.team
  let a := g.rdS env.f.a.toNat
  let off := a.val + BitVec.ofInt 64 env.f.disp
  let p := (s.ctx g.ctx).part
  match g.staged with
  | some (some x) => s.copyIssue env x.1 x.2
  | some none => s.emptyIssue env
  | none =>
    if !g.copyr then .trap causeCopyRights env.pc 0 s
    else if off.toNat % 64 != 0 then .trap causeAlign off 0 s
    else if t.wsize < off.toNat + 256 then .trap causeSpad off 0 s
    else
      let (s, bs, ps) := s.spadRd g.team off.toNat 256
      if a.bad || ps.any id then poisonGate env s 1 (s.emptyIssue env)
      else
        let d := readDesc bs
        let m := d.multi.toNat
        let own : Bool :=
          match kind with
          | .multicast => d.dspace != 1 || m / 2 ^ 32 % 256 = 0 || 64 < m / 2 ^ 32 % 256 || m / 2 ^ 45 != 0
          | .follow => d.route != 0 || m != 0 || d.dspace != 1 || 7 < d.ndim
              || (match s.member g.team (followGroup d) with | some h => followBad d h.regs | none => true)
          | _ => d.route != 0 || m != 0
        if d.bad (descNat bs 0 8) || own then .trap causeCopyDesc off 0 s
        else if kind = .multicast && (smGet none (s.part p).routes d.route).isNone then .trap causeRoute env.pc 0 s
        else
          let lim (sp : Nat) : Nat := if sp = 1 then t.wsize else s.bmSize p
          let sc := if d.sspace = 0 then (none, none) else sideCheck d.src.toNat d.srcSide (copyBytes d.styp) (lim d.sspace)
          let dc := if d.dspace = 0 || kind = .multicast then (none, none)
                    else sideCheck d.dst.toNat d.dstSide (copyBytes d.dtyp) (lim d.dspace)
          let cause (sp : Nat) : Nat := if sp = 1 then causeSpad else causeBank
          match firstOut sc.2 dc.2 (cause d.sspace) (cause d.dspace) with
          | some x => .trap x.1 (BitVec.ofNat 64 x.2) 0 s
          | none =>
            let ent (sp : Nat) (dest : Bool) (r : Option (Nat × Nat)) : List RangeEnt :=
              match sp, r with
              | 1, some x => [{ team := g.team, dest, lo := x.1, hi := x.2, copy := none, mma := none }]
              | _, _ => []
            s.copyIssue env {
              id := 0, kind, gid := 0, team := 0, site := 0, part := 0, batch := 0, desc := d,
              sbase := 2 ^ 23 * t.site + t.wbase, total := d.count, route := d.route, rben := ebit m 44, rbar := m / 2 ^ 40 % 16,
              recv := if kind = .multicast then (List.range (m / 2 ^ 32 % 256)).map fun i => { team := (m + i) % 2 ^ 32 } else [] }
              (ent d.sspace false sc.1 ++ ent d.dspace true dc.1)

/-! ### Elements (R249, R250, R252) -/

/-- The indices of element `n`, dimension 0 first. -/
def copyIdx : List CopyDim → Nat → List Nat
  | [], _ => []
  | x :: r, n => n % x.size :: copyIdx r (n / x.size)

/-- Element `n`: whether it is in bounds, its source and its destination address. -/
def CopyDesc.elem (d : CopyDesc) (n : Nat) : Bool × Nat × Nat :=
  let r := (d.dims.zip (copyIdx d.dims n)).foldl (fun (r : Bool × Int × Int) x =>
    let i : Int := (x.2 : Nat) + x.1.start
    (r.1 && (x.1.extent = 0 || (0 ≤ i && i < x.1.extent)), r.2.1 + i * x.1.sstride, r.2.2 + x.2 * x.1.dstride))
    (true, d.src.toNat, d.dst.toNat)
  (r.1, (r.2.1 % 2 ^ 64).toNat, (r.2.2 % 2 ^ 64).toNat)

/-- The value of a destination element from its source bytes (R250). -/
def CopyDesc.conv (d : CopyDesc) (v : List Byte) (ps : List Bool) : List Byte × List Bool :=
  if d.styp < 4 then (v, ps)
  else
    let fm := copyFmt d.dtyp
    let n := copyBytes d.dtyp
    if ps.any id then (leBytes n fm.canon, List.replicate n true)
    else (leBytes n (fm.ofVal d.rnd 0 d.sat ((copyFmt d.styp).val (leNat v))).1, List.replicate n false)

/-- The code of a copy's translation fault (R252). -/
def xlateCode (cause : Nat) : Nat := if cause = causeMiss then 1 else 2

/-- The context of a copy. -/
def Copy.ctx (c : Copy) : Nat := c.team % 4096

/-- What the read of a source element gives: its bytes with their poison, the CODE of its fault, or nothing yet. -/
inductive ElemRead where
  | value (v : List Byte) (p : List Bool)
  | fault (code : Nat)
  | waits

/-- A copy loses a flit on a link that is down: its batch ends with CODE 6 (R333). -/
def State.copyCut (s : State) (c : Copy) : State := (s.routeDrop c.part).batchErr c 6

/-- An access of a copy to an element at a host or another module goes out, or is held at a migrating page (R203, R252). -/
def State.copySend (s : State) (c : Copy) (kind : OpKind) (n size : Nat) (x : LaneOp) : State :=
  { s with
    ops := s.ops ++ [{
      id := s.nextId, k := copyOwner c.id c.site, kind, part := c.part, team := c.ctx, size, addr := BitVec.ofNat 64 n, time := s.time,
      lanes := [x] }],
    nextId := s.nextId + 1 }

/-- Bytes of a window that a team has given up, with their poison. -/
def snapRead (x : SMap Byte × SMap Bool) (o n : Nat) : List Byte × List Bool :=
  ((List.range n).map fun i => smGet 0 x.1 (o + i), (List.range n).map fun i => smGet false x.2 ((o + i) / 8))

/-- A global access of a copy is translated at its tile: by the TLB, or by the tile's walker, for which it waits (R191). -/
def State.copyXlate (s : State) (c : Copy) (a : Nat) (k : Acc1) : State × Option (Except Nat Xlate) :=
  match s.missingAt c.site (copyOwner c.id c.site) c.part [a] with
  | [] => let r := s.globalCheck c.site c.part (BitVec.ofNat 64 a) k
          (r.1.endWalksAt c.site (copyOwner c.id c.site), some r.2)
  | ns => (s.askWalksAt c.site (copyOwner c.id c.site) c.part ns, none)

/-- Reads source element `n` of `size` bytes. A scratchpad source is not remapped (R322): once its team has left, the bytes are those that
stood there (R394; DEDUCED, log 98). One at a host or another module is asked for,
and stands in `got` when it is answered (R252). -/
def State.copyRead (s : State) (c : Copy) (n sa size : Nat) : State × ElemRead :=
  if c.desc.sspace = 1 then
    match c.snap with
    | some x => (s, .value (snapRead x sa size).1 (snapRead x sa size).2)
    | none =>
      let r := s.rdStore c.ctx .spad (c.sbase + sa) size
      (r.1, .value r.2.1 r.2.2)
  else if c.desc.sspace = 2 then
    if (s.part c.part).grow.isSome then (s, .waits)
    else if s.cut c.part c.site (s.bankSite c.part sa) then (s.routeDrop c.part, .fault 6)
    else
      let r := s.rdStore c.ctx .bank (bankAddr c.part sa) size
      (r.1, .value r.2.1 r.2.2)
  else
    match c.got.find? fun e => e.1 = n with
    | some e => (s, .value (e.2.1.take size) (e.2.2.take size))
    | none =>
      if s.ops.any fun o => o.k = copyOwner c.id c.site && o.kind = .ld && o.addr.toNat = n then (s, .waits)
      else
        match s.copyXlate c sa .load with
        | (s, none) => (s, .waits)
        | (s, some (.error e)) => (s, .fault (xlateCode e))
        | (s, some (.ok x)) =>
          if leafTgt x.leaf = 0 then
            let pa := s.seqPa c.part (leafRep x.leaf) x.pa
            if s.cut c.part c.site (s.homeSite pa) then (s.routeDrop c.part, .fault 6)
            else
              match s.homeRd c.part c.ctx pa size 0 with
              | (s, some v) => (s, .value v.1 v.2)
              | (s, none) => (s, .fault 6)
          else (s.copySend c .ld n size { lane := 0, ea := BitVec.ofNat 64 sa, pa := x.pa, tgt := leafTgt x.leaf }, .waits)

/-- Whether bytes of a team's window lie under the range of one of its MMAs, live or in its image (R171). -/
def State.underMma (s : State) (tk lo hi : Nat) : Bool :=
  let hit (e : RangeEnt) : Bool := e.mma.isSome && e.team = tk && e.lo < hi && lo < e.hi
  match (s.team tk).image with
  | some im => im.accs.any fun a => a.mmas.any fun m => (m.ranges tk 0).any hit
  | none => (s.tile (s.team tk).site).range.any hit

/-- Whether bytes can land in a team's window now: not while it is in transit, before its last byte has landed (R322), and not under an
MMA's range (R171). What a kill discarded takes them all (R326). -/
def State.canLand (s : State) (tk lo hi : Nat) : Bool :=
  let t := s.team tk
  t.st = .ended || (!(t.st = .transit && !t.down) && !s.underMma tk lo hi)

/-- The site at which bytes for a team's window land: that of its tile, or of the home of its image (R322). -/
def State.landSite (s : State) (tk : Nat) : Nat :=
  let t := s.team tk
  match t.image with
  | some im => if t.st = .transit then t.site else ((s.savePa t.ctx (im.base + 0x290000)).map fun x => s.homeSite x.1).getD t.site
  | none => t.site

/-- Bytes land in a team's window where it stands, in its image on the way, or at the home of its window region in the save area (R322),
that of a killed team's image included; those of a team that has gone land nowhere (R326). -/
def State.landBytes (s : State) (tk : Nat) (bs : List WByte) : State :=
  let t := s.team tk
  match t.image with
  | some im =>
    if t.st = .transit then
      s.modTeam tk fun t => { t with image := some { im with
        window := bs.foldl (fun m b => smSet 0 m b.1 b.2.1) im.window, wpoi := poiAfter im.wpoi bs } }
    else
      let w := bs.map fun b => (im.base + 0x290000 + b.1, b.2)
      ((w.map fun b => b.1 / 64).eraseDups).foldl (fun s ln => s.saveLine t.ctx (w.filter fun b => b.1 / 64 = ln)) s
  | none =>
    if !t.present then s
    else
      let w := bs.map fun b => (t.spadAddr b.1, b.2)
      { (s.wrStore t.ctx .spad w) with
        sown := ((w.map fun b => b.1 / 64).eraseDups).foldl (fun m l => smSet 0 m l (t.ctx + 1)) s.sown }

/-- Writes a destination element, or tells that it has to wait. -/
def State.copyPut (s : State) (c : Copy) (n da : Nat) (v : List Byte) (ps : List Bool) : State × Bool :=
  let bs := wbytes da v ps
  if c.kind = .multicast then
    (s.modCopy c.id fun c => { c with bytes := (c.bytes.filter fun b => !(bs.any fun y => y.1 = b.1)) ++ bs }, true)
  else if c.desc.dspace = 1 then
    if !s.canLand c.team da (da + v.length) then (s, false)
    else if s.cut c.part c.site (s.landSite c.team) then (s.copyCut c, true)
    else (s.landBytes c.team bs, true)
  else if c.desc.dspace = 2 then
    if (s.part c.part).grow.isSome then (s, false)
    else if s.cut c.part c.site (s.bankSite c.part da) then (s.copyCut c, true)
    else (s.wrStore c.ctx .bank (wbytes (bankAddr c.part da) v ps), true)
  else
    match s.copyXlate c da .store with
    | (s, none) => (s, false)
    | (s, some (.error e)) => (s.batchErr c (xlateCode e), true)
    | (s, some (.ok x)) =>
      let s := s.modMember c.team c.gid fun g =>
        { g with batch := g.batch.modSlot c.batch.toNat fun x => { x with glob := true } }
      let lo : LaneOp := { lane := 0, ea := BitVec.ofNat 64 da, pa := x.pa, tgt := leafTgt x.leaf, rep := leafRep x.leaf, data := v, poi := ps }
      if leafTgt x.leaf = 0 then
        let pa := s.seqPa c.part (leafRep x.leaf) x.pa
        let w := wbytes pa v ps
        if s.cut c.part c.site (s.homeSite pa) then (s.copyCut c, true)
        else if leafMig x.leaf then (s.copySend c .wback n 0 { lo with phase := .migrating, held := s.nextId }, true)
        else
          match s.homeWr c.part c.ctx w 0 with
          | (s, true) => (s.orderWr c.part (leafRep x.leaf) c.id none c.ctx noCore 0 w, true)
          | (s, false) => (s.copyHostErr c, true)
      else (s.copySend c .wback n 0 lo, true)

/-- The copy of an identifier. -/
def State.copy? (s : State) (id : Nat) : Option Copy := s.copies.find? fun c => c.id = id

/-- COPY_START: the oldest waiting copy of a tile takes the lowest free channel of its 16 (R247). -/
def execCopyStart (id : Nat) (s : State) : Res :=
  .next (match s.copy? id with
    | none => s
    | some c =>
      let mine := s.copies.filter fun x => x.site = c.site && x.kind != .message
      let free := (List.range 16).find? fun i => mine.all fun x => x.chan != some i
      if c.kind = .message || c.chan.isSome || mine.any (fun x => x.chan.isNone && x.id < c.id) then s
      else match free with | some i => s.modCopy id fun c => { c with chan := some i } | none => s)

/-- Whether an earlier element that shares a byte with element `n` is still to be written (R253). -/
def Copy.behind (c : Copy) (n : Nat) : Bool :=
  let w := copyBytes c.desc.dtyp
  let a := (c.desc.elem n).2.2
  (List.range n).any fun i =>
    let b := (c.desc.elem i).2.2
    b < a + w && a < b + w && !c.doneEl.contains i

/-- COPY_WRITE: one element is read and written (R249). -/
def State.copyWrite (s : State) (c : Copy) (n : Nat) : State :=
  if c.chan.isNone || c.total ≤ n || c.doneEl.contains n || c.behind n then s
  else
    let w := copyBytes c.desc.dtyp
    let e := c.desc.elem n
    let put (s : State) (v : List Byte) (ps : List Bool) : State × Bool :=
      match s.copyPut c n e.2.2 v ps with
      | (s, false) => (s, false)
      | (s, true) =>
        (s.modCopy c.id fun c => { c with
          doneEl := n :: c.doneEl, got := c.got.filter fun x => x.1 != n
          landAt := if c.doneEl.length + 1 = c.total then some s.time else c.landAt }, true)
    if !e.1 then (put s (leBytes w c.desc.fill.toNat) []).1
    else
      match s.copyRead c n e.2.1 (copyBytes c.desc.styp) with
      | (s', .waits) => s'
      | (s', .value v p) => let x := c.desc.conv v p; (put s' x.1 x.2).1
      | (s', .fault code) =>
        match put s' (List.replicate w 0) (List.replicate w true) with
        | (s'', false) => s''
        | (_, true) => (put (s'.batchErr c code) (List.replicate w 0) (List.replicate w true)).1

/-- COPY_WRITE (R249). -/
def execCopyWrite (id n : Nat) (s : State) : Res :=
  .next (match s.copy? id with | some c => s.copyWrite c n | none => s)

/-! ### Shares and messages (R254, R337 to R341) -/

/-- TEAM_LOCATION_LOOKUP: receivers that are not in transit are looked up; one that is absent is refused with
CODE 3 (R337). One whose lookup or answer meets a link that is down is lost, with CODE 6 (R333). -/
def execTeamLocationLookup (id : Nat) (s : State) : Res :=
  .next (match s.copy? id with
    | none => s
    | some c =>
      if c.remote.isSome then s
      else
        c.recv.foldl (fun s r =>
          let t := s.team (c.recvKey r)
          if r.looked || t.st = .transit then s
          else
            let upd (s : State) (f : Recv → Recv) : State :=
              s.modCopy id fun c => { c with recv := c.recv.map fun x => if x.team = r.team then f x else x }
            if t.present && t.image.isNone && s.cutBoth c.part c.site t.site then
              upd (s.copyCut c) fun x => { x with looked := true, done := true }
            else if t.present then upd s fun x => { x with looked := true, site := if t.image.isNone then some t.site else none }
            else upd (s.batchErr c 3) fun x => { x with looked := true, done := true }) s)

/-- Incoming shares and messages that a tile has accepted, those of other modules included (R255). -/
def State.accepted (s : State) (site : Nat) : Nat :=
  (s.copies.foldl (fun n c => n + c.recv.countP fun r => r.taken = some site && !r.done) 0)
    + s.ports.foldl (fun n e => n + e.2.rbuf.countP fun x => x.taken = some site) 0

/-- The team that a packet of a message from another module names (R344, R347). -/
def packetTeam (p : Etsel) : Nat := teamKey p.ctx (BitVec.ofNat 32 p.grid) (p.hdr.addr.truncate 32)

/-- Whether a copy, share or message of an identifier is on its way. -/
def State.carried (s : State) (id : Nat) : Bool := (s.copies.any fun c => c.id = id) || s.ports.any fun e => e.2.rbuf.any fun x => x.id = id

/-- The copy list entries of the shares and messages for a team that have been accepted and have not landed (R312). -/
def State.sharesOf (s : State) (tk site : Nat) : List (Nat × List Byte) :=
  let rs := (s.tile site).range
  ((s.copies.filter fun c => c.recv.any fun r => c.recvKey r = tk && r.taken.isSome && !r.done).map fun c =>
      (c.id, shareEntry c.site (c.chan.getD 0) (c.kind = .multicast) c.id tk rs))
    ++ s.ports.flatMap fun e => (e.2.rbuf.filter fun x => x.taken.isSome && packetTeam x.pkt = tk).map fun x =>
      (x.id, shareEntry (etselSite e.1) 0 false x.id tk rs)

/-- A share or message whose receiver has answered its lookup lands there (R254): the lowest and highest + 1 offset that it can touch, the
bytes, and the barrier at which it arrives. -/
structure Landing where
  id   : Nat
  team : Nat
  bytes : List WByte
  lo   : Nat
  hi   : Nat
  rben : Bool
  rbar : Nat

/-- The landing of some bytes. -/
def landingOf (id team : Nat) (bytes : List WByte) (rben : Bool) (rbar : Nat) : Landing where
  id := id
  team := team
  bytes := bytes
  lo := (bytes.map Prod.fst).foldl min ((bytes.map Prod.fst).headD 0)
  hi := (bytes.map Prod.fst).foldl (fun m a => max m (a + 1)) 0
  rben := rben
  rbar := rbar

/-- Whether a share or message holds an entry of the range scoreboard of the tile on which its team stands (R255). -/
def State.landHeld (s : State) (x : Landing) : Bool :=
  (s.tile (s.team x.team).site).range.any fun e => e.share && e.copy = some x.id && e.team = x.team

/-- The entry of a share or message leaves the range scoreboard and the team's copy list (R255, R312). -/
def State.landOver (s : State) (x : Landing) : State :=
  (s.modTile (s.team x.team).site fun t => { t with
    range := t.range.filter fun e => !(e.share && e.copy = some x.id && e.team = x.team) }).clearEntry x.team x.id true

/-- What becomes of a share or message at its receiver. -/
inductive Landed where
  | waits
  | takes
  | ends (code : Nat) (s : State)

/-- A share or message at its receiver (R254, R255): it waits while the team is in transit; at the tile of its team it takes an entry of
the range scoreboard and then lands where no MMA holds the range; a receiver without window or barrier for it gives a CODE. `ends` gives 0
where nothing fails. -/
def State.land (s : State) (x : Landing) : Landed :=
  let t := s.team x.team
  let barOk : Bool := x.rben && x.rbar < t.nbars && (s.bar x.team x.rbar).init
  if t.st = .transit && !t.down then .waits
  else if !t.present then .ends 3 s
  else if t.wsize < x.hi then .ends 4 ((if barOk then (s.arriveAt x.team x.rbar none true).updateBars x.team else s).landOver x)
  else if t.image.isNone && !s.landHeld x then if (s.tile t.site).range.length < 64 then .takes else .waits
  else if !s.canLand x.team x.lo x.hi then .waits
  else
    let s := (s.landBytes x.team x.bytes).landOver x
    let s := if barOk then (s.arriveAt x.team x.rbar none false).updateBars x.team else s
    .ends (if x.rben && !barOk then 5 else 0) (if t.image.isNone then { s with wakes := s.wakes ++ [x.team] } else s)

/-- A share or message takes its entry (R255). -/
def State.landTake (s : State) (x : Landing) : State :=
  s.modTile (s.team x.team).site fun t => { t with
    range := t.range ++ [{ team := x.team, dest := true, lo := x.lo, hi := x.hi, copy := some x.id, mma := none, share := true }] }

/-- Changes the record of a receiver of a copy. -/
def State.modRecv (s : State) (id team : Nat) (f : Recv → Recv) : State :=
  s.modCopy id fun c => { c with recv := c.recv.map fun x => if x.team = team then f x else x }

/-- A share or message goes on towards one receiver: its tile accepts it, it takes its entry, and it lands. Its flits go by its numbered
route, and where they meet a link that is down it is lost, with CODE 6 (R254, R255, R333, R337). -/
def State.deliverTo (s : State) (c : Copy) (r : Recv) : State :=
  let x := landingOf c.id (c.recvKey r) c.bytes c.rben c.rbar
  if !r.looked || r.done then s
  else
    match s.land x with
    | .waits => s
    | .takes =>
      let t := r.site.getD (s.team x.team).site
      if r.taken.isSome then s.landTake x
      else if 64 ≤ s.accepted t then s
      else if s.routeCut c.part c.route c.site t then (s.copyCut c).modRecv c.id r.team fun x => { x with done := true }
      else s.modRecv c.id r.team fun x => { x with taken := some t }
    | .ends code s' =>
      if r.taken.isNone && code != 3 && s.routeCut c.part c.route c.site (s.landSite x.team) then
        (s.copyCut c).modRecv c.id r.team fun x => { x with done := true }
      else ((if code = 0 then s' else s'.batchErr c code).modRecv c.id r.team fun x => { x with done := true }).trimRemap

/-- MULTICAST_SHARE: the share of receiver `r` lands, is dropped or fails once the source is read (R254). -/
def execMulticastShare (id r : Nat) (s : State) : Res :=
  .next (match s.copy? id with
    | none => s
    | some c =>
      match c.recv[r]? with
      | some x => if c.kind = .multicast && c.doneEl.length = c.total then s.deliverTo c x else s
      | none => s)

/-- Whether an earlier message of the group to the same receiver by the same way is not delivered (R340). -/
def State.messageFirst (s : State) (c : Copy) : Bool :=
  s.copies.all fun x => !(x.kind = .message && x.id < c.id && x.team = c.team && x.gid = c.gid && x.route = c.route
    && x.remote = c.remote && (x.recv.map fun r => r.team) = (c.recv.map fun r => r.team) && !x.sent)

/-- Packets of a message to another module (R344): at most 256 bytes each, consecutive lanes ascending. -/
def messagePackets (c : Copy) (hdr : EtselHdr) (size : Nat) : List (EtselHdr × List Byte × List Bool) :=
  let per := 256 / size
  let lanes := ((List.range 32).map fun l => (l, c.bytes.filter fun b => b.1 / size = (c.sbase / size + l) % (2 ^ 64 / size))).filter
    fun x => !x.2.isEmpty
  let n := (lanes.length + per - 1) / per
  (List.range n).map fun i =>
    let ls := (lanes.drop (i * per)).take per
    ({ hdr with mask := ls.foldl (fun m x => m ||| (1 <<< x.1)) 0, bytes := ls.length * size - 1, last := i + 1 = n },
      ls.flatMap (fun x => x.2.map fun b => b.2.1), ls.flatMap fun x => x.2.map fun b => b.2.2)

/-- XSEND_DELIVERY: a message lands at its receiver, or leaves through a port (R337, R340, R344). -/
def execXsendDelivery (id : Nat) (s : State) : Res :=
  .next (match s.copy? id with
    | none => s
    | some c =>
      if c.kind != .message || c.sent || !s.messageFirst c then s
      else
        match c.remote with
        | none =>
          match c.recv.head? with
          | some r =>
            let s := s.deliverTo c r
            (match s.copy? id with
              | some x => if x.recv.all fun r => r.done then s.modCopy id fun x => { x with sent := true } else s
              | none => s)
          | none => s
        | some i =>
          let e := smGet {} (s.part c.part).peers i
          let port := if (s.part c.part).closedTo e.module e.rpart then none
            else if s.portUp e.port then some e.port else if e.altv && s.portUp e.altport then some e.altport else none
          let close (s : State) : State := s.modCopy id fun x => { x with sent := true, recv := x.recv.map fun r => { r with done := true } }
          match port with
          | none => close (s.copyHostErr c)
          | some p =>
            if (s.port p).xoff.contains 2 then s
            else if s.cut c.part c.site (etselSite p) then close (s.copyCut c)
            else
              let size := c.total
              let hdr : EtselHdr := {
                dmod := e.module, smod := s.flash.module, dpart := e.rpart, spart := c.part, vl := 2, tag := id % 65536,
                addr := BitVec.ofNat 64 ((c.recv.headD { team := 0 }).team + min c.sbase (2 ^ 23 - 1) * 2 ^ 32 + c.rben.toNat * 2 ^ 55),
                actl := BitVec.ofNat 32 (c.rbar + 16 * (if size = 8 then 0 else if size = 16 then 1 else 2)) }
              let s := (messagePackets c hdr size).foldl (fun s x => s.sendPacket c.part p 5 x.1 x.2.1 x.2.2 e.rctx e.rgrid) s
              s.modCopy id fun x => { x with sent := true, time := s.time, port := p })

/-! ### Completion (R247, R183, R323) -/

/-- FOLLOW_ON_MMA: the MMA of a CPYF enters the array of its target group's core, or is refused with CODE 7
(R183), in the FCLK after its last operand byte has landed (R156); it waits while the team is stopped, and for room. -/
def State.followOn (s : State) (c : Copy) : State :=
  if c.kind != .follow || c.followIn || !(c.landAt.any fun t => t.toNat < s.time.toNat) || (s.team c.team).image.isSome then s
  else
    let m := followMma c.desc c.id
    let refuse := ((s.batchErr c 7).modCopy c.id fun c => { c with followIn := true, followDone := true }).ctxEvent c.ctx 2
    match s.memberKey c.team (followGroup c.desc) with
    | none => refuse
    | some k =>
      let g := s.grp k
      let ps := [m.apair, m.bpair].filterMap id
      match g.accOf (followAcc c.desc) with
      | none => refuse
      | some n =>
        if g.unexited = 0 || (pairFault 0 (s.team c.team).wsize ps).isSome then refuse
        else if !s.mmaRoom k m then s
        else (s.mmaEnter k { m with acc := n }).modCopy c.id fun c => { c with followIn := true }

/-- FOLLOW_ON_MMA (R183). -/
def execFollowOnMma (id : Nat) (s : State) : Res :=
  .next (match s.copy? id with | some c => s.followOn c | none => s)

/-- Bound batches of a group in a team image that are complete arrive at once (R246). -/
def State.imageArrivals (s : State) (tk gid : Nat) : State :=
  if (s.team tk).image.isNone then s
  else
    (List.range 8).foldl (fun s j =>
      match s.member tk gid with
      | none => s
      | some g =>
        match g.batchArrives j with
        | none => s
        | some (g', n, err) => ((s.modMember tk gid fun _ => g').arriveAt tk n none err).updateBars tk) s

/-- A copy is complete: its ranges are free, its slot and OUT fall, DONE advances, its remap entries go
(R247, R255, R257, R321). -/
def State.copyDone (s : State) (c : Copy) : State :=
  let s := ({ s with copies := s.copies.filter fun x => x.id != c.id } : State).clearEntry c.team c.id false
  let s := (s.tiles.foldl (fun s e => s.modTile e.1 fun t => { t with range := t.range.filter fun r => r.copy != some c.id }) s).trimRemap
  let s := s.modMember c.team c.gid fun g =>
    { g.lowerSb c.sbs with batch := g.batch.modSlot c.batch.toNat fun x => { x with out := x.out - 1 } }
  match s.member c.team c.gid with
  | none => s
  | some g =>
    let r := g.advanceBatch s.nextId
    let s := ({ s with nextId := s.nextId + 16 } : State).modMember c.team c.gid fun _ => r.1
    (if r.2 = 0 then s else s.ctxEvent c.ctx 2).imageArrivals c.team c.gid

/-- COPY_COMPLETE: every write of a copy is performed, and its follow-on MMA has ended (R247). -/
def execCopyComplete (id : Nat) (s : State) : Res :=
  .next (match s.copy? id with
    | none => s
    | some c =>
      if c.kind != .message && c.chan.isSome && c.doneEl.length = c.total && (c.recv.all fun r => r.done)
          && (c.kind != .follow || c.followDone) && (s.ops.all fun o => o.k != copyOwner c.id c.site) then s.copyDone c
      else s)

/-- XSEND_ACKNOWLEDGEMENT: the acknowledgement of a message of this module returns (R340). -/
def execXsendAcknowledgement (id : Nat) (s : State) : Res :=
  .next (match s.copy? id with
    | some c => if c.kind = .message && c.sent && (c.recv.all fun r => r.done) then s.copyDone c else s
    | none => s)

/-! ### XSEND (R338, R339) -/

/-- XSEND. -/
def xsendBody (env : Env) (s : State) : Out :=
  let g := s.grp env.k
  let tw := g.rdS env.f.c.toNat
  let sb := g.rdS env.f.b.toNat
  let w := tw.val.toNat
  let size := 8 * 2 ^ bits env.f.md 0 2
  let remote := ebit w 45
  let off := sb.val + BitVec.ofInt 64 env.f.disp
  let p := (s.ctx g.ctx).part
  let route := w / 2 ^ 32 % 256
  let cons := (if sb.bad then 1 else 0) + (if tw.bad then 1 else 0)
  if w / 2 ^ 46 % 1024 != 0 || (if remote then route != 0 else w / 2 ^ 56 != 0) then .trap causeReserved env.pc 0 s
  else if off.toNat % size != 0 then .trap causeAlign off 0 s
  else if (if remote then !(smGet {} (s.part p).peers (w / 2 ^ 56)).valid else (smGet none (s.part p).routes route).isNone) then
    .trap causeRoute env.pc 0 s
  else
    poisonGate env s cons
      (if !s.copyRoom env.k then .hold .engine
       else if cons != 0 then .next ((s.emptyCopy env).consume env.k cons)
       else
         let bytes := (laneList env.e).flatMap fun l =>
           (List.range (size / 8)).flatMap fun i =>
             let r := g.rdV (env.f.a.toNat + i) l
             (List.range 8).map fun j =>
               ((off.toNat + l * size + 8 * i + j) % 2 ^ 64, BitVec.ofNat 8 (elem r 8 j), r.poi.getLsbD j)
         .next (s.addCopy env {
           id := 0, kind := .message, gid := 0, team := 0, site := 0, part := 0, batch := 0, total := size, sbase := off.toNat,
           recv := [{ team := w % 2 ^ 32 }], route, rben := ebit w 44, rbar := w / 2 ^ 40 % 16, bytes,
           remote := if remote then some (w / 2 ^ 56) else none } []))

/-! ### The meanings -/

/-- CPY (R251, R256). -/
def execCpy (f : Fields) (s : State) : Res := .next (issueWith 0x6B f s (copyBody .plain))
/-- CPYM (R251, R256). -/
def execCpym (f : Fields) (s : State) : Res := .next (issueWith 0x6B f s (copyBody .multicast))
/-- CPYF (R251, R256). -/
def execCpyf (f : Fields) (s : State) : Res := .next (issueWith 0x6B f s (copyBody .follow))
/-- XSEND (R339). -/
def execXsend (f : Fields) (s : State) : Res := .next (issueWith 0x71 f s xsendBody)

end Sys2Proof.Machine
end

