-- ==== Sys2Proof/Machine/Launch.lean ====
section
/-!
DEFINITION. Contexts and their teams: the states of a context that its work decides (R305, R306), requests to
stop teams (R309, R313), bind sets, windows and the start of a team (R186, R273, R275, R286, R300, R301), wakes
(R123, R283, R341), and the end of a group (R86, R102, R159).
-/

namespace Sys2Proof.Machine

/-! ### The state of a context (R305) -/

/-- The teams of a context that have not ended. -/
def State.teamsOf (s : State) (c : Nat) : List (Nat × Team) := s.teams.filter fun e => e.2.ctx = c && e.2.present

/-- Whether a team stands on a tile with its groups started (R305). -/
def Team.resident (t : Team) : Bool := t.st = .resident || t.st = .stopping

/-- Whether a grid run has indices still to launch (R286). -/
def Run.due (r : Run) : Bool := r.counter < r.n || !r.saved.isEmpty || r.locals.any fun e => !e.2.isEmpty

/-- The records of a queue, by slot key. -/
def Queue.live (q : Queue) : List (Nat × Rec) := q.recs.filterMap fun e => e.2.map fun r => (e.1, r)

/-- Eligible records of a queue. -/
def Queue.nelig (q : Queue) : Nat := q.live.countP fun e => e.2.elig

/-- A queue reopens: the timer runs on from what was left (R270, R272). -/
def Queue.reopen (q : Queue) (now : Word) : Queue :=
  if !q.closed then q
  else
    let q := { q with closed := false }
    if q.nelig = 0 || q.expired then q else { q with timer := some (now + q.left), left := 0 }

/-- A queue closes: the timer keeps what is left (R270, R272). -/
def Queue.close (q : Queue) (now : Word) : Queue :=
  if q.closed then q
  else
    match q.timer with
    | none => { q with closed := true }
    | some t =>
      { q with closed := true, timer := none, expired := t.toNat ≤ now.toNat, left := if t.toNat ≤ now.toNat then 0 else t - now }

/-- Whether a context has work due: unlaunched indices, eligible records, teams to start or to restore. -/
def State.workDue (s : State) (c : Nat) : Bool :=
  let x := s.ctx c
  ((s.teamsOf c).any fun e => e.2.st = .starting || e.2.st = .saved) || x.runs.any Run.due
    || x.kerns.any fun e => e.2.queues.any fun q => q.nelig != 0

/-- Sends a context to a state. -/
def State.setCtxSt (s : State) (c : Nat) (st : CtxState) : State := s.modCtx c fun x => { x with st }

/-- The groups of a team in slots that are not free or bound. -/
def State.groupsOf (s : State) (tk : Nat) : List Nat :=
  (s.groups.filter fun e => e.2.team = tk && e.2.st != .free && e.2.st != .bound).map Prod.fst

/-- A stop is requested of a resident team: at safe points its groups stop of themselves (R309, R314). A forced stop of
a pre-emption takes a team some group of which still runs (R315). -/
def State.askStop (s : State) (tk : Nat) (r : StopReason) (force : Bool) : State :=
  let ks := s.groupsOf tk
  let runs := ks.any fun k => (s.grp k).st = .ready || (s.grp k).st = .held
  if !(s.team tk).present || (s.team tk).image.isSome || (force && r != .castling && (s.team tk).st = .stopping && !runs) then s
  else
    let s := s.modTeam tk fun t => { t with
      reason := r, st := if t.st = .resident then .stopping else t.st
      forced := (t.forced && t.st = .stopping && r != .castling) || (force && r != .castling && runs) }
    let s := ks.foldl (fun s k => s.modGrp k fun g =>
      if force then { g with stopReq := some r } else if g.stopReq = some .castling then { g with stopReq := none } else g) s
    if !force then ks.foldl State.freeMmas s
    else if r = .castling && ks.any fun k => (s.grp k).pin then s
    else ks.foldl State.stopMmas s

/-- The stops of a pre-emption or of a quiesce are requested of the teams of a context (R313, R315, R364): once the budget has passed every
one is forced. -/
def State.preempt (s : State) (c : Nat) : State :=
  let x := s.ctx c
  let forced := match x.preempt with | some t => t.toNat ≤ s.time.toNat | none => false
  (s.teamsOf c).foldl (fun s e =>
    s.askStop e.1 (if x.reason = .quiesce then .quiesce else if forced then .forced else .safePoint) forced)
    (s.setCtxSt c (if x.reason = .quiesce && x.st != .preempting then .migrating else .preempting))

/-- The image of a saved team has REASON 4 (R311, R364). -/
def State.quiesceImage (s : State) (tk : Nat) : State :=
  (s.modTeam tk fun t => { t with image := t.image.map fun im => { im with reason := .quiesce } }).imageWrite tk 0x12 1 fun _ => (4, false)

/-- The images of a quiesced context that were taken before the quiesce have REASON 4 too (R364). -/
def State.quiesceImages (s : State) (c : Nat) : State :=
  (((s.teamsOf c).filter fun e => e.2.st = .saved && e.2.image.any fun im => im.reason != .quiesce).map Prod.fst).foldl State.quiesceImage s

/-- A context whose last team is saved enters saved, with event 7 (R315), or after a quiesce migrating, with REASON 4 in every image
(R364). -/
def State.preemptDone (s : State) (c : Nat) : State :=
  if (s.ctx c).stops && (s.teamsOf c).all fun e => e.2.st = .saved then
    ((if (s.ctx c).reason = .quiesce then s.quiesceImages c else s).modCtx c fun x => { x with
      st := if x.reason = .quiesce then .migrating else .saved, preempt := none, pending := false }).ctxEvent c 7
  else s

/-- A context enters faulted: every group is held, every queue closes, event 5 is raised (R305, R329). -/
def State.enterFault (s : State) (c : Nat) : State :=
  let s := s.modCtx c fun x => { x with
    before := x.st, st := .faulted, pendFault := false,
    kerns := x.kerns.map fun e => (e.1, { e.2 with queues := e.2.queues.map fun q => q.close s.time }) }
  ((s.teamsOf c).foldl (fun s e => (s.groupsOf e.1).foldl (fun s k => s.modGrp k fun g =>
    if g.st = .ready || g.st = .held then { g with holdReq := true } else g) s) s).ctxEvent c 5

/-- The state of a context after a change of its teams or its work (R305, R306). -/
def State.ctxSettle (s : State) (c : Nat) : State :=
  let x := s.ctx c
  let ts := s.teamsOf c
  if x.stops then s.preemptDone c
  else if x.st != .loaded && x.st != .runnable && x.st != .running && x.st != .castling then s
  else if ts.any fun e => e.2.st = .transit then s.setCtxSt c .castling
  else
    let s := if ts.any fun e => e.2.resident then s.setCtxSt c .running else s.setCtxSt c (if s.workDue c then .runnable else .loaded)
    if x.pendFault then s.enterFault c
    else if x.pending then ((s.modCtx c fun x => { x with pending := false }).preempt c).preemptDone c
    else s

/-! ### Wakes (R123) -/

/-- A wake event reaches a team: the SLEEP of each of its groups ends (R123). -/
def State.wakeTeam (s : State) (tk : Nat) : State :=
  (s.groupsOf tk).foldl (fun s k => s.modGrp k fun g =>
    if g.sleepEnd.isSome then
      let g := g.endSleep
      if g.st = .held && g.hold = .sleep then { g with st := .ready, hold := .none, lastReady := s.time } else g
    else g) s

/-- WAKE_EVENT: a wake on its way to a team arrives (R123, R283, R341). -/
def execWakeEvent (team : Nat) (s : State) : Res :=
  .next (if s.wakes.contains team then ({ s with wakes := s.wakes.erase team } : State).wakeTeam team else s)

/-! ### Bind sets and windows (R186, R273, R300) -/

/-- The slot of a plan's record. -/
def planKey (p : PlanSlot) : Nat := 64 * p.site + 16 * p.core + p.slot

/-- The bound slots that hold the records of set `n` of a kernel's plan, one for each record and all on one tile, none where a record is
not bound (R297, R300): castling carries them with their slot tables (R319). -/
def State.setSlots (s : State) (c kn n : Nat) : List Nat :=
  let recs := ((((s.kern c kn).plan.sets[n]?).map fun b => b.slots).getD []).map fun x => x.bind
  let here := s.groups.filter fun e => e.2.st = .bound && recs.contains e.2.bind
  ((here.map fun e => siteOf e.1).eraseDups.findSome? fun t =>
    let ks := recs.filterMap fun b => (here.find? fun e => siteOf e.1 = t && e.2.bind = b).map Prod.fst
    if ks.length = recs.length then some ks else none).getD []

/-- Whether a site is on a castling ring that moves, or is being compacted (R319, R363). -/
def State.siteMoving (s : State) (p site : Nat) : Bool :=
  (s.part p).moving.any fun m => m.pairs.any fun e => e.1 = site || e.2 = site

/-- Whether saved teams of a context wait to be restored: they come before any launch (R317). -/
def State.restoring (s : State) (c : Nat) : Bool := (s.teamsOf c).any fun e => e.2.st = .saved

/-- Windows that stand on a site: base and size of every team there, one in transit to it included. -/
def State.windowsAt (s : State) (site : Nat) : List (Nat × Nat) :=
  (s.teams.filter fun e => e.2.present && e.2.st != .saved && e.2.site = site && e.2.wsize != 0).map fun e => (e.2.wbase, e.2.wsize)

/-- The lowest base, a multiple of 64, at which a window of `w` bytes fits on a site's 6 MiB (R14, R186). -/
def State.windowBase (s : State) (site w : Nat) : Option Nat :=
  let ws := s.windowsAt site
  let fits (b : Nat) : Bool := b + w ≤ 6 * 2 ^ 20 && ws.all fun x => x.1 + x.2 ≤ b || b + w ≤ x.1
  (0 :: ws.map fun x => x.1 + x.2).foldl (fun r b =>
    if fits b then some (match r with | some y => min b y | none => b) else r) none

/-- Whether a team of a context may be placed on a site now (R305, R309, R313, R319). -/
def State.siteOpen (s : State) (c site : Nat) : Bool :=
  let x := s.ctx c
  (x.st = .loaded || x.st = .runnable || x.st = .running || x.st = .castling) && !s.siteMoving x.part site
    && (s.teamsOf c).all fun e => !(e.2.st = .stopping && e.2.site = site)

/-- The first free bind set of a node in plan order on a tile that can take it, and on `only` where that is given:
its number, its slots and the base of the window (R273, R300). -/
def State.freeSet (s : State) (c kn node : Nat) (only : Option Nat) : Option (Nat × List Nat × Nat) :=
  let k := s.kern c kn
  (k.plan.sets.zipIdx).findSome? fun x =>
    if x.1.node != node then none
    else
      let ks := s.setSlots c kn x.2
      match ks.head? with
      | none => none
      | some k0 =>
        let site := siteOf k0
        if ks.length != k.np + k.nc || !s.siteOpen c site || only.any (· != site) then none
        else (s.windowBase site ((k.spad + 63) / 64 * 64)).map fun b => (x.2, ks, b)

/-! ### Team start (R275, R286, R301) -/

/-- The group that a slot's bind record starts: what R301 and, for a spawned group, R285 give alike. -/
def startGroup (b : BindRec) (err : Bool) (k : Kern) (d : CtxDescr) (time : Word) : Group :=
  { st := .ready, bind := b, err, gid := b.group, consumer := b.dw0.getLsbD 10, copyr := b.dw0.getLsbD 9, regs := 8 * b.regs,
    ctl := d.ctl.truncate 2, period := d.period, lastReady := time,
    lane := Vector.replicate 32 { pcv := BitVec.ofNat 64 ((k.text.toNat + b.entry) % 2 ^ 56), st := .live } }

/-- A team starts on a bind set: its groups move to ready in one FCLK, with window, barriers and registers as
R301 gives them. Its first issue comes with TEAM_START. -/
def State.startTeam (s : State) (c kn node : Nat) (r : Run) (set : Nat × List Nat × Nat) (teamid : Nat) (s2 depth : Nat) : State :=
  let k := s.kern c kn
  let tid : BitVec 32 := BitVec.ofNat 32 teamid
  let tk := teamKey c r.grid tid
  let site := siteOf (set.2.1.headD 0)
  let w := (k.spad + 63) / 64 * 64
  let s := s.modTeam tk fun _ => {
    st := .starting, ctx := c, grid := r.grid, teamid := tid, kern := kn, node, site, wbase := set.2.2, wsize := w, nbars := k.nbars,
    slots := set.2.1, setNo := set.1 }
  let s := s.openWindow tk k.spadZero
  let d := (s.ctx c).desc
  let s := set.2.1.foldl (fun s i => s.modGrp i fun g =>
    let g := startGroup g.bind g.err k d s.time
    { ((((g.wrS 1 (.of r.addr)).wrS 2 (.of (BitVec.ofNat 64 s2))).wrS 3 (.of k.data)).wrS 4 (.of (BitVec.ofNat 64 r.n))) with
      teamid := tid, gridid := r.grid, depth }) s
  let s := s.modCtx c fun x => { x with runs := x.runs.map fun y =>
    if y.grid = r.grid then { y with cores := set.2.1.foldl (fun l i => if l.contains (coreOf i) then l else coreOf i :: l) y.cores } else y }
  s.ctxSettle c

/-- Changes the open run of a grid identifier. -/
def State.modRun (s : State) (c : Nat) (grid : BitVec 32) (f : Run → Run) : State :=
  s.modCtx c fun x => { x with runs := x.runs.map fun r => if r.grid = grid then f r else r }

/-- The open run of a grid identifier. -/
def State.run? (s : State) (c : Nat) (grid : BitVec 32) : Option Run := (s.ctx c).runs.find? fun r => r.grid = grid

/-- TEAM_START: after the sorus has landed the acquire at scope part acts on each core of the team, and its groups are
ready in one FCLK, in which none of its cores is in lane wait (R275, R301; log 80). -/
def execTeamStart (team : Nat) (s : State) : Res :=
  .next (
    let t := s.team team
    let ks := s.groupsOf team
    if t.st != .starting || ks.any fun k => (s.core (coreOf k)).wait then s
    else
      let s := (ks.map coreOf).eraseDups.foldl (fun s c => s.acquire c 3) s
      let stop := (s.ctx t.ctx).stops || ks.any fun k => (s.grp k).stopReq.isSome
      let s := s.modTeam team fun t => { t with st := if stop then .stopping else .resident }
      (ks.foldl (fun s k => s.modGrp k fun g => { g with lastReady := s.time }) s).ctxSettle t.ctx)

/-- GRID_COUNTER_FETCH: a tile that has a free bind set and no local index left takes the next eight (R286). -/
def execGridCounterFetch (ctx grid site : Nat) (s : State) : Res :=
  .next (match s.run? ctx (BitVec.ofNat 32 grid) with
    | none => s
    | some r =>
      if r.n ≤ r.counter || s.restoring ctx || !(smGet [] r.locals site).isEmpty || (s.freeSet ctx r.kern 0 (some site)).isNone then s
      else
        let v := r.counter
        s.modRun ctx r.grid fun r => { r with
          counter := v + 8,
          locals := smSet [] r.locals site ((List.range (min (v + 8) r.n - v)).map fun i => v + i) })

/-- GRID_TEAM_LAUNCH: a tile launches its lowest local index, those saved by a quiesce first (R286). -/
def execGridTeamLaunch (ctx grid site : Nat) (s : State) : Res :=
  .next (match s.run? ctx (BitVec.ofNat 32 grid) with
    | none => s
    | some r =>
      match (if s.restoring ctx then none else s.freeSet ctx r.kern 0 (some site)), r.saved, smGet [] r.locals site with
      | none, _, _ => s
      | some _, [], [] => s
      | some b, i :: rest, _ => (s.modRun ctx r.grid fun r => { r with saved := rest }).startTeam ctx r.kern 0 r b i 0 0
      | some b, [], i :: rest =>
        (s.modRun ctx r.grid fun r => { r with locals := smSet [] r.locals site rest }).startTeam ctx r.kern 0 r b i 0 0)

/-! ### The end of a group (R86, R102, R159) -/

/-- Reservations that a queue operation made are withdrawn (R277). -/
def State.unlock (s : State) (id : Nat) : State :=
  match s.op? id with
  | none => s
  | some o =>
    let tk := o.team
    let c := tk % 4096
    s.modKern c (s.team tk).kern fun k => { k with queues := k.queues.map fun q =>
      { q with recs := q.recs.map fun e => (e.1, e.2.map fun r => if r.lock = some id then { r with lock := none } else r) } }

/-- Every lane of a group exits, and it drains: a kill (R102); no lane is parked, so its watchdog clears (R95). Its MMAs are cancelled, queue operations that are
not applied are withdrawn, and a pending arrival is dropped. -/
def State.killGroup (s : State) (k : Nat) : State :=
  let s := (s.opsOf k).foldl (fun s o =>
    if o.kind = .queue then { s.unlock o.id with ops := s.ops.filter fun x => x.id != o.id } else s) s
  let s := (s.mmasAll k).foldl (fun s m => s.endMma (coreOf k) k m) s
  s.modGrp k fun g =>
    let g := g.landAll.endSleep.endWait
    let g := if g.st = .draining then g else g.sealOpen
    { g with
      st := .draining, hold := .none, trapReq := none, holdReq := false, stopReq := none, arrive := none, elapsed := 0, sub := 0,
      lane := Vector.ofFn fun i => { g.lane[i] with st := .exited, yld := false } }

end Sys2Proof.Machine
end

