-- ==== Sys2Proof/Machine/Queue.lean ====
section
/-!
DEFINITION. Record queues (R263 to R288): records and handles, eligibility and timers, the queue instructions and
SPAWN, the checks and the application at the homes, launches from a sorus.
-/

namespace Sys2Proof.Machine

/-! ### Queues and records (R265 to R272) -/

/-- The queue of a node. -/
def State.queue (s : State) (c kn node : Nat) : Queue := ((s.kern c kn).queues[node]?).getD {}

/-- Changes the queue of a node. -/
def State.modQueue (s : State) (c kn node : Nat) (f : Queue → Queue) : State :=
  s.modKern c kn fun k => { k with queues := k.queues.zipIdx.map fun e => if e.2 = node then f e.1 else e.1 }

/-- The declaration of a node. -/
def Kern.node (k : Kern) (n : Nat) : NodeDecl := (k.nodes[n]?).getD {}

/-- Record size R in bytes. -/
def NodeDecl.size (d : NodeDecl) : Nat := 2 ^ d.logr

/-- Order of two eligible records (R271). -/
def recBefore (a b : Nat × Rec) : Bool :=
  b.2.pri < a.2.pri || (a.2.pri = b.2.pri && (a.2.etime.toNat < b.2.etime.toNat
    || (a.2.etime = b.2.etime && a.2.seq.toNat < b.2.seq.toNat)))

/-- Puts a record in its place. -/
def insertRec (x : Nat × Rec) : List (Nat × Rec) → List (Nat × Rec)
  | [] => [x]
  | y :: r => if recBefore x y then x :: y :: r else y :: insertRec x r

/-- The eligible records in R271's order. -/
def Queue.order (q : Queue) : List (Nat × Rec) := (q.live.filter fun e => e.2.elig).foldr insertRec []

/-- A record's slot in a queue. -/
def Queue.rec? (q : Queue) (key : Nat) : Option Rec := smGet none q.recs key

/-- Puts a record into a slot. -/
def Queue.setRec (q : Queue) (key : Nat) (r : Option Rec) : Queue := { q with recs := smSet none q.recs key r }

/-- The first free slot: the lowest of the pool, else the lowest of the overflow region (R269). -/
def Queue.freeSlot (q : Queue) : Option Nat :=
  match (List.range (q.recs.length + 1)).find? fun i => i < q.pool && (q.rec? i).isNone with
  | some i => some i
  | none => ((List.range (q.recs.length + 1)).find? fun i => i < q.ovfl && (q.rec? (2 ^ 32 + i)).isNone).map (2 ^ 32 + ·)

/-- The handle of a slot (R266). -/
def Queue.handle (q : Queue) (node key : Nat) : Word :=
  BitVec.ofNat 64 ((smGet 0 q.gens key).toNat * 2 ^ 48 + node * 2 ^ 40 + (if 2 ^ 32 ≤ key then 2 ^ 39 else 0) + key % 2 ^ 32)

/-- A failure status (R266). -/
def failStatus (code : Nat) : Word := BitVec.ofNat 64 (2 ^ 63 + code)

/-- NODE of a handle. -/
def handleNode (h : Word) : Nat := bits h 40 6
/-- The slot key of a handle. -/
def handleKey (h : Word) : Nat := bits h 0 32 + (if h.getLsbD 39 then 2 ^ 32 else 0)
/-- The fields that the issuing tile checks (R277). -/
def handleOk (k : Kern) (h : Word) : Bool :=
  !h.getLsbD 63 && bits h 56 7 = 0 && bits h 46 2 = 0 && bits h 32 7 = 0 && handleNode h < k.nodes.length

/-- The record of a handle, none where the handle is not valid (R267). -/
def Queue.lookup (q : Queue) (h : Word) : Option Rec :=
  let i := bits h 0 32
  if i < (if h.getLsbD 39 then q.ovfl else q.pool) && bits h 48 8 = (smGet 0 q.gens (handleKey h)).toNat then q.rec? (handleKey h)
  else none

/-- The header of a record as a team receives it (R265). -/
def Rec.header (r : Rec) : List Byte :=
  leBytes 8 (r.node + r.depth * 2 ^ 8 + r.pri * 2 ^ 14 + 2 ^ 32 + r.ovf.toNat * 2 ^ 33 + r.host.toNat * 2 ^ 34 + 2 ^ 35)
    ++ leBytes 8 r.seq.toNat

/-- The bytes of a record with their poison, for a sorus or an RPOP. -/
def Rec.bytes (r : Rec) : List Byte × List Bool := (r.header ++ r.payload, List.replicate 16 false ++ r.ppoi)

/-- A record leaves its slot, whose generation advances (R267, R269). -/
def State.freeRec (s : State) (c kn node key : Nat) : State :=
  match (s.queue c kn node).rec? key with
  | none => s
  | some r =>
    let s := s.modQueue c kn node fun q => { q.setRec key none with gens := smMod 0 q.gens key (· + 1) }
    if r.committed || r.host then s else s.modTeam r.team fun t => { t with uncommitted := t.uncommitted - 1 }

/-- The timer is armed from now (R272); in a closed queue its count stands at the start. -/
def Queue.arm (q : Queue) (t : Nat) (now : Word) : Queue :=
  if q.closed then { q with timer := none, expired := false, left := BitVec.ofNat 64 t }
  else { q with timer := some (now + BitVec.ofNat 64 t), expired := false }

/-- After records have left by a launch or an RPOP (R272). -/
def Queue.taken (q : Queue) (d : NodeDecl) (now : Word) : Queue :=
  let n := q.nelig
  if n = 0 then { q with timer := none, expired := false, left := 0 } else if n < d.k then q.arm d.timer now else q

/-- A record becomes eligible now: the timer is armed where it is the first, and every worker team of the node
gets a wake event (R271, R272, R283). -/
def State.makeElig (s : State) (c kn node key : Nat) : State :=
  let d := (s.kern c kn).node node
  let s := s.modQueue c kn node fun q =>
    match q.rec? key with
    | none => q
    | some r =>
      let first := q.nelig = 0
      let q := q.setRec key (some { r with elig := true, etime := s.time })
      if first then q.arm d.timer s.time else q
  let ts := s.teams.filter fun e => e.2.ctx = c && e.2.kern = kn && e.2.present && e.2.worker.contains node
  ({ s with wakes := s.wakes ++ ts.map Prod.fst } : State).ctxSettle c

/-- State of a queue (R270): 0 idle, 1 gathering, 2 launchable, 3 closed. -/
def Queue.state (q : Queue) (d : NodeDecl) : Nat :=
  if q.closed then 3 else if q.nelig = 0 then 0 else if d.k ≤ q.nelig || q.expired then 2 else 1

/-- The status word of R284. -/
def Queue.status (q : Queue) (d : NodeDecl) : Nat :=
  let n := q.nelig
  let sat (x : Nat) : Nat := min x (2 ^ 24 - 1)
  let armed := q.timer.isSome || q.expired || (q.closed && n != 0)
  q.state d * 2 ^ 62 + (q.live.any fun e => 2 ^ 32 ≤ e.1).toNat * 2 ^ 61 + armed.toNat * 2 ^ 60 + sat n * 2 ^ 32
    + sat (q.live.length - n) * 2 ^ 8

/-! ### RALLOC (R276, R279) -/

/-- The kernel and context of a group's team. -/
def State.kernOf (s : State) (k : Nat) : Nat × Nat := ((s.grp k).ctx, (s.team (s.grp k).team).kern)

/-- Runs an instruction on a declared node; a grid kernel or an undeclared node traps RESERVED_FIELD (R277). Where the way to the queue's
home or back meets a link that is down the group waits for the repair (R333; DESIGN CHOICE, log 114). -/
def withNode (env : Env) (s : State) (n : Nat) (body : Nat → Nat → Kern → Out) : Out :=
  let (c, kn) := s.kernOf env.k
  let k := s.kern c kn
  if k.nodes.length ≤ n then .trap causeReserved env.pc 0 s
  else if s.cutBoth (s.ctx c).part (siteOf env.k) (s.queue c kn n).home then .hold .queue
  else body c kn k

/-- One lane of RALLOC: the state, and the handle or the failure code. -/
def allocOne (c kn node team depth pri join : Nat) (s : State) : State × Except Nat Word :=
  let q := s.queue c kn node
  if 256 ≤ (s.team team).uncommitted then (s, .error 3)
  else
    match q.freeSlot with
    | none => (s, .error 1)
    | some key =>
      let r : Rec := { node, depth, pri, join, ovf := 2 ^ 32 ≤ key, seq := q.seq, team }
      ((s.modQueue c kn node fun q => { q.setRec key (some r) with seq := q.seq + 1 }).modTeam team fun t =>
          { t with uncommitted := t.uncommitted + 1 }, .ok (q.handle node key))

/-- The lanes of RALLOC in ascending order: a failure fails every later lane with its code (R279). -/
def allocLanes (one : Nat → State → State × Except Nat Word) :
    List (LaneId × Nat) → State × List (LaneId × Except Nat Word) × Option Nat → State × List (LaneId × Except Nat Word) × Option Nat
  | [], r => r
  | (l, _) :: rest, (s, out, some e) => allocLanes one rest (s, out ++ [(l, .error e)], some e)
  | (l, j) :: rest, (s, out, none) =>
    match one j s with
    | (s, .ok h) => allocLanes one rest (s, out ++ [(l, .ok h)], none)
    | (s, .error e) => allocLanes one rest (s, out ++ [(l, .error e)], some e)

/-- RALLOC. -/
def rallocBody (env : Env) (s : State) : Out :=
  let node := bits env.f.imm 0 6
  withNode env s node fun c kn k =>
    let g := s.grp env.k
    let d := k.node node
    let src (l : LaneId) : Reg := if env.f.xf = 1 then g.rdS env.f.b.toNat else g.rdV env.f.b.toNat l
    let ls := laneList env.e
    let good := ls.filter fun l => !(src l).bad
    let cons := ls.length - good.length
    let depth := g.depth + 1
    poisonGate env s cons
      (if good.isEmpty || d.dlim < depth then
         if d.trap && !good.isEmpty then .trap causeDepth env.pc 0 (s.consume env.k cons)
         else
           let s := s.modGrp env.k fun g =>
             ((g.wrV env.f.d.toNat env.e fun l => if (src l).bad then .poisoned else .of (failStatus 2)).wrP env.f.c.toNat env.e 0)
           .start (s.consume env.k cons) (laterOp env)
       else if (s.team g.team).uncommitted < 256 && (s.queue c kn node).closed then .hold .queueClosed
       else
         let r := allocLanes (fun j s => allocOne c kn node g.team depth (bits env.f.md 0 2) j s)
           (good.map fun l => (l, bits (src l).val 0 16)) (s, [], none)
         let full (s : State) : State := if r.2.2 = some 1 then (s.ctxCount c 7 1).ctxEvent c 1 else s
         if d.trap && r.2.2.isSome then .trap causeQueue env.pc 0 (full (s.consume env.k cons))
         else
           let find (l : LaneId) : Option (Except Nat Word) := (r.2.1.find? fun x => x.1 = l).map Prod.snd
           let s := (full r.1).modGrp env.k fun g =>
             ((g.wrV env.f.d.toNat env.e fun l =>
               match find l with
               | some (.ok h) => .of h
               | some (.error e) => .of (failStatus e)
               | none => .poisoned).wrP env.f.c.toNat env.e (BitVec.ofFnLE fun l =>
                 match find l with | some (.ok _) => true | _ => false))
           .start (s.consume env.k cons) (laterOp env))

/-- The mask of lane numbers. -/
def maskOf (ls : List Nat) : LaneMask := BitVec.ofFnLE fun i : Fin 32 => ls.contains i.val

/-! ### RCOMMIT, RFREE and RJOIN (R277, R280 to R282) -/

/-- The queue operation that a group waits for, where it has one. -/
def State.queueOp (s : State) (k : Nat) : Option Op := s.ops.find? fun o => o.k = k && o.kind = .queue

/-- RCOMMIT, RFREE and RJOIN at issue: the group waits with the instruction unexecuted until QUEUE_APPLY, since a home
may still trap it (R277). RCOMMIT and RJOIN begin their release at scope part (R280, R282). -/
def queueBody (q : QKind) (env : Env) (s : State) : Out :=
  let (c, kn) := s.kernOf env.k
  let k := s.kern c kn
  let g := s.grp env.k
  if (s.queueOp env.k).isSome then .hold .queue
  else if k.nodes.isEmpty then .trap causeReserved env.pc 0 s
  else
    let a := g.rdS env.f.a.toNat
    let off (l : LaneId) : Reg := if env.f.xf = 1 then g.rdS env.f.b.toNat else g.rdV env.f.b.toNat l
    let bads (l : LaneId) : Nat :=
      (g.rdV env.f.d.toNat l).bad.toNat + (if q = .commit then (off l).bad.toNat + a.bad.toNat else 0)
    let ls := laneList env.e
    let cons := consOf env.e bads
    let lanes : List QLane := (ls.filter fun l => bads l = 0).map fun l =>
      { lane := l.val, handle := (g.rdV env.f.d.toNat l).val,
        ea := if q = .commit then a.val + (off l).val + BitVec.ofInt 64 env.f.disp else 0 }
    poisonGate env s cons
      (if lanes.any fun x => !handleOk k x.handle then .trap causeReserved env.pc 0 (s.consume env.k cons)
       else
         let s := s.consume env.k cons
         .wait .queue { s with
           ops := s.ops ++ [{
             id := s.nextId, k := env.k, kind := .queue, f := env.f, part := (s.ctx c).part, team := g.team, q := some q, qlanes := lanes,
             lanes := (laneList env.path).map fun l => { lane := l.val, phase := .done },
             rel := if q = .free then none else some (s.mkRel env.k 3), addr := env.pc, time := s.time, sbs := none }],
           nextId := s.nextId + 1 })

/-- The home of a lane of a queue operation. -/
def State.qhome (s : State) (o : Op) (x : QLane) : Nat :=
  (s.queue (o.team % 4096) (s.team o.team).kern (handleNode x.handle)).home

/-- The cause that a home finds for a lane, 0 for none: an invalid handle, a record in the wrong state, a handle that
another lane holds too, or a join that would take the count below 0 (R280 to R282). -/
def queueLaneFault (q : Queue) (kind : QKind) (lanes : List QLane) (x : QLane) : Nat :=
  match q.lookup x.handle with
  | none => causeReserved
  | some r =>
    let twice := lanes.any fun y => y.lane != x.lane && y.handle = x.handle
    match kind with
    | .commit => if r.committed || twice then causeReserved else 0
    | .free => if r.elig || twice then causeReserved else 0
    | .join => if r.join ≤ lanes.countP fun y => y.lane < x.lane && y.handle = x.handle then causeJoin else 0

/-- The mark of a home to which a queue operation has lost its flit at a link that is down (R333). -/
def lostHome (home : Nat) : Nat := 2 ^ 20 + home

/-- QUEUE_HOME_CHECK: a home checks its lanes and reserves their records, once no other operation holds them
(R277). Where the way there or back meets a link that is down the flit is dropped, and the operation goes there again when the way is
repaired (R333; DESIGN CHOICE, log 114). -/
def execQueueHomeCheck (id home : Nat) (s : State) : Res :=
  .next (match s.op? id with
    | none => s
    | some o =>
      match o.q with
      | none => s
      | some kind =>
        let c := o.team % 4096
        let kn := (s.team o.team).kern
        let mine := o.qlanes.filter fun x => s.qhome o x = home
        let busy := mine.any fun x =>
          match (s.queue c kn (handleNode x.handle)).lookup x.handle with
          | some r => r.lock.isSome
          | none => false
        if mine.isEmpty || o.checked.contains home || busy then s
        else if s.cutBoth o.part (siteOf o.k) home then
          if o.checked.contains (lostHome home) then s
          else (s.routeDrop o.part).modOp id fun o => { o with checked := lostHome home :: o.checked }
        else
          let bad (x : QLane) : Nat := queueLaneFault (s.queue c kn (handleNode x.handle)) kind o.qlanes x
          let s' := mine.foldl (fun s x =>
            if bad x != 0 then s
            else s.modQueue c kn (handleNode x.handle) fun q => q.setRec (handleKey x.handle)
              ((q.rec? (handleKey x.handle)).map fun r => { r with lock := some id })) s
          s'.modOp id fun o => { o with
            checked := home :: o.checked, qlanes := o.qlanes.map fun x => if s.qhome o x = home then { x with bad := bad x } else x })

/-- The lanes of a queue operation that pass, applied in ascending order (R280 to R282). -/
def State.applyLanes (s : State) (o : Op) (kind : QKind) : State :=
  let c := o.team % 4096
  let kn := (s.team o.team).kern
  let k := s.kern c kn
  let s := o.qlanes.foldl (fun s x =>
    let n := handleNode x.handle
    let key := handleKey x.handle
    match kind, (s.queue c kn n).rec? key with
    | .commit, some r =>
      let (s, v, ps) := s.spadRd o.team x.ea.toNat ((k.node n).size - 16)
      (s.modQueue c kn n fun q => q.setRec key (some { r with committed := true, payload := v, ppoi := ps })).modTeam r.team fun t =>
        { t with uncommitted := t.uncommitted - 1 }
    | .join, some r => s.modQueue c kn n fun q => q.setRec key (some { r with join := r.join - 1 })
    | .free, some _ => s.freeRec c kn n key
    | _, none => s) s
  (o.qlanes.map fun x => (handleNode x.handle, handleKey x.handle)).eraseDups.foldl (fun s x =>
    match (s.queue c kn x.1).rec? x.2 with
    | some r => if r.committed && r.join = 0 && !r.elig then s.makeElig c kn x.1 x.2 else s
    | none => s) s

/-- The first fault of the staging offsets of an RCOMMIT, in lane order (R280). -/
def State.stageFault (s : State) (o : Op) : Option (Nat × Word) :=
  let k := s.kern (o.team % 4096) (s.team o.team).kern
  o.qlanes.findSome? fun x =>
    if x.ea.toNat % 16 != 0 then some (causeAlign, x.ea)
    else if (s.team o.team).wsize < x.ea.toNat + (k.node (handleNode x.handle)).size - 16 then some (causeSpad, x.ea)
    else none

/-- RCOMMIT, RFREE or RJOIN as its homes apply it, at the instruction's issue address; RJOIN's predicate is true in the
lanes whose decrement took the count to 0 (R282). -/
def applyBody (o : Op) (kind : QKind) (env : Env) (s : State) : Out :=
  let c := o.team % 4096
  let kn := (s.team o.team).kern
  let zero (x : QLane) : Bool :=
    match (s.queue c kn (handleNode x.handle)).rec? (handleKey x.handle) with
    | some r => r.join = (o.qlanes.countP fun y => y.lane ≤ x.lane && y.handle = x.handle)
    | none => false
  let done := maskOf (o.qlanes.map fun x => x.lane)
  let p := maskOf ((o.qlanes.filter zero).map fun x => x.lane)
  let s := s.applyLanes o kind
  if kind = .join then .start (s.modGrp env.k fun g => g.wrP env.f.c.toNat done p) (laterOp env)
  else .start s (laterOp env)

/-- QUEUE_APPLY: every home has reported. The trap of the lowest failing lane is taken, or the lanes are applied once
the release is complete (R277, R280 to R282). -/
def execQueueApply (id : Nat) (s : State) : Res :=
  .next (match s.op? id with
    | none => s
    | some o =>
      match o.q with
      | none => s
      | some kind =>
        if o.qlanes.any fun x => !o.checked.contains (s.qhome o x) then s
        else
          let drop := { s.unlock id with ops := s.ops.filter fun x => x.id != id }
          let stage := if kind = .commit then s.stageFault o else none
          match o.qlanes.find? fun x => x.bad != 0, stage with
          | some x, _ => drop.trap o.k x.bad (if x.bad = causeJoin then x.handle else o.addr) 0
          | none, some f => drop.trap o.k f.1 f.2 0
          | none, none =>
            if (match o.rel with | some r => s.relDone r | none => true) then
              let g := drop.grp o.k
              match shape (if kind = .join then 0x6E else 0x6D) o.f with
              | some sh =>
                let path := maskOf (o.lanes.map fun x => x.lane)
                let env : Env := {
                  k := o.k, pc := o.addr, nxt := BitVec.ofNat 64 ((o.addr.toNat + o.f.bytes) % 2 ^ 56),
                  maj := if kind = .join then 0x6E else 0x6D, f := o.f, sh, path, e := path &&& g.guard o.f }
                finish drop env false (applyBody o kind env drop)
              | none => drop
            else s)

/-! ### RPOP (R283) -/

/-- A group leaves the list of waiters of every queue of its context. -/
def State.unwait (s : State) (k : Nat) : State :=
  let c := (s.grp k).ctx
  (s.ctx c).kerns.foldl (fun s e => s.modKern c e.1 fun kn => { kn with queues := kn.queues.map fun q =>
    { q with waiters := q.waiters.filter (· != k) } }) s

/-- The groups that still wait in RPOP on a queue, in the order in which they came. -/
def State.waiting (s : State) (q : Queue) : List Nat := q.waiters.filter fun k => (s.grp k).st = .held && (s.grp k).hold = .rpop

/-- A record is delivered to a group's window: its slot is released, and the group has the acquire at part. -/
def State.popRec (s : State) (k c kn node : Nat) (dst : Nat) (e : Nat × Rec) : State :=
  let b := e.2.bytes
  let s := (s.unwait k).spadWr (s.grp k).team dst b.1 b.2
  let s := (s.freeRec c kn node e.1).modQueue c kn node fun q => q.taken ((s.kern c kn).node node) s.time
  (s.acquire (coreOf k) 3).ctxSettle c

/-- RPOP. Records are kept for the groups that have waited longer, which the home serves first: a later RPOP finds only what they leave
(R283; DESIGN CHOICE, log 99). -/
def rpopBody (env : Env) (s : State) : Out :=
  let node := bits env.f.imm 0 6
  withNode env s node fun c kn k =>
    let g := s.grp env.k
    let a := g.rdS env.f.a.toNat
    let dst := a.val + BitVec.ofInt 64 (env.f.imm.extractLsb' 16 16).toInt
    let put (s : State) (r : Reg) : Out := .start (s.modGrp env.k fun g => g.wrS env.f.d.toNat r) (laterOp env)
    if a.bad then poisonGate env s 1 (put (s.consume env.k 1) .poisoned)
    else if dst.toNat % 16 != 0 then .trap causeAlign dst 0 s
    else if (s.team g.team).wsize < dst.toNat + (k.node node).size then .trap causeSpad dst 0 s
    else
      let s := s.modTeam g.team fun t => { t with worker := if t.worker.contains node then t.worker else node :: t.worker }
      let s := if g.hold = .rpop then s else s.unwait env.k
      let q := s.queue c kn node
      let before := (s.waiting q).takeWhile (· != env.k)
      match (if q.closed then none else (q.order)[before.length]?) with
      | some e => put (s.popRec env.k c kn node dst.toNat e) (.of 0)
      | none =>
        if env.f.xf = 1 then put s (.of (if q.closed then 2 else 1))
        else .wait .rpop (s.modQueue c kn node fun q =>
          { q with waiters := if q.waiters.contains env.k then q.waiters else q.waiters ++ [env.k] })

/-- RPOP_DELIVERY: at the end of an FCLK a group that waits in RPOP tries again (R274, R283). -/
def execRpopDelivery (k : Nat) (s : State) : Res :=
  .next (if s.stage != .closing then s else s.resume k [.rpop] fun maj f =>
    if maj = 0x6F && f.fn = 0 then some fun s => issueWith 0x6F f (s.modGrp k fun g => { g with hold := .rpop }) rpopBody else none)

/-! ### QSTAT and SPAWN (R284, R285) -/

/-- QSTAT: the status at the start of this FCLK, after every operation applied in an earlier one (R284). -/
def qstatBody (env : Env) (s : State) : Out :=
  let node := bits env.f.imm 0 6
  withNode env s node fun c kn _ =>
    .start (s.modGrp env.k fun g => g.wrS env.f.d.toNat (.of (s.queue c kn node).shown)) (laterOp env)

/-- Free spawn bind records of a kernel on a core, in slot order. -/
def State.spawnSlots (s : State) (core c kn : Nat) : List Nat :=
  ((List.range 16).map fun i => 16 * core + i).filter fun i =>
    let g := s.grp i
    g.st = .bound && g.bind.spawn && g.bind.ctx = c && g.bind.kern = kn

/-- SPAWN: new consumer groups of the team on the issuer's core; each takes the lowest identifier that no group of the
team uses. From a castling stop request to the end of the ring's move nothing is spawned (R285, R319). -/
def spawnBody (env : Env) (s : State) : Out :=
  let (c, kn) := s.kernOf env.k
  let k := s.kern c kn
  let g := s.grp env.k
  let tk := g.team
  let n := bits env.f.imm 0 4
  let core := coreOf env.k
  let mine := s.groupsOf tk
  let free := s.spawnSlots core c kn
  let put (s : State) (ok : Bool) : Out :=
    .start (s.modGrp env.k fun g => g.wrP env.f.d.toNat env.e (if ok then allLanes else 0)) (laterOp env)
  match k.entries[bits env.f.imm 8 6]? with
  | none => .trap causeReserved env.pc 0 s
  | some off =>
    if 32 < mine.length + n || 8 < (mine.countP fun i => coreOf i = core) + n || free.length < n
        || s.siteMoving (s.ctx c).part (siteOf env.k) then
      if (k.nodes[(s.team tk).node]?).any fun d => d.trap then .trap causeSpawn env.pc 0 s else put s false
    else
      put ((free.take n).foldl (fun s i =>
        let used := (s.groupsOf tk).map fun j => (s.grp j).gid
        let gid := ((List.range 32).find? fun x => !used.contains x).getD 0
        let s := s.modGrp i fun h =>
          let h := startGroup h.bind h.err k (s.ctx c).desc s.time
          { h with
            gid, teamid := g.teamid, gridid := g.gridid, depth := g.depth, consumer := true, copyr := false, regs := 8 * k.cregs, s := g.s,
            lane := Vector.replicate 32 { pcv := BitVec.ofNat 64 ((k.text.toNat + off) % 2 ^ 56), st := .live } }
        s.modTeam tk fun t => { t with slots := t.slots ++ [i] }) s) true

/-! ### Timers, launches and reopening (R270, R272 to R275) -/

/-- QUEUE_TIMER_EXPIRY: the timer of a queue has run out, at the end of an FCLK (R272). -/
def execQueueTimerExpiry (ctx kern node : Nat) (s : State) : Res :=
  .next (if s.stage != .closing then s
    else s.modQueue ctx kern node fun q =>
      match q.timer with
      | some t => if t.toNat ≤ s.time.toNat && !q.closed then { q with timer := none, expired := true } else q
      | none => q)

/-- The open node run of a kernel: the newest, as one before it has ended. -/
def State.nodeRun (s : State) (c kn : Nat) : Option Run := (s.ctx c).runs.reverse.find? fun r => r.kern = kn

/-- TEAM_LAUNCH: at the end of an FCLK, at most once in it, the launcher takes the first K eligible records, or all of them once the timer has expired, and starts
a team on the first free bind set; groups that wait in RPOP are served first (R273 to R275). -/
def execTeamLaunch (ctx kern node : Nat) (s : State) : Res :=
  .next (
    let k := s.kern ctx kern
    let d := k.node node
    let q := s.queue ctx kern node
    let rs := q.order
    if s.stage != .closing || q.launched = some s.time || q.closed || s.restoring ctx || rs.isEmpty || k.nodes.length ≤ node || !(s.waiting q).isEmpty || !(d.k ≤ rs.length || q.expired) then s
    else
      match s.nodeRun ctx kern, s.freeSet ctx kern node none with
      | some r, some b =>
        let take := rs.take d.k
        let s := take.foldl (fun s e => s.freeRec ctx kern node e.1) s
        let s := s.modQueue ctx kern node fun q => { q.taken d s.time with launched := some s.time }
        let s := s.modRun ctx r.grid fun r => { r with counter := r.counter + 1 }
        let s := s.startTeam ctx kern node r b r.counter take.length (take.foldl (fun m e => max m e.2.depth) 0)
        let tk := teamKey ctx r.grid (BitVec.ofNat 32 r.counter)
        take.zipIdx.foldl (fun s e => s.spadWr tk (e.2 * d.size) e.1.2.bytes.1 e.1.2.bytes.2) s
      | _, _ => s)

/-- QUEUE_REOPEN (R270): a RALLOC held by the closed queue is examined again at its group's next issue attempt. -/
def execQueueReopen (ctx kern node : Nat) (s : State) : Res :=
  .next ((s.modQueue ctx kern node fun q => q.reopen s.time).ctxSettle ctx)

/-! ### The meanings -/

/-- RALLOC (R279). -/
def execRalloc (f : Fields) (s : State) : Res := .next (issueWith 0x6D f s rallocBody)
/-- RCOMMIT (R280). -/
def execRcommit (f : Fields) (s : State) : Res := .next (issueWith 0x6D f s (queueBody .commit))
/-- RFREE (R281). -/
def execRfree (f : Fields) (s : State) : Res := .next (issueWith 0x6D f s (queueBody .free))
/-- RJOIN (R282). -/
def execRjoin (f : Fields) (s : State) : Res := .next (issueWith 0x6E f s (queueBody .join))
/-- RPOP (R283). -/
def execRpop (f : Fields) (s : State) : Res := .next (issueWith 0x6F f s rpopBody)
/-- SPAWN (R285). -/
def execSpawn (f : Fields) (s : State) : Res := .next (issueWith 0x70 f s spawnBody)
/-- QSTAT (R284). -/
def execQstat (f : Fields) (s : State) : Res := .next (issueWith 0x70 f s qstatBody)

end Sys2Proof.Machine
end

