-- ==== Sys2Proof/Machine/Roith.lean ====
section
/-!
DEFINITION. The lines of 128 bytes that the host writes (R295, R375): capture, discard and completion; the Roith
command line, and how a command reports.
-/

namespace Sys2Proof.Machine

/-! ### Lines (R294, R295) -/

/-- A field of a line, little-endian. -/
def Line.nat (l : Line) (o n : Nat) : Nat := leNat ((List.range n).map fun i => smGet 0 l.bytes (o + i))

/-- Whether every byte of a part of a line is 0. -/
def Line.zero (l : Line) (o n : Nat) : Bool := l.bytes.all fun e => !(o ≤ e.1 && e.1 < o + n)

/-- A line that has been handled: STATUS, and then GO := 0. -/
def Line.finish (l : Line) (code value : Nat) : Line :=
  let b := (leBytes 8 (code + value % 2 ^ 32 * 2 ^ 32)).zipIdx.foldl (fun m x => smSet 0 m (0x70 + x.2) x.1) l.bytes
  { bytes := smSet 0 b 0x7F 0 }

/-- The bytes of a write applied to a line that is free: the line, and whether GO triggers it. While GO is not zero
every byte is discarded; 0 written to GO has no effect. STATUS is the device's. -/
def Line.write (l : Line) (o : Nat) (data : List Byte) : Line × Bool :=
  if l.busy then (l, false)
  else
    let b := data.zipIdx.foldl (fun m x => if o + x.2 < 0x70 || (0x78 ≤ o + x.2 && o + x.2 < 0x80) then smSet 0 m (o + x.2) x.1 else m) l.bytes
    let go := smGet 0 b 0x7F != 0
    ({ l with bytes := b, busy := go }, go)

/-! ### The Roith command line (R375, R376) -/

/-- The listed commands. -/
def roithOps : List Nat := (List.range 0x14).map (· + 1) ++ (List.range 9).map (· + 0x20) ++ (List.range 4).map (· + 0x30)

/-- COMMAND_LINE_WRITE: a host write to the command line of a host port's physical function. A module that did not boot
reports status 4 (R373). -/
def execCommandLineWrite (port off : Nat) (data : List Byte) (s : State) : Res :=
  .next (
    if port < 144 || !s.portUp port then s
    else
      let r := (s.port port).cmd.write off data
      let s := s.modPort port fun p => { p with cmd := r.1 }
      if !r.2 then s
      else if !s.booted then s.modPort port fun p => { p with cmd := p.cmd.finish 4 0 }
      else if !roithOps.contains (r.1.nat 0 2) then s.modPort port fun p => { p with cmd := p.cmd.finish 1 0 }
      else { s with cmds := s.cmds ++ [port] })

/-- FORCE of a command line (R375). -/
def Line.force (l : Line) : Bool := l.nat 2 2 % 2 = 1

/-- Argument A`i` of a command line (R375). -/
def Line.arg (l : Line) (i : Nat) : Nat := l.nat (8 + 8 * i) 8

/-- Whether a command's turn has come: where command lines wait, the one triggered first is this command, with this FORCE and with these
arguments from A0 on; the others and the buffers of the host come with the event (R359, R375; log 28). -/
def State.cmdTurn (s : State) (op : Nat) (force : Option Bool) (args : List Nat) : Bool :=
  match s.cmds with
  | [] => true
  | p :: _ =>
    let l := (s.port p).cmd
    l.nat 0 2 = op && force.all (· = l.force) && args.zipIdx.all fun a => l.arg a.2 = a.1

/-- The port whose oldest triggered command line holds a command. -/
def State.cmdPort (s : State) (op : Nat) : Option Nat :=
  match s.cmds with
  | p :: _ => if (s.port p).cmd.nat 0 2 = op then some p else none
  | [] => none

/-- A command has been handled: its line gets STATUS and GO := 0, and the status is reported (R375, log 28). -/
def State.cmdEnd (s : State) (op code value : Nat) : State :=
  let s' := s.emit (.status op code value)
  match s.cmdPort op with
  | some p => { (s'.modPort p fun x => { x with cmd := x.cmd.finish code value }) with cmds := s.cmds.drop 1 }
  | none => s'

/-- The commands with arguments that Roith reads in a buffer of the host (R375, R376). -/
def bufferOps : List Nat := [1, 2, 3, 4, 5, 8, 0x0C, 0x0D, 0x0F, 0x12, 0x20, 0x21, 0x26, 0x28]

/-- Whether a command cannot read its buffers: the port that it came by carries no traffic (R353, R375). -/
def State.bufferLost (s : State) (op : Nat) : Bool := bufferOps.contains op && (s.cmdPort op).any fun p => !s.portUp p

/-- A Roith command whose turn has come: its outcome is a state, a code and a value; a refusal leaves the state, and one whose buffers
cannot be read has code 5. -/
def roithForce (op : Nat) (force : Option Bool) (args : List Nat) (s : State) (f : State → State × Nat × Nat) : Res :=
  .next (if !s.booted || !s.cmdTurn op force args then s
    else if s.bufferLost op then s.cmdEnd op 5 0
    else let r := f s; (if r.2.1 = 0 then r.1 else s).cmdEnd op r.2.1 r.2.2)

/-- A Roith command that no FORCE flag changes. -/
def roith (op : Nat) (args : List Nat) (s : State) (f : State → State × Nat × Nat) : Res := roithForce op none args s f

/-- A command that is admitted, with its effect. -/
def cmdOk (s : State) : State × Nat × Nat := (s, 0, 0)

/-- A command refused with a code. -/
def cmdNo (s : State) (code : Nat) : State × Nat × Nat := (s, code, 0)

end Sys2Proof.Machine
end

