-- ==== Sys2Proof/Machine/Sha.lean ====
section
/-!
DEFINITION. SHA-256, the hash of measurements, reports and the wafer record chain (R293, R371 to R374). The spec names
the function; the definition is that of FIPS 180-4 (PRESUMED, log 72).
-/

namespace Sys2Proof.Machine

/-- The primes up to 311, 64 of them. -/
def shaPrimes : List Nat := (List.range 312).filter fun n => 2 ≤ n && (List.range 18).all fun d => d < 2 || n ≤ d || n % d != 0

/-- The first 32 bits behind the point of the root of degree `k` of a number. -/
def rootBits (k n : Nat) : Nat :=
  (List.range 40).foldl (fun r i => if (r + 2 ^ (39 - i)) ^ k ≤ n * 2 ^ (32 * k) then r + 2 ^ (39 - i) else r) 0 % 2 ^ 32

/-- The constants of the rounds: from the cube roots of the primes. -/
def shaK : List Nat := shaPrimes.map (rootBits 3)

/-- The hash value at the start: from the square roots of the first eight primes. -/
def shaInit : List Nat := (shaPrimes.take 8).map (rootBits 2)

/-- The message with its padding, as 32-bit big-endian words. -/
def shaWords (m : List Byte) : List (BitVec 32) :=
  let n := m.length
  let z := (119 - n % 64) % 64
  let bs := m ++ [0x80] ++ List.replicate z 0 ++ (leBytes 8 (8 * n)).reverse
  (List.range (bs.length / 4)).map fun i => BitVec.ofNat 32 (leNat ((bs.drop (4 * i)).take 4).reverse)

/-- The message schedule of a block, newest word first. -/
def shaSchedule : Nat → List (BitVec 32) → List (BitVec 32)
  | 0, w => w
  | n + 1, w =>
    let x := w.getD 14 0
    let y := w.getD 1 0
    let a := x.rotateRight 7 ^^^ x.rotateRight 18 ^^^ (x >>> 3)
    let b := y.rotateRight 17 ^^^ y.rotateRight 19 ^^^ (y >>> 10)
    shaSchedule n ((b + w.getD 6 0 + a + w.getD 15 0) :: w)

/-- One round on the eight working variables. -/
def shaRound (v : List (BitVec 32)) (kw : BitVec 32 × BitVec 32) : List (BitVec 32) :=
  let a := v.getD 0 0
  let b := v.getD 1 0
  let c := v.getD 2 0
  let e := v.getD 4 0
  let f := v.getD 5 0
  let g := v.getD 6 0
  let s1 := e.rotateRight 6 ^^^ e.rotateRight 11 ^^^ e.rotateRight 25
  let t1 := v.getD 7 0 + s1 + ((e &&& f) ^^^ (~~~e &&& g)) + kw.1 + kw.2
  let s0 := a.rotateRight 2 ^^^ a.rotateRight 13 ^^^ a.rotateRight 22
  let t2 := s0 + ((a &&& b) ^^^ (a &&& c) ^^^ (b &&& c))
  [t1 + t2, a, b, c, v.getD 3 0 + t1, e, f, g]

/-- The hash after one block of sixteen words. -/
def shaBlock (h : List (BitVec 32)) (b : List (BitVec 32)) : List (BitVec 32) :=
  let w := (shaSchedule 48 b.reverse).reverse
  let v := ((shaK.map (BitVec.ofNat 32)).zip w).foldl shaRound h
  (h.zip v).map fun x => x.1 + x.2

/-- The SHA-256 of a message. -/
def sha256 (m : List Byte) : BitVec 256 :=
  let ws := shaWords m
  let h := (List.range (ws.length / 16)).foldl (fun h i => shaBlock h ((ws.drop (16 * i)).take 16)) (shaInit.map (BitVec.ofNat 32))
  BitVec.ofNat 256 (h.foldl (fun n x => n * 2 ^ 32 + x.toNat) 0)

/-- The bytes of a digest, first byte first. -/
def digestBytes (d : BitVec 256) : List Byte := (leBytes 32 d.toNat).reverse

end Sys2Proof.Machine
end

