-- ==== Sys2Proof/Machine/Kernel.lean ====
section
/-!
DEFINITION. Kernels (R263, R264, R289 to R293, R297, R298, R334 to R336): images and their checks, numbered routes,
placement plans, mapping, loading and unloading.
-/

namespace Sys2Proof.Machine

/-! ### Images (R290 to R292, R335) -/

/-- A little-endian field of an image. -/
def imgNat (im : List Byte) (o n : Nat) : Nat := leNat ((im.drop o).take n)

/-- A bit field of a number. -/
def fieldNat (x lo n : Nat) : Nat := x / 2 ^ lo % 2 ^ n

/-- An entry of the route table; none where it breaks R335. -/
def readRoute (v : Nat) : Option Route :=
  let pt (lo : Nat) : Nat × Nat := (fieldNat v lo 6, fieldNat v (lo + 6) 7)
  let n := fieldNat v 8 4
  if fieldNat v 12 4 != 0 || fieldNat v 29 3 != 0 || fieldNat v 45 19 != 0 || fieldNat v 220 36 != 0 || 12 < n
      || fieldNat v (64 + 13 * n) (156 - 13 * n) != 0 then none
  else some { num := v % 256, src := pt 16, dst := pt 32, via := (List.range n).map fun i => pt (64 + 13 * i) }

/-- An entry of the node table, as R292 has it; none where it breaks a limit. -/
def readNode (v textSize spad : Nat) : Option NodeDecl :=
  let d : NodeDecl := {
    entry := fieldNat v 96 32, timer := fieldNat v 75 21, trap := fieldNat v 74 1 = 1, dlim := fieldNat v 68 6,
    logr := fieldNat v 64 4, k := fieldNat v 53 11 }
  if fieldNat v 0 53 != 0 || d.entry % 4 != 0 || textSize ≤ d.entry || d.timer < 900 || 1800000 < d.timer || d.timer % 180 != 0
      || d.logr < 5 || 10 < d.logr || d.k = 0 || 1024 < d.k || spad < d.k * d.size then none
  else some d

/-- Whether no two of a list of ranges overlap and each lies between two bounds; an empty range lies anywhere. -/
def rangesOk (lo hi : Nat) : List (Nat × Nat) → Bool
  | [] => true
  | x :: r =>
    (x.2 = 0 || (lo ≤ x.1 && x.1 + x.2 ≤ hi && r.all fun y => y.2 = 0 || x.1 + x.2 ≤ y.1 || y.1 + y.2 ≤ x.1)) && rangesOk lo hi r

/-- All of a list of options, none where one is. -/
def allSome {α : Type} : List (Option α) → Option (List α)
  | [] => some []
  | none :: _ => none
  | some x :: r => (allSome r).map (x :: ·)

/-- Whether numbers strictly rise. -/
def rising : List Nat → Bool
  | [] => true
  | [_] => true
  | a :: b :: r => a < b && rising (b :: r)

/-- An image that R290 to R292 and R264 admit. -/
structure Image1 where
  kern   : Kern
  routes : List Route
  text   : List Byte
  data   : List Byte
  whole  : List Byte

/-- Reads an image; none where it breaks a limit of R290 to R292, R335 or R264. -/
def readImage (im : List Byte) : Option Image1 :=
  let f := imgNat im
  let tx := f 0x08 4
  let ts := f 0x0C 4
  let d0 := f 0x10 4
  let ds := f 0x14 4
  let nn := f 0x1C 2
  let ne := f 0x1E 2
  let nr := f 0x28 2
  let spad := f 0x2C 4
  let roles := f 0x34 4
  let np := fieldNat roles 0 6
  let nc := fieldNat roles 6 6
  let pr := fieldNat roles 12 5
  let cr := fieldNat roles 17 5
  let stop := if ds = 0 then tx + ts else d0 + ds
  let okHead : Bool :=
    f 0 4 = 0x314B594D && f 4 2 = 1 && f 6 2 = 0 && tx % 65536 = 0 && 4 ≤ ts && ts ≤ 2 ^ 28 && ts % 4 = 0 && ds ≤ 2 ^ 28
      && (if ds = 0 then d0 = 0 else d0 % 65536 = 0 && tx + ts ≤ d0) && nn ≤ 64 && ne ≤ 64 && nr ≤ 256 && f 0x2A 2 = 0
      && spad ≤ 6291456 && f 0x30 1 ≤ 1 && f 0x31 1 ≤ 16 && f 0x32 2 = 0 && f 0x38 72 = 0 && stop ≤ im.length
      && rangesOk 128 tx [(f 0x18 4, 16 * nn), (f 0x20 4, 4 * ne), (f 0x24 4, 32 * nr)]
  let okRoles : Bool :=
    fieldNat roles 23 9 = 0 && 1 ≤ cr && cr ≤ 16 && 1 ≤ pr && pr ≤ 16 && nc ≤ 31 && 1 ≤ np && np ≤ 32 && np + nc ≤ 32
  let nodes := allSome ((List.range nn).map fun i => readNode (f (f 0x18 4 + 16 * i) 16) ts spad)
  let routes := allSome ((List.range nr).map fun i => readRoute (f (f 0x24 4 + 32 * i) 32))
  let entries := (List.range ne).map fun i => f (f 0x20 4 + 4 * i) 4
  match nodes, routes with
  | some ns, some rs =>
    if !okHead || !okRoles || !rising (rs.map fun r => r.num) || entries.any (fun e => e % 4 != 0 || ts ≤ e) then none
    else
      some {
        kern := {
          textLen := ts, dataLen := ds, np, nc, pregs := pr, cregs := cr, copyr := fieldNat roles 22 1 = 1, spad,
          spadZero := f 0x30 1 = 1, nbars := f 0x31 1, nodes := ns, entries, routes := rs.map fun r => r.num }
        routes := rs, text := (im.drop tx).take ts, data := if ds = 0 then [] else (im.drop d0).take ds, whole := im.take stop }
  | _, _ => none

/-! ### Placement plans (R297, R298, R316) -/

/-- The fields of a record lie within R298. -/
def bindOk (b : BindRec) : Bool :=
  bits b.dw0 60 2 = 0 && bits b.dw0 32 2 = 0 && bits b.dw0 8 1 = 0 && bits b.dw0 0 4 = 0 && b.pri ≤ 11 && bits b.dw1 56 8 = 0
    && b.stack % 8 = 0 && bits b.dw2 24 8 = 0 && bits b.dw2 13 3 = 0 && bits b.dw2 0 8 = 0 && 1 ≤ b.regs && b.regs ≤ 16
    && bits b.dw2 16 8 + b.regs ≤ 256 && bits b.dw3 0 32 = 0

/-- Whether two records on one core claim no register region both (R297). -/
def regionsApart (a b : PlanSlot) : Bool :=
  let r (x : PlanSlot) : Nat := bits x.bind.dw2 16 8
  a.site != b.site || a.core != b.core || r a + a.bind.regs ≤ r b || r b + b.bind.regs ≤ r a

/-- Whether all pairs of a list stand apart. -/
def allApart : List PlanSlot → Bool
  | [] => true
  | x :: r => r.all (regionsApart x) && allApart r

/-- The entry of a node; the synthesised node of a grid kernel enters at 0. -/
def Kern.entry (k : Kern) (node : Nat) : Nat := if k.nodes.isEmpty then 0 else (k.node node).entry

/-- Whether one bind set of a plan is right for its kernel (R297). -/
def State.setOk (s : State) (c kn : Nat) (k : Kern) (b : BindSet) (n : Nat) : Bool :=
  let p := (s.ctx c).part
  let ids := b.slots.map fun x => x.bind.group
  (if k.nodes.isEmpty then b.node = 0 else b.node < k.nodes.length) && ids.length = k.np + k.nc
    && (List.range (k.np + k.nc)).all (fun i => ids.contains i)
    && b.slots.all fun x =>
      let r := x.bind
      let cons := decide (k.np ≤ r.group)
      bindOk r && !r.spawn && r.ctx = c && r.kern = kn && r.node = b.node && r.set = n && r.entry = k.entry b.node
        && r.dw0.getLsbD 10 = cons && r.dw0.getLsbD 9 = (k.copyr && !cons) && r.regs = (if cons then k.cregs else k.pregs)
        && x.core < 4 && x.slot < 16 && b.slots.all (fun y => y.site = x.site) && (b.slots.countP fun y => y.core = x.core) ≤ 8
        && (b.slots.countP fun y => planKey y = planKey x) = 1 && (s.part p).sites.contains x.site && s.site x.site = .good

/-- Whether a plan may be installed for a kernel (R297). -/
def State.planOk (s : State) (c kn : Nat) (k : Kern) (pl : Plan) : Bool :=
  let p := (s.ctx c).part
  (pl.sets.zipIdx.all fun e => s.setOk c kn k e.1 e.2)
    && (pl.spawns.all fun x =>
      let r := x.bind
      bindOk r && r.spawn && r.ctx = c && r.kern = kn && r.node = 0 && r.set = 0 && r.entry = 0 && r.regs = k.cregs
        && x.core < 4 && x.slot < 16 && (s.part p).sites.contains x.site && s.site x.site = .good)
    && allApart (pl.sets.flatMap (fun b => b.slots) ++ pl.spawns)

/-- Whether the save area has room for the bind sets of all plans (R316). -/
def State.saveFits (s : State) (c kn : Nat) (k : Kern) (pl : Plan) : Bool :=
  let others := ((s.ctx c).kerns.filter fun e => e.1 != kn && e.2.st != .absent).map Prod.snd
  let n := pl.sets.length + (others.map fun x => x.plan.sets.length).sum
  n ≤ 2047 && 0x490000 + n * imgStride (k.spad :: others.map fun x => x.spad) ≤ (s.ctx c).desc.savesize.toNat

/-! ### Frames and mappings of Roith (R192, R293, log 29) -/

/-- Roith writes an entry of a page table. -/
def State.storeEntry (s : State) (a e : Nat) : State := ({ s with mem := memStore s.mem a 8 e } : State).noteLines [a / 64]

/-- The frames of a partition that Roith has not given out, the highest first. -/
def State.freeFrames (s : State) (p : Nat) : List Nat :=
  let u := (s.part p).used
  ((s.owner.filter fun e => e.2 = p + 1 && !u.contains e.1 && !s.retired.contains e.1).map Prod.fst).reverse

/-- Takes `n` zeroed frames. -/
def State.takeFrames (s : State) (p n : Nat) : Option (State × List Nat) :=
  let fs := (s.freeFrames p).take n
  if fs.length < n then none
  else
    some (fs.foldl State.zeroFrame (s.modPart p fun x => { x with used := fs ++ x.used }), fs)

/-- Writes a leaf for a 64 KiB page into a table at `t`; tables that are missing take a frame each. -/
def mapFrom (p va leaf : Nat) : List (Nat × Nat × Nat) → Nat → State → Option State
  | [], _, _ => none
  | [(sh, nb, _)], t, s => some (s.storeEntry (t + 8 * (va / 2 ^ sh % 2 ^ nb)) leaf)
  | (sh, nb, _) :: r, t, s =>
    let a := t + 8 * (va / 2 ^ sh % 2 ^ nb)
    let e := memLoad s.mem a 8
    if ebit e 63 then
      if ebit e 62 then none else mapFrom p va leaf r (e / 2 ^ 8 % 2 ^ 40 * 2 ^ 8) s
    else
      match s.takeFrames p 1 with
      | some (s, [f]) => mapFrom p va leaf r (f * 65536) (s.storeEntry a (2 ^ 63 + f * 65536))
      | _ => none

/-- Maps frames at consecutive pages from an address. -/
def State.mapPages (s : State) (p : Nat) : Nat → Nat → List Nat → Option State
  | _, _, [] => some s
  | va, attrs, f :: r =>
    match mapFrom p va (attrs + f * 65536) levels (s.part p).root s with
    | some s => State.mapPages s p (va + 65536) attrs r
    | none => none

/-- A TLB entry that shares an address with a range of a partition. -/
def TlbEnt.hits (e : TlbEnt) (p a n : Nat) : Bool := e.part = p && e.base < a + n && a < e.base + e.size

/-- Every TLB drops a range of a partition (R191), and with it go the lines of the instruction caches there (log 92). -/
def State.tlbDrop (s : State) (p a n : Nat) : State :=
  let hit (key : Nat) : Bool := key / 2 ^ 50 = p && a < key % 2 ^ 50 * 64 + 64 && key % 2 ^ 50 * 64 < a + n
  { s with
    tiles := s.tiles.map fun e => (e.1, { e.2 with tlb := e.2.tlb.filter fun x => !x.hits p a n })
    cores := s.cores.map fun e => (e.1, { e.2 with icache := e.2.icache.filter fun l => !hit l.1 }) }

/-- Where the leaf of an address stands, from a table at `t`. -/
def leafSlot (mem : Memory) (a : Nat) : List (Nat × Nat × Nat) → Nat → Nat
  | [], t => t
  | [(sh, nb, _)], t => t + 8 * (a / 2 ^ sh % 2 ^ nb)
  | (sh, nb, _) :: r, t => leafSlot mem a r (memLoad mem (t + 8 * (a / 2 ^ sh % 2 ^ nb)) 8 / 2 ^ 8 % 2 ^ 40 * 2 ^ 8)

/-- Unmaps the pages of a range: each leaf becomes invalid. -/
def State.unmapPages (s : State) (p va n : Nat) : State :=
  ((List.range n).foldl (fun s i =>
    let a := va + 65536 * i
    match s.walk p a with
    | some _ => s.storeEntry (leafSlot s.mem a levels (s.part p).root) 0
    | none => s) s).tlbDrop p va (65536 * n)

/-- Writes bytes into frames, in order. -/
def State.fillFrames (s : State) : List Nat → List Byte → State
  | [], _ => s
  | f :: r, bs => State.fillFrames (({ s with mem := memWrite s.mem (f * 65536) (bs.take 65536) } : State).noteLines (frameLines f)) r (bs.drop 65536)

/-- Where the text of a kernel is mapped; its data follow 2^28 above (log 29). -/
def textVa (c kn : Nat) : Nat := 2 ^ 55 + (c * 256 + kn) * 2 ^ 29

/-! ### Loading (R289, R293) -/

/-- The home of a node's queue or of a run: the tile of the node's first bind set in plan order (R286, R293); site 0 where the plan holds none
for the node (DESIGN CHOICE, log 120). -/
def planHome (pl : Plan) (node : Nat) : Nat :=
  ((pl.sets.find? fun b => b.node = node).bind fun b => b.slots.head?.map fun x => x.site).getD 0

/-- The pages of a number of bytes. -/
def pagesOf (n : Nat) : Nat := (n + 65535) / 65536

/-- Loads a checked image as kernel `kn`; none where frames are short. -/
def State.mapKernel (s : State) (c kn : Nat) (im : Image1) (sizes : List (Nat × Nat)) (pl : Plan) : Option State :=
  let p := (s.ctx c).part
  let tv := textVa c kn
  match s.takeFrames p (pagesOf im.text.length + pagesOf im.data.length) with
  | none => none
  | some (s, fs) =>
    let ft := fs.take (pagesOf im.text.length)
    let fd := fs.drop (pagesOf im.text.length)
    let s := (s.fillFrames ft im.text).fillFrames fd im.data
    match s.mapPages p tv (2 ^ 63 + 2 ^ 62 + 2 ^ 57) ft with
    | none => none
    | some s =>
      match s.mapPages p (tv + 2 ^ 28) (2 ^ 63 + 2 ^ 62 + 2 ^ 59 + 2 ^ 58 + 2 ^ 56) fd with
      | none => none
      | some s =>
        let k := { im.kern with
          st := .loaded, text := BitVec.ofNat 64 tv, data := if im.data.isEmpty then 0 else BitVec.ofNat 64 (tv + 2 ^ 28),
          digest := sha256 im.whole, plan := pl, frames := fs,
          queues := im.kern.nodes.zipIdx.map fun e =>
            let z := sizes.getD e.2 (0, 0)
            { home := planHome pl e.2, pool := z.1, ovfl := z.2 } }
        let s := s.modKern c kn fun _ => k
        let s := s.modPart p fun x => { x with routes := im.routes.foldl (fun m r => smSet none m r.num (some r)) x.routes }
        some ((s.modCtx c fun x => { x with log := x.log ++ [k.digest], st := if x.st = .created then .loaded else x.st }).writeHead c)

/-- KERN_LOAD (R293): a failure at any step refuses the load. -/
def execKernLoad (ctx : Nat) (image : List Byte) (sizes : List (Nat × Nat)) (plan : Plan) (s : State) : Res :=
  roith 0x26 [ctx] s fun s =>
    let x := s.ctx ctx
    let p := x.part
    let ready : Bool := x.st = .created || x.st = .loaded || x.st = .runnable || x.st = .running || x.st = .castling
    if !ready then cmdNo s 2
    else
      match (List.range 256).find? fun n => (s.kern ctx n).st = .absent with
      | none => cmdNo s 3
      | some kn =>
        match readImage image with
        | none => cmdNo s 4
        | some im =>
          let sizesOk := im.kern.nodes.length = sizes.length && sizes.all fun z => z.1 != 0 && z.1 + z.2 < 2 ^ 24
          if !sizesOk || !(im.routes.all fun r => s.routeOk p r && s.routeFits p r) || !s.planOk ctx kn im.kern plan
              || !s.saveFits ctx kn im.kern plan then cmdNo s 4
          else
            match s.mapKernel ctx kn im sizes plan with
            | none => cmdNo s 3
            | some s => (s, 0, kn)

/-- A kernel that has left retiring: its pages are unmapped, plan and queues go, and the routes that no other loaded
kernel of the partition declares are withdrawn (R289, R334). -/
def State.dropKernel (s : State) (c kn : Nat) : State :=
  let k := s.kern c kn
  let p := (s.ctx c).part
  let s := (s.unmapPages p k.text.toNat (pagesOf k.textLen)).unmapPages p k.data.toNat (pagesOf k.dataLen)
  let s := (s.modKern c kn fun _ => {}).writeHead c
  let kept (n : Nat) : Bool := s.ctxs.any fun e => e.2.part = p && e.2.kerns.any fun x => x.2.st != .absent && x.2.routes.contains n
  s.modPart p fun x => { x with
    used := x.used.filter fun f => !k.frames.contains f,
    routes := (k.routes.filter fun n => !kept n).foldl (fun m n => smSet none m n none) x.routes }

/-- A kernel without an open run leaves active for loaded, or retiring for absent; a context without a kernel is created
again (R289, R305). -/
def State.kernIdle (s : State) (c kn : Nat) : State :=
  if (s.ctx c).runs.any fun r => r.kern = kn then s
  else
    match (s.kern c kn).st with
    | .active => s.modKern c kn fun k => { k with st := .loaded }
    | .retiring =>
      let s := s.dropKernel c kn
      if (s.ctx c).st = .loaded && (s.ctx c).kerns.isEmpty then s.setCtxSt c .created else s
    | _ => s

/-- KERN_UNLOAD: a loaded or active kernel goes to retiring (R289). -/
def execKernUnload (ctx kern : Nat) (s : State) : Res :=
  roith 0x27 [ctx, kern] s fun s =>
    let k := s.kern ctx kern
    if k.st = .loaded || k.st = .active then cmdOk ((s.modKern ctx kern fun k => { k with st := .retiring }).kernIdle ctx kern)
    else cmdNo s 2

/-- PLAN_SET: a new placement plan for a kernel; records bound under the old plan stay bound (R297). -/
def execPlanSet (ctx kern : Nat) (plan : Plan) (s : State) : Res :=
  roith 0x28 [ctx, kern] s fun s =>
    let k := s.kern ctx kern
    if k.st != .loaded && k.st != .active then cmdNo s 2
    else if !s.planOk ctx kern k plan || !s.saveFits ctx kern k plan then cmdNo s 4
    else cmdOk ((s.modKern ctx kern fun k => { k with plan }).writeHead ctx)

end Sys2Proof.Machine
end

