-- ==== Sys2Proof/Machine/Lines.lean ====
section
/-!
DEFINITION. Launch lines and runs (R294 to R296, R302, R343): the launch window, RUN, APPEND and END, the end of a run.
-/

namespace Sys2Proof.Machine

/-! ### The line monitor -/

/-- Where the line monitor of a function stands: the serving site with the lowest Y that is not a hole (R302). -/
def State.monitor (s : State) (vf : Nat) : Nat :=
  let ts := hostSites (s.vf vf).port
  ((ts.find? fun t => s.site t != .hole).getD (ts.headD 0))

/-- Reads bytes at a virtual address at their home, for a context from a site, line by line; none where a page faults
or an access ends in an error, which counts in HOSTERR for a host or remote page (R201, R295). -/
def State.readVa (s : State) (site p c : Nat) : Nat → Word → Nat → State × Option (List Byte × List Bool)
  | 0, _, _ => (s, some ([], []))
  | fuel + 1, va, n =>
    if n = 0 then (s, some ([], []))
    else
      let m := min n (64 - va.toNat % 64)
      match s.globalCheck site p va .load with
      | (s, .error _) => (s, none)
      | (s, .ok x) =>
        let r : State × Option (List Byte × List Bool) :=
          if leafTgt x.leaf = 0 then s.homeRd p c (s.seqPa p (leafRep x.leaf) x.pa) m 0
          else if (leafTgt x.leaf = 1 && s.portUp (s.part p).port) || (leafTgt x.leaf = 2 && (s.peerRoute p x.pa).isSome) then
            let y := s.freeBytes m
            (y.1, some (y.2, List.replicate m false))
          else ((s.ctxCount c 3 1).ctxEvent c 4, none)
        match r with
        | (s, none) => (s, none)
        | (s, some v) =>
          match State.readVa s site p c fuel (va + BitVec.ofNat 64 m) (n - m) with
          | (s, some w) => (s, some (v.1 ++ w.1, v.2 ++ w.2))
          | (s, none) => (s, none)

/-- What a line asks by itself: fields that R294 fixes at 0 and ranges; MSI-X has 64 vectors (R349). -/
def Line.formed (l : Line) : Bool :=
  let pay := l.zero 0x28 64
  let f (o n : Nat) : Nat := l.nat o n
  l.zero 0x68 8 && l.zero 0x78 7 &&
    match f 0 1 with
    | 1 => f 2 1 = 0 && f 3 1 = 0 && f 4 4 = 0 && f 0x0C 2 < 64 && (f 0x0E 2 = 0 || f 0x0E 2 = 2) && pay
    | 2 => f 2 1 < 4 && f 3 1 < 64 && f 8 4 = 0 && f 0x0C 2 = 0 && f 0x0E 2 < 2 && f 0x18 8 = 0 && f 0x20 8 = 0
    | 3 => f 2 1 = 0 && f 3 1 = 0 && f 8 4 = 0 && f 0x0C 2 = 0 && f 0x0E 2 = 0 && f 0x10 8 = 0 && f 0x18 8 = 0 && f 0x20 8 = 0 && pay
    | _ => false

/-- A line of a function. -/
def State.line (s : State) (vf n : Nat) : Line := smGet {} (s.vf vf).lines n

/-- A line has been handled. -/
def State.lineEnd (s : State) (vf n code value : Nat) : State :=
  s.modVf vf fun v => { v with lines := smSet {} v.lines n ((smGet {} v.lines n).finish code value), order := v.order.filter fun e => e.2 != n }

/-- Takes a triggered line into the order: by FCLK, and those of one FCLK by index (R295). -/
def lineAfter (x : Nat × Nat) (l : List (Nat × Nat)) : List (Nat × Nat) :=
  let before (e : Nat × Nat) : Bool := e.1 < x.1 || (e.1 = x.1 && e.2 < x.2)
  l.filter before ++ x :: l.filter fun e => !before e

/-- LAUNCH_LINE_WRITE: a host write to a launch window; a line that it triggers takes its place in the order (R295, R352). -/
def execLaunchLineWrite (vf off : Nat) (data : List Byte) (s : State) : Res :=
  .next (
    if (s.vf vf).frozen || !s.portUp (s.vf vf).port || data.isEmpty then s
    else
      (List.range ((off + data.length - 1) / 128 - off / 128 + 1)).foldl (fun s i =>
        let n := off / 128 + i
        if 512 ≤ n then s
        else
          let start := max off (128 * n)
          let r := (s.line vf n).write (start - 128 * n) ((data.drop (start - off)).take (128 * n + 128 - start))
          let s := s.modVf vf fun v => { v with lines := smSet {} v.lines n r.1 }
          if !r.2 then s
          else s.modVf vf fun v => { v with order := lineAfter (s.time.toNat, n) v.order }) s)

/-- Whether a line is the next to be handled: the first in its order, with the lines of its FCLK all triggered (R295). -/
def State.lineNext (s : State) (vf n : Nat) : Bool := (s.vf vf).order.head?.any fun e => e.2 = n && e.1 < s.time.toNat

/-- Whether a line has one of the types of R294. -/
def Line.listed (l : Line) : Bool := 1 ≤ l.nat 0 1 && l.nat 0 1 ≤ 3

/-- Handles a line of a type when its turn has come, and whichever line of no type: `go` decides code, value and effect for the bound context
and the line's kernel (R295). Where no context is bound every line is refused with code 2 (R350), also a malformed one (log 96). -/
def State.handleLine (s : State) (vf n ty : Nat) (go : Nat → Nat → Line → State → State × Nat × Nat) : State :=
  let l := s.line vf n
  if !s.lineNext vf n || (l.nat 0 1 != ty && l.listed) then s
  else
    match (s.vf vf).ctx with
    | none => s.lineEnd vf n 2 0
    | some c =>
      if !l.formed then s.lineEnd vf n 1 0
      else
        let r := go c (l.nat 1 1) l s
        r.1.lineEnd vf n r.2.1 r.2.2

/-! ### The end of a run (R286, R295, R296) -/

/-- Whether a run has nothing left: a grid run all launched, a node run with END and empty queues; and no team of it
remains. -/
def State.runOver (s : State) (c : Nat) (r : Run) : Bool :=
  let k := s.kern c r.kern
  ((s.teamsOf c).all fun e => e.2.grid != r.grid)
    && (if k.nodes.isEmpty then !r.due && r.n ≤ r.counter else r.ended && k.queues.all fun q => q.live.isEmpty)

/-- The runs of a context that are open: those that have ended are not, though their RUN_END is under way (R295, R296). -/
def State.openRuns (s : State) (c : Nat) : List Run := (s.ctx c).runs.filter fun r => !s.runOver c r

/-- The open run of a grid identifier that has not ended. -/
def State.openRun? (s : State) (c : Nat) (grid : BitVec 32) : Option Run := (s.openRuns c).find? fun r => r.grid = grid

/-- RUN: opens a run (R286, R289, R295). -/
def execRun (vf line : Nat) (s : State) : Res :=
  .next (s.handleLine vf line 1 fun c kn l s =>
    let k := s.kern c kn
    let x := s.ctx c
    if k.st != .loaded && k.st != .active then cmdNo s 2
    else if decide (l.nat 8 4 = 0) = k.nodes.isEmpty then cmdNo s 1
    else if 16 ≤ (s.openRuns c).length || (!k.nodes.isEmpty && (s.openRuns c).any fun r => r.kern = kn) then cmdNo s 3
    else
      let r : Run := {
        grid := x.gridCtr, kern := kn, n := l.nat 8 4, addr := BitVec.ofNat 64 (l.nat 0x10 8), msiv := l.nat 0x0C 2,
        raise := l.nat 0x0E 2 = 2, doneaddr := BitVec.ofNat 64 (l.nat 0x18 8), doneval := BitVec.ofNat 64 (l.nat 0x20 8),
        home := planHome k.plan 0 }
      let s := s.modKern c kn fun k => { k with st := .active }
      (s.modCtx c fun x => { x with
        runs := x.runs ++ [r], gridCtr := x.gridCtr + 1, st := if x.st = .loaded then .runnable else x.st }, 0, x.gridCtr.toNat))

/-- APPEND: an eligible record of the host (R283, R295). -/
def execAppend (vf line : Nat) (s : State) : Res :=
  .next (s.handleLine vf line 2 fun c kn l s =>
    let k := s.kern c kn
    let node := l.nat 3 1
    let d := k.node node
    let q := s.queue c kn node
    let w := d.size - 16
    let inline_ := l.nat 0x0E 2 = 1
    if k.st = .absent || k.st = .loading || k.st = .retiring then cmdNo s 2
    else if k.nodes.length ≤ node || (inline_ && 80 < d.size) then cmdNo s 1
    else if (s.openRun? c (BitVec.ofNat 32 (l.nat 4 4))).all fun r => r.kern != kn then cmdNo s 2
    else if q.closed then cmdNo s 5
    else
      match q.freeSlot with
      | none => cmdNo s 4
      | some key =>
        let pay : State × Option (List Byte × List Bool) :=
          if inline_ then (s, some ((List.range w).map (fun i => smGet 0 l.bytes (0x28 + i)), List.replicate w false))
          else s.readVa (s.monitor vf) (s.ctx c).part c 32 (BitVec.ofNat 64 (l.nat 0x10 8)) w
        match pay with
        | (s, none) => cmdNo s 6
        | (s, some v) =>
          let r : Rec := {
            node, pri := l.nat 2 1, committed := true, host := true, ovf := 2 ^ 32 ≤ key, seq := q.seq, payload := v.1, ppoi := v.2 }
          let s := s.modQueue c kn node fun q => { q.setRec key (some r) with seq := q.seq + 1 }
          (s.makeElig c kn node key, 0, q.seq.toNat % 2 ^ 32))

/-- END: a node run takes no more work to end (R295); an open grid run is not changed. -/
def execEndRun (vf line : Nat) (s : State) : Res :=
  .next (s.handleLine vf line 3 fun c kn l s =>
    let k := s.kern c kn
    if k.st = .absent || k.st = .loading || k.st = .retiring then cmdNo s 2
    else
      match s.openRun? c (BitVec.ofNat 32 (l.nat 4 4)) with
      | none => cmdNo s 2
      | some r =>
        if r.kern != kn then cmdNo s 2
        else if k.nodes.isEmpty then cmdOk s
        else cmdOk (s.modRun c r.grid fun r => { r with ended := true }))

/-- The dirty lines of the cores that held a team of a run. -/
def State.runLines (s : State) (r : Run) : List (Nat × Nat) :=
  r.cores.flatMap fun c => ((s.core c).l1.filter fun e => e.2.dirty != 0).map fun e => (c, e.1)

/-- The parts of 8 bytes at an address that lie in one line each: offset in the value, address, number of bytes. -/
def doneParts (va : Word) : List (Nat × Word × Nat) :=
  let m := min 8 (64 - va.toNat % 64)
  if m = 8 then [(0, va, 8)] else [(0, va, m), (m, va + BitVec.ofNat 64 m, 8 - m)]

/-- The store of DONEVAL at DONEADDR begins; a fault skips it and counts in HOSTERR (R296). An error in it counts there when it falls
(R201), and a migrating page holds it (R203). -/
def State.doneStore (s : State) (c : Nat) (r : Run) : State :=
  let p := (s.ctx c).part
  let bs := leBytes 8 r.doneval.toNat
  let put (s : State) (n : Nat) : State := s.modRun c r.grid fun y => { y with store := some n }
  let x := (doneParts r.doneaddr).foldl (fun (y : State × Option (List LaneOp)) d =>
    match y.2, y.1.globalCheck r.home p d.2.1 .store with
    | some ls, (s, .ok x) =>
      (s, some (ls ++ [{
        lane := ls.length, ea := d.2.1, pa := x.pa, tgt := leafTgt x.leaf, rep := leafRep x.leaf, data := (bs.drop d.1).take d.2.2 }]))
    | _, (s, _) => (s, none)) (s, some [])
  match x with
  | (s, none) => put ((s.ctxCount c 3 1).ctxEvent c 4) 0
  | (s, some ls) => put (s.sendWb (4 * r.home) p c ls) s.nextId

/-- Whether the release at sys of a run has come to its end (R222, R296): nothing that its cores wrote back is on its way, and every
replica has applied what its teams and the write-backs stored. -/
def State.runReleased (s : State) (c : Nat) (r : Run) : Bool :=
  (s.ops.all fun o => r.cores.all fun i => o.k != wbackOwner i)
    && s.repLog.all fun e => e.1 / 2 ^ 16 != (s.ctx c).part || e.2.all fun w =>
      w.who.any fun x => x / 32 % 2 ^ 44 != teamKey c r.grid 0 % 2 ^ 44

/-- Whether the store of an identifier is performed, at every replica too (R202, R219). -/
def State.storeDone (s : State) (n : Nat) : Bool :=
  (s.ops.all fun o => o.id != n) && s.repLog.all fun e => e.2.all fun w => w.op != n

/-- RUN_END (R296): the release at sys on every core that held a team, then the store of DONEVAL, performed with a release at sys, then
MSI-X. Each comes at a RUN_END at which the one before it has ended. -/
def execRunEnd (ctx grid : Nat) (s : State) : Res :=
  .next (match s.run? ctx (BitVec.ofNat 32 grid) with
    | none => s
    | some r =>
      if !s.runOver ctx r then s
      else
        match r.store with
        | none =>
          let s := (s.runLines r).foldl (fun s e => s.writeback e.1 e.2) s
          if !s.runReleased ctx r then s
          else if r.doneaddr = 0 then s.modRun ctx r.grid fun r => { r with store := some 0 }
          else s.doneStore ctx r
        | some n =>
          if !s.storeDone n then s
          else
            let s := if r.raise && !(s.vf (s.ctx ctx).part).frozen then s.emit (.msix (s.ctx ctx).part r.msiv) else s
            let s := s.modCtx ctx fun x => { x with runs := x.runs.filter fun y => y.grid != r.grid }
            (s.kernIdle ctx r.kern).ctxSettle ctx)

end Sys2Proof.Machine
end

