-- ==== Sys2Proof/Machine/Context.lean ====
section
/-!
DEFINITION. Contexts (R303 to R306, R313, R315, R317, R326 to R329): descriptors, creation, fault, pre-emption request,
resume, kill and scrub, counters and events; resume and kill of a group by its supervisor core (R102).
-/

namespace Sys2Proof.Machine

/-! ### Descriptors (R303, R304) -/

/-- The control word as it is held: reserved bits read 0. -/
def ctlHeld (w : Word) : Word := w &&& 0x00FFFFFF00F0FF03

/-- Whether Roith takes a descriptor: BUDGET at most 200, PMAX at most 11, SAVEBASE on a 64 KiB boundary. -/
def descOk (d : CtxDescr) : Bool := bits d.ctl 32 8 ≤ 200 && bits d.ctl 20 4 ≤ 11 && d.savebase.toNat % 65536 = 0

/-- CTX_CREATE: the lowest free context number of the module gets a descriptor, with TOFF 0 (R303, R305, R325, R357). -/
def execCtxCreate (part : Nat) (desc : CtxDescr) (s : State) : Res :=
  roith 0x20 [part] s fun s =>
    let p := s.part part
    if p.st != .active && p.st != .precopying then cmdNo s 2
    else if !descOk desc then cmdNo s 1
    else if p.desc.maxctx ≤ s.ctxs.countP fun e => e.2.st != .destroyed && e.2.part = part then cmdNo s 3
    else
      match (List.range 4096).find? fun c => (s.ctx c).st = .destroyed with
      | none => cmdNo s 3
      | some c => (s.modCtx c fun _ => { st := .created, part, desc := { desc with ctl := ctlHeld desc.ctl, toff := 0 } }, 0, c)

/-- CTX_DESC: a new descriptor; records already bound keep what they took (R304). -/
def execCtxDesc (ctx : Nat) (desc : CtxDescr) (s : State) : Res :=
  roith 0x21 [ctx] s fun s =>
    let st := (s.ctx ctx).st
    if st = .destroyed || st = .killed || st = .scrubbing then cmdNo s 2
    else if !descOk desc then cmdNo s 1
    else cmdOk (s.modCtx ctx fun x => { x with desc := { desc with ctl := ctlHeld desc.ctl } })

/-! ### Resume and kill of a group (R102) -/

/-- A trapped or suspended group goes on from the state in its window, ready or held as R86 gives (R102, R179). What it then stores a stop
of its team covers with a release of its own (R237). -/
def State.resumeGroup (s : State) (k : Nat) : State :=
  let s := (s.resumeAccs k).modGrp k fun g => Group.settle { g with st := .ready, hold := .none, lastReady := s.time }
  let s := s.modTeam (s.grp k).team fun t => { t with rel := none }
  if (s.grp k).st = .ready then (s.holdNow k).rewait k else s

/-! ### Fault (R305, R306) -/

/-- A fault reaches a context; in castling it waits until no team is in transit. True when the state admits it: in runnable no fault
is an exit (R305). -/
def State.faultCtx (s : State) (c : Nat) : State × Bool :=
  match (s.ctx c).st with
  | .castling => (s.modCtx c fun x => { x with pendFault := true }, true)
  | .running | .preempting => (s.enterFault c, true)
  | _ => (s, false)

/-- A context enters faulted whatever it does, as the monitor's kill of its plug-in and the failure of a site of it want (R17, R359): from
every state in which it holds state that can be resumed; in castling once no team is in transit. -/
def State.mustFault (s : State) (c : Nat) : State :=
  match (s.ctx c).st with
  | .castling => s.modCtx c fun x => { x with pendFault := true }
  | .destroyed | .killed | .scrubbing | .faulted => s
  | .created | .loaded | .runnable | .running | .preempting | .saved | .migrating => s.enterFault c

/-- A context enters faulted where a rule sends it there by name, from runnable too (R317, R352). -/
def State.sendFault (s : State) (c : Nat) : State := if (s.ctx c).st = .runnable then s.enterFault c else (s.faultCtx c).1

/-- CTX_FAULT (R305). -/
def execCtxFault (ctx : Nat) (s : State) : Res :=
  roith 0x25 [ctx] s fun s => let r := s.faultCtx ctx; if r.2 then cmdOk r.1 else cmdNo s 2

/-- PLUGIN_ACCESS_FAULT: an access of a policy plug-in of a context outside the windows of its partition raises an access fault to the
monitor, which kills the plug-in, and the context passes to faulted whatever it does. Where the access was meant to go the event does not
say (R17). -/
def execPluginAccessFault (ctx : Nat) (s : State) : Res := .next ((s.mustFault ctx).emit (.accessFault 0 0))

/-! ### Pre-emption and resume (R313, R315, R317) -/

/-- Requests the pre-emption of a context; none where its state does not admit the request. -/
def State.requestPreempt (s : State) (c : Nat) (r : StopReason) (after : CtxState) : Option State :=
  let x := s.ctx c
  let fin := s.time + BitVec.ofNat 64 (bits x.desc.ctl 32 8 * fclkPerUs)
  let s' := s.modCtx c fun x => { x with preempt := some fin, reason := r }
  match x.st with
  | .running => some ((s'.preempt c).preemptDone c)
  | .castling => some (s'.modCtx c fun x => { x with pending := true })
  | .runnable =>
    if (s.teamsOf c).any fun e => e.2.st != .saved then some ((s'.preempt c).preemptDone c)
    else some (s.setCtxSt c after)
  | _ => none

/-- CTX_PREEMPT (R313). -/
def execCtxPreempt (ctx : Nat) (s : State) : Res :=
  roith 0x23 [ctx] s fun s => match s.requestPreempt ctx .safePoint .saved with | some s => cmdOk s | none => cmdNo s 2

/-- PREEMPT_BUDGET_EXPIRY: the groups that still run are stopped at their next boundary (R315). -/
def execPreemptBudgetExpiry (ctx : Nat) (s : State) : Res :=
  .next (match (s.ctx ctx).preempt with
    | some t => if (s.ctx ctx).stops && t.toNat ≤ s.time.toNat then (s.preempt ctx).preemptDone ctx else s
    | none => s)

/-- A faulted context goes back to the state before the fault: its queues reopen and its suspended groups resume
(R305). -/
def State.leaveFault (s : State) (c : Nat) : State :=
  let s := s.modCtx c fun x => { x with
    st := x.before, before := .destroyed,
    kerns := x.kerns.map fun e => (e.1, { e.2 with queues := e.2.queues.map fun q => q.reopen s.time }) }
  let s := (s.teamsOf c).foldl (fun s e => (s.groupsOf e.1).foldl (fun s k =>
    if (s.grp k).st = .suspended then s.resumeGroup k else s.modGrp k fun g => { g with holdReq := false }) s) s
  s.ctxSettle c

/-- CTX_RESUME: a saved context becomes runnable, a faulted one returns to its state before the fault (R305, R317). -/
def execCtxResume (ctx : Nat) (s : State) : Res :=
  roith 0x24 [ctx] s fun s =>
    match (s.ctx ctx).st with
    | .saved => cmdOk ((s.setCtxSt ctx .runnable).ctxSettle ctx)
    | .faulted => cmdOk (s.leaveFault ctx)
    | _ => cmdNo s 2

/-! ### Kill and scrub (R326, R327) -/

/-- Every kernel of a context goes to absent: pages are unmapped and routes withdrawn; the frames stay for the scrub. -/
def State.killKernels (s : State) (c : Nat) : State :=
  (s.ctx c).kerns.foldl (fun s e =>
    let u := (s.part (s.ctx c).part).used
    ((s.dropKernel c e.1).modPart (s.ctx c).part fun p => { p with used := u }).modCtx c fun x =>
      { x with frames := x.frames ++ e.2.frames }) s

/-- The kill of a context, at once also in castling (R305 has the kill from any state, though other events wait there; DEDUCED, log 108): runs, queues and kernels go, every group is killed, images are discarded, though the save area keeps
the bytes of a saved one until the scrub; a team in transit is placed first, unless its site has failed (R324, R326). BRED contributions
that wait for a missing number go (R217). -/
def State.killCtx (s : State) (c : Nat) : State :=
  let s := (s.killKernels c).modCtx c fun x => { x with
    st := .killed, before := .destroyed, runs := [], preempt := none, pending := false, pendFault := false }
  s.groups.foldl (fun s e =>
    if e.2.ctx != c then s
    else
      match e.2.st with
      | .free => s
      | .bound => s.leaveSlot e.1
      | _ => s.killGroup e.1)
    { s with
      bred := s.bred.filter fun e => e.ctx != c
      teams := s.teams.map fun e =>
        if e.2.ctx != c then e
        else if e.2.st = .saved then (e.1, { e.2 with st := .ended })
        else if e.2.st = .transit && s.site e.2.site != .good then (e.1, { e.2 with st := .ended, image := none })
        else e }

/-- CTX_KILL (R305, R326). -/
def execCtxKill (ctx : Nat) (s : State) : Res :=
  roith 0x22 [ctx] s fun s =>
    let st := (s.ctx ctx).st
    if st = .destroyed || st = .killed || st = .scrubbing then cmdNo s 2 else cmdOk (s.killCtx ctx)

/-- CONTEXT_KILL_COMPLETE: every slot of a killed context is free, no team of it is in transit, and no copy of it is
left (R326). -/
def execContextKillComplete (ctx : Nat) (s : State) : Res :=
  .next (
    if (s.ctx ctx).st = .killed && (s.groups.all fun e => e.2.st = .free || e.2.ctx != ctx)
        && ((s.teamsOf ctx).all fun e => e.2.image.isNone) && (s.copies.all fun x => x.ctx != ctx) then
      (s.setCtxSt ctx .scrubbing).ctxEvent ctx 7
    else s)

/-- Zeroes the mapped device pages of a range of a partition's addresses, 64 KiB at a time. -/
def State.zeroRange (s : State) (p : Nat) : Nat → Nat → State
  | 0, _ => s
  | n + 1, va =>
    State.zeroRange (match s.walk p va with
      | some (e, _, size) => if leafTgt e = 0 then s.zeroFrame (leafPa e size va / 65536) else s
      | none => s) p n (va + 65536)

/-- The memory of a context is zeroed: its save area, the frames of its kernels, those it still holds after an export included, and the
scratchpad lines it wrote last; its translations go (R327). -/
def State.scrubCtx (s : State) (c : Nat) : State :=
  let s := s.killKernels c
  let x := s.ctx c
  let n := pagesOf x.desc.savesize.toNat
  let s := (s.zeroRange x.part n x.desc.savebase.toNat).tlbDrop x.part x.desc.savebase.toNat (65536 * n)
  let s := x.frames.foldl State.zeroFrame s
  (s.sown.filter fun e => e.2 = c + 1).foldl (fun s e =>
    { zeroBytes s .spad (64 * e.1) 64 with sown := smSet 0 s.sown e.1 0 }) s

/-- A context number is free again, and nothing names it any longer. -/
def State.dropCtx (s : State) (c : Nat) : State :=
  let x := s.ctx c
  let s := s.modPart x.part fun p => { p with used := p.used.filter fun f => !x.frames.contains f }
  let s := s.modVf x.part fun v => { v with ctx := if v.ctx = some c then none else v.ctx }
  { (s.modCtx c fun _ => {}) with
    teams := s.teams.filter fun e => e.2.ctx != c, bred := s.bred.filter fun e => e.ctx != c }

/-- CONTEXT_SCRUB_COMPLETE (R327). -/
def execContextScrubComplete (ctx : Nat) (s : State) : Res :=
  .next (if (s.ctx ctx).st = .scrubbing then (s.scrubCtx ctx).dropCtx ctx else s)

/-! ### Counters and events (R328, R329) -/

/-- CLEAR: the counters whose bits are written 1 become 0 (R328); a frozen function discards the write (R352). -/
def execClear (ctx : Nat) (mask : Word) (s : State) : Res :=
  .next (if (s.ctx ctx).st = .destroyed || (s.vf (s.ctx ctx).part).frozen then s
    else s.modCtx ctx fun x => { x with counts := Vector.ofFn fun i => if mask.getLsbD i then 0 else x.counts[i] })

/-- A read of EVENTS clears them; an event of this FCLK is kept for the next read (R329). -/
def State.takeEvents (s : State) (c : Nat) : State :=
  s.modCtx c fun x => { x with events := 0, evNew := x.newEvents s.time, evTime := s.time }

/-- A read of EVENTS returns the bits and clears them (R329). -/
def State.readEvents (s : State) (c : Nat) : State := (s.takeEvents c).emit (.data (leBytes 8 ((s.ctx c).oldEvents s.time).toNat))

/-- EVENTS_READ (R329): a frozen function reads all ones (R352). -/
def execEventsRead (ctx : Nat) (s : State) : Res :=
  .next (if (s.ctx ctx).st = .destroyed then s
    else if (s.vf (s.ctx ctx).part).frozen then s.emit (.data (List.replicate 8 255))
    else s.readEvents ctx)

end Sys2Proof.Machine
end

