-- ==== Sys2Proof/Machine/Frames.lean ====
section
/-!
DEFINITION. Frames and units of partitions (R19, R192, R193, R203, R331, R356, R363, R369, R376): which frames are
free or in use, moves of frames, the scrub of units, route tables in the routers.
-/

namespace Sys2Proof.Machine

/-! ### Frames in use (R188, R356) -/

/-- F of a global channel: its usable frames (R356, R374). -/
def State.chanFrames (s : State) (c : Nat) : Nat :=
  match s.chanSite c with
  | some t => (s.flash.entry t).frames
  | none => 0

/-- The free frames of a list of channels, ascending. -/
def State.poolFrames (s : State) (chans : List Nat) : List Nat :=
  chans.flatMap fun c => ((List.range (s.chanFrames c)).map fun i => c * 65536 + i).filter fun f =>
    smGet 0 s.owner f = 0 && !s.retired.contains f

/-- The frames that a partition owns. -/
def State.ownFrames (s : State) (p : Nat) : List Nat := (s.owner.filter fun e => e.2 = p + 1).map Prod.fst

/-- The 8-byte words of a table of `n` entries at `t` that are not zero. -/
def entryWords (mem : Memory) (t n : Nat) : List Nat :=
  ((mem.filter fun c => t ≤ c.1 && c.1 < t + 8 * n).map fun c => c.1 / 8).eraseDups

/-- The valid entries of a page table as address, entry and page size; size 0 for a table entry. -/
def tableEntries (mem : Memory) : List (Nat × Nat × Nat) → Nat → List (Nat × Nat × Nat)
  | [], _ => []
  | (_, nb, size) :: r, t =>
    (entryWords mem t (2 ^ nb)).flatMap fun w =>
      let e := memLoad mem (8 * w) 8
      if !ebit e 63 then []
      else if ebit e 62 then [(8 * w, e, size)]
      else (8 * w, e, 0) :: tableEntries mem r (e / 2 ^ 8 % 2 ^ 40 * 2 ^ 8)

/-- The page table of a partition. -/
def State.entries (s : State) (p : Nat) : List (Nat × Nat × Nat) := tableEntries s.mem levels (s.part p).root

/-- The leaves of a partition in device memory, with their page sizes. -/
def State.leaves (s : State) (p : Nat) : List (Nat × Nat) :=
  ((s.entries p).filter fun x => x.2.2 != 0 && leafTgt x.2.1 = 0).map Prod.snd

/-- Whether a partition uses a frame: a leaf maps it, a replica stands in it, a table lies in it, or Roith gave it
out. -/
def State.frameUsed (s : State) (p f : Nat) : Bool :=
  (s.part p).used.contains f
    || (s.leaves p).any (fun x =>
        let b := leafFrame x.1
        (b ≤ f && f < b + x.2 / 65536)
          || (match leafRep x.1 with
              | some i => (s.repChans p i).contains (f / 65536) && b % 65536 ≤ f % 65536 && f % 65536 < b % 65536 + x.2 / 65536
              | none => false))
    || (s.entries p).any (fun x => x.2.2 = 0 && x.2.1 / 2 ^ 16 % 2 ^ 32 = f)

/-! ### Moves of frames (R192, R203, R363, R376) -/

/-- An entry of a page table after frames have moved. -/
def entryMoved (mv : Nat → Nat) (e size : Nat) : Nat :=
  if size = 0 then e / 2 ^ 48 * 2 ^ 48 + mv (e / 2 ^ 16 % 2 ^ 32) * 2 ^ 16 + e % 2 ^ 16
  else if leafTgt e = 0 then e / 2 ^ 48 * 2 ^ 48 + mv (leafFrame e) * 2 ^ 16 + e % 2 ^ 16
  else e

/-- A map of frames on addresses. -/
def addrMoved (mv : Nat → Nat) (a : Nat) : Nat := mv (a / 65536) * 65536 + a % 65536

/-- Cells of a map by address in units of `u` bytes after a move of the frames `fs`; what stood in the frames `gs` that they
move to is gone. -/
def cellsMoved {α : Type} [DecidableEq α] (d : α) (fs gs : List Nat) (mv : Nat → Nat) (u : Nat) (m : SMap α) : SMap α :=
  (m.filter fun e => fs.contains (e.1 * u / 65536)).foldl (fun r e => smSet d r (addrMoved mv (e.1 * u) / u) e.2)
    (m.filter fun e => !fs.contains (e.1 * u / 65536) && !gs.contains (e.1 * u / 65536))

/-- Moves frames of a partition: contents, tables, accesses in flight and everything that names them; TLBs drop the
partition's entries. `ch` renames the channels of replicas. An export carries them again in full (R358). -/
def State.moveFrames (s : State) (p : Nat) (ps : List (Nat × Nat)) (ch : Nat → Nat) : State :=
  let fs := ps.map Prod.fst
  let gs := ps.map Prod.snd
  let mv (f : Nat) : Nat := ((ps.find? fun e => e.1 = f).map Prod.snd).getD f
  let am := addrMoved mv
  let hbm (k : Nat) : Bool := decide (k < 2 ^ 60)
  let edits := (s.entries p).map fun x => (x.1, entryMoved mv x.2.1 x.2.2)
  let mem := edits.foldl (fun m e => memStore m e.1 8 e.2) s.mem
  let s : State := (s.noteLines (edits.map fun e => e.1 / 64))
  let s : State := { s with
    mem := cellsMoved memDefault fs gs mv 1 mem
    mpoi := cellsMoved false fs gs mv 8 s.mpoi
    ecc := cellsMoved 0 fs gs mv 8 (s.ecc.filter fun e => hbm e.1) ++ s.ecc.filter fun e => !hbm e.1
    l2 := s.l2.filter fun e => !fs.contains (e.1 * 256 / 65536)
    owner := gs.foldl (fun m f => smSet 0 m f (p + 1)) (fs.foldl (fun m f => smSet 0 m f 0) s.owner)
    hostLines := s.hostLines.map fun l => am (l * 64) / 64
    repLog := s.repLog.map fun e =>
      if e.1 / 2 ^ 16 = p then (e.1, e.2.map fun w => { w with bytes := w.bytes.map fun b => (am b.1, b.2) }) else e
    ops := s.ops.map fun o =>
      if o.part = p && o.kind.space = .global then
        { o with lanes := o.lanes.map fun x => if x.tgt = 0 then { x with pa := am x.pa } else x }
      else o
    tiles := s.tiles.map fun e => (e.1, { e.2 with tlb := e.2.tlb.filter fun x => x.part != p })
    cores := s.cores.map fun e => (e.1, { e.2 with l1 := e.2.l1.map fun l =>
      if l.1 / 2 ^ 50 = p && l.2.tgt = 0 then (l.1, { l.2 with pa := am l.2.pa }) else l })
    ctxs := s.ctxs.map fun e =>
      if e.2.part = p then
        (e.1, { e.2 with frames := e.2.frames.map mv, kerns := e.2.kerns.map fun k => (k.1, { k.2 with frames := k.2.frames.map mv }) })
      else e }
  (s.modPart p fun x => { x with
    root := am x.root, used := x.used.map mv, replicas := x.replicas.map fun e => (e.1, e.2.map ch), xframes := x.xframes.map mv
    resend := x.resend.map fun l => am (64 * l) / 64 }).noteLines (gs.flatMap frameLines)

/-! ### Route tables (R331, R332) -/

/-- Installs a partition's route table in the routers: the permissions and detours of its tag (R331, R332). -/
def State.setTable (s : State) (p : Nat) (tb : List RouterEntry) : State :=
  let s : State := { s with routers := s.routers.map fun e =>
    (e.1, { e.2 with links := smSet [] e.2.links p [], detours := smSet [] e.2.detours p [] }) }
  (tb.foldl (fun s e => s.modRouter e.site fun r =>
    { r with links := smSet [] r.links p e.links, detours := smSet [] r.detours p e.detours }) s).modPart p fun x => { x with table := tb }

/-- The site of a map of sites. -/
def siteMoved (m : List (Nat × Nat)) (t : Nat) : Nat := ((m.find? fun e => e.1 = t).map Prod.snd).getD t

/-- A kernel whose sites have moved: its queues' homes and its plan. -/
def Kern.moved (k : Kern) (m : List (Nat × Nat)) : Kern :=
  let slot (x : PlanSlot) : PlanSlot := { x with site := siteMoved m x.site }
  { k with
    queues := k.queues.map fun q => { q with home := siteMoved m q.home },
    plan := { sets := k.plan.sets.map fun b => { b with slots := b.slots.map slot }, spawns := k.plan.spawns.map slot } }

/-- A numbered route whose sites have moved: the points that name a moved site name its new place (R363; log 57). -/
def routeMoved (r : Route) (o : Nat × Nat) (m : List (Nat × Nat)) : Route :=
  let pt (x : Nat × Nat) : Nat × Nat :=
    let t := siteMoved m (siteAt (x.1 + o.1) (x.2 + o.2))
    (siteX t - o.1, siteY t - o.2)
  { r with src := pt r.src, dst := pt r.dst, via := r.via.map pt }

/-- The leaves of a partition that name a frame of a list, replicas of their pages included, by the address of the entry. -/
def State.leavesOn (s : State) (p : Nat) (fs : List Nat) : List (Nat × Nat) :=
  ((s.entries p).filter fun x => x.2.2 != 0 && leafTgt x.2.1 = 0 && !leafMig x.2.1 && fs.any fun f =>
    let b := leafFrame x.2.1
    (b ≤ f && f < b + x.2.2 / 65536)
      || (leafRep x.2.1).any fun i => (s.repChans p i).contains (f / 65536) && b % 65536 ≤ f % 65536 && f % 65536 < b % 65536 + x.2.2 / 65536).map
    fun x => (x.1, x.2.1)

/-- Every translation of a partition leaves the TLBs. -/
def State.tlbClear (s : State) (p : Nat) : State :=
  { s with tiles := s.tiles.map fun e => (e.1, { e.2 with tlb := e.2.tlb.filter fun x => x.part != p }) }

/-- The pages of frames that are to move are migrating (R192): MIG is set in their leaves, and the TLBs drop them. -/
def State.migrate (s : State) (p : Nat) (fs : List Nat) : State :=
  let ls := s.leavesOn p fs
  let s : State := { s with mem := ls.foldl (fun m e => memStore m e.1 8 (e.2 + 2 ^ 54)) s.mem }
  (s.tlbClear p).modPart p fun x => { x with cmig := ls.map Prod.fst }

/-- The frames of a compaction move, and the pages that were migrating for it are so no longer (R192, R363). -/
def State.migrated (s : State) (p : Nat) : State :=
  let x := s.part p
  let mv (f : Nat) : Nat := ((x.cframes.find? fun e => e.1 = f).map Prod.snd).getD f
  let s := s.moveFrames p x.cframes (siteMoved x.cchans)
  { s with mem := x.cmig.foldl (fun m a => memStore m (addrMoved mv a) 8 (memLoad m (addrMoved mv a) 8 - 2 ^ 54)) s.mem }

/-- A compaction whose moves are over: its frames move, the sites, tables, routes and plan of its command hold, and the partition is active
(R363); the sites that it left wait for their scrub (R369). -/
def State.endCompact (s : State) (p : Nat) : State :=
  let x := s.part p
  if x.st != .compacting || !x.moving.isEmpty then s
  else
    let m := x.cmap
    let new := x.sites.map (siteMoved m)
    let s := ((s.migrated p).setTable p x.ctable).modPart p fun y => { y with
      st := .active, sites := new, leaving := x.leaving ++ x.sites.filter fun t => !new.contains t, plan := x.cplan,
      routes := x.routes.map fun e => (e.1, e.2.map fun r => routeMoved r x.origin m)
      chans := (x.chans.filter fun c => x.cchans.all fun e => e.2 != c || x.cchans.any fun e => e.1 = c).map (siteMoved x.cchans)
      hash := x.hash.map fun e => (siteMoved m e.1, e.2)
      planFrom := s.time, gen := x.gen + 1, cmap := [], ctable := [], cplan := {}, cchans := [], cframes := [], cmig := [] }
    { s with ctxs := s.ctxs.map fun e =>
        if e.2.part = p then
          (e.1, { e.2 with
            kerns := e.2.kerns.map fun k => (k.1, k.2.moved m)
            runs := e.2.runs.map fun r => { r with home := siteMoved m r.home } })
        else e }

/-! ### The end of an export or of a quiesce (R358, R359, R364, R365) -/

/-- PART_EXPORT or PART_IMPORT reports: its command line gets STATUS (R375). -/
def State.exportEnd (s : State) (p op code value : Nat) : State :=
  if !(s.part p).exporting then s
  else
    let s' : State :=
      match (s.part p).exportLine with
      | some n => s.modPort n fun y => { y with cmd := y.cmd.finish code value }
      | none => s
    (s'.modPart p fun x => { x with exporting := false, exportLine := none }).emit (.status op code value)

/-- A partition that was quiescing or migrating out goes back to active: its migrating contexts are saved, one whose teams have not all been
saved yet as pre-empting until they are (log 110), a quiesce that waits in castling is dropped, and the queues reopen (R270, R305). -/
def State.unquiesce (s : State) (p : Nat) : State :=
  let s : State := { s with ctxs := s.ctxs.map fun e =>
    if e.2.part = p && e.2.st != .faulted && e.2.st != .destroyed then
      (e.1, { e.2 with
        st := if e.2.stops then .preempting else if e.2.st = .migrating then .saved else e.2.st
        reason := if e.2.reason = .quiesce then .safePoint else e.2.reason
        pending := e.2.pending && e.2.reason != .quiesce
        preempt := if e.2.pending && e.2.reason = .quiesce then none else e.2.preempt
        kerns := e.2.kerns.map fun k => (k.1, { k.2 with queues := k.2.queues.map fun q => q.reopen s.time }) })
    else e }
  s.modPart p fun x => { x with st := .active, planFrom := if x.st = .precopying then x.planFrom else s.time }

/-! ### Scrubbing (R369) -/

/-- A site is scrubbed: scratchpad, L1, TLB, remap table, range scoreboard, slot tables and drop log; on a protected
partition accumulators and all else of the cores too. -/
def State.scrubSite (s : State) (t : Nat) (prot : Bool) : State :=
  let s := zeroBytes s .spad (2 ^ 23 * t) (2 ^ 23)
  let s : State := { s with
    sown := s.sown.filter fun e => e.1 * 64 / 2 ^ 23 != t
    groups := s.groups.filter fun e => siteOf e.1 != t
    cores := if prot then s.cores.filter fun e => e.1 / 4 != t else s.cores }
  let s := (List.range 4).foldl (fun s i => s.modCore (4 * t + i) fun c => { c with l1 := [] }) s
  (s.modTile t fun x => { x with tlb := [], remap := [], range := [] }).modRouter t fun r => { r with log := [] }

/-- A frame is scrubbed and returns to the free pool: zeroed, its L2 lines gone without write-back. -/
def State.scrubFrame (s : State) (f : Nat) : State :=
  let s := zeroBytes s .hbm (f * 65536) 65536
  { s with l2 := s.l2.filter fun e => e.1 / 256 != f, owner := smSet 0 s.owner f 0 }

/-- The bank memory of a partition is scrubbed. -/
def State.scrubBank (s : State) (p : Nat) : State :=
  { zeroBytes s .bank (bankAddr p 0) (2 ^ 32) with bred := s.bred.filter fun e => e.part != p }

end Sys2Proof.Machine
end

