-- ==== Sys2Proof/Machine/Castle.lean ====
section
/-!
DEFINITION. Team stops, castling, save and restore (R103, R126, R178, R180, R237, R309 to R325): images, the remap
table, the moves of rings, placement.
-/

namespace Sys2Proof.Machine

/-! ### The remap table (R321) -/

/-- Every tile with a copy or share of a team has its remap entry changed: LOC 0 here, 1 on a tile, 2 in the save
area, 3 in transit. -/
def State.setRemap (s : State) (tk loc site : Nat) (base : Word) : State :=
  let ts := (s.copies.flatMap fun c => c.site :: c.recv.filterMap fun r => r.site).eraseDups
  ts.foldl (fun s t =>
    if !s.remapped t tk then s
    else s.modTile t fun x => { x with remap :=
      { team := tk, loc := if loc = 1 && site = t then 0 else loc, site, base } :: x.remap.filter fun e => e.team != tk }) s

/-! ### The team image (R309 to R312, R178, R237) -/

/-- A token at a stop: one that is not idle is saved complete with ACQ clear (R237). -/
def Tok.saved (t : Tok) : Tok := if t.st = .idle then t else { t with st := .complete, acq := false, cover := [], lines := [] }

/-- A group as its image holds it (R101, R126). -/
def Group.saved (g : Group) : Group :=
  { g.landAll.joinFlags with
    tok := Vector.ofFn fun i => g.tok[i].saved, pin := false, stopReq := none, acc := Vector.replicate 8 none, hold := .none }

/-- The accumulator records of a group: one whose MMA has begun is stalled between k-steps (R178, R181). An MMA's identifier is
there its place in the core's queue, in whose order it re-enters (R180). -/
def State.savedAccs (s : State) (k : Nat) : List SavedAcc :=
  let g := s.grp k
  let c := s.core (coreOf k)
  (List.range 8).filterMap fun i =>
    (g.accOf i).map fun n =>
      let ms := c.mmasFor n
      let a := c.acc n
      { gid := g.gid, name := i, phys := n, acc := { a with st := if ms.any fun m => 0 < m.prog then .stalled else a.st },
        mmas := ms.map fun m => { m with inArray := false, stop := none, id := c.queue.findIdx fun y => y.id = m.id } }

/-- Once its record is taken, an accumulator drains; its MMAs leave the queue with their slots still raised. -/
def State.dropAccs (s : State) (k : Nat) : State :=
  (List.range 8).foldl (fun s i =>
    match (s.grp k).accOf i with
    | none => s
    | some n => (s.modCore (coreOf k) fun c => { c with queue := c.queue.filter fun m => m.acc != n }).modAcc (coreOf k) n fun a =>
        { a with st := .draining, fault := false }) s

/-- The window of a team as it stands, its poison, and the state after it was read. -/
def State.readWindow (s : State) (t : Team) : State × SMap Byte × SMap Bool :=
  let a := 2 ^ 23 * t.site + t.wbase
  let k := 2 ^ 60 * Store.spad.num
  let s := (s.ecc.filter fun e => k + a / 8 ≤ e.1 && e.1 < k + (a + t.wsize) / 8).foldl (fun s e => s.eccMeet t.ctx .spad (e.1 - k)) s
  (s, (s.spad.filter fun e => a ≤ e.1 && e.1 < a + t.wsize).map (fun e => (e.1 - a, e.2)),
    (s.spoi.filter fun e => a / 8 ≤ e.1 && e.1 < (a + t.wsize) / 8).map fun e => (e.1 - a / 8, e.2))

/-- Whether every group of a team stands where the image can take it (R309): none runs, all accesses have ended, no k-step is under
way and no MMA waits only for its completion. A pin flag of any group defers castling (R126); at safe points a group that is trapped,
suspended or draining waits for its copies until the budget ends (R314). -/
def State.teamStill (s : State) (tk : Nat) (r : StopReason) : Bool :=
  let t := s.team tk
  let soft : Bool := r != .castling && r != .forced && !t.forced
    && (match (s.ctx t.ctx).preempt with | some x => s.time.toNat < x.toNat | none => true)
  (s.groupsOf tk).all fun k =>
    let g := s.grp k
    g.st != .ready && g.st != .held && (s.opsOf k).isEmpty && !(r = .castling && g.pin) && g.arrive.all (fun a => a.parity.isSome)
      && !(soft && g.st != .stopped && !(s.copiesOf k).isEmpty)
      && (s.mmasAll k).all fun m => m.prog < m.steps && m.stop.all (· ≤ m.prog) && !((s.core (coreOf k)).run.any fun x => x.1 = m.id)

/-- The release at scope sys of every group of a team (R237). -/
def State.teamRel (s : State) (tk : Nat) : Rel :=
  (s.groupsOf tk).foldl (fun r k => Rel.merge r (s.mkRel k 4)) { scope := 4 }

/-- The reason of a stop: a team of a pre-empting context is saved (R324). -/
def State.stopReason (s : State) (t : Team) : StopReason :=
  let x := s.ctx t.ctx
  if x.stops then if t.reason = .castling then (if x.reason = .quiesce then .quiesce else .safePoint) else t.reason
  else .castling

/-- The free image slot of a context's save area with the lowest number (R316). -/
def State.imageSlot (s : State) (c : Nat) : Nat :=
  let used := (s.teamsOf c).filterMap fun e => if e.2.st = .saved then e.2.image.map fun im => im.slot else none
  ((List.range (used.length + 1)).find? fun i => !used.contains i).getD 0

/-- The image is taken: the groups leave their slots, the accumulators drain, the window is read; but for castling the image is
written to the save area (R309, R313). -/
def State.takeImage (s : State) (tk : Nat) : State :=
  let t := s.team tk
  let r := s.stopReason t
  let ks := s.groupsOf tk
  let site := t.site
  let (s, w, wp) := (ks.foldl State.meetAll s).readWindow t
  let x := s.ctx t.ctx
  let im : Image := {
    groups := ks.map fun k => (coreOf k % 4, slotOf k, (s.grp k).saved), accs := ks.flatMap s.savedAccs, window := w, wpoi := wp,
    reason := r, site, time := s.time + x.desc.toff, order := x.order, slot := s.imageSlot t.ctx, base := s.slotOff t.ctx (s.imageSlot t.ctx),
    ranges := (s.tile site).range.filter fun e => e.team = tk && e.copy.isSome,
    list := (s.copies.filter fun c => c.team = tk).map fun c => (c.id, c.entry (s.tile site).range),
    shares := s.sharesOf tk site }
  let s : State := { s with copies := s.copies.map fun c =>
    if c.team = tk && c.desc.sspace = 1 && c.snap.isNone then { c with snap := some (w, wp) } else c }
  let s := ks.foldl (fun s k => ((s.unwait k).dropAccs k).leaveSlot k) s
  let s := s.modTile site fun x => { x with range := x.range.filter fun e => e.team != tk }
  let s := s.modTeam tk fun t => { t with
    st := if r = .castling then .transit else .saved, image := some im, slots := [], rel := none, pinEnd := none, landed := false }
  let s := im.groups.foldl (fun s e => s.imageArrivals tk e.2.2.gid) s
  if r = .castling then (s.setRemap tk 3 0 0).ctxSettle t.ctx
  else
    let s := s.modCtx t.ctx fun x => { x with order := x.order + 1 }
    let s := if r = .forced || t.forced then s.ctxCount t.ctx 6 1 else s
    let s := (s.writeImage tk).modTeam tk fun t => { t with image := t.image.map fun im => { im with window := [], wpoi := [] } }
    (s.setRemap tk 2 0 (s.imageVa t.ctx im.slot)).ctxSettle t.ctx

/-- TEAM_STOP: groups that have reached their stop enter stopped, unless a trap comes first (R87, R324); when all of a team stand,
its release at sys begins, and when that is complete the image is taken (R237, R309). -/
def execTeamStop (team : Nat) (s : State) : Res :=
  .next (
    let t := s.team team
    let x := s.ctx t.ctx
    if t.st != .stopping || !(x.stops || (t.reason = .castling && x.st != .killed)) then s
    else
      let ks := s.groupsOf team
      let pinned : Bool := s.stopReason t = .castling && ks.any fun k => (s.grp k).pin
      let s := if pinned then s else ks.foldl (fun s k => if (s.grp k).stopReq.any (· != .safePoint) then s.stopMmas k else s) s
      let s := ks.foldl (fun s k => if s.canStop k then (s.boundary k).1 else s) s
      if !s.teamStill team (s.stopReason t) then s.modTeam team fun t => { t with rel := none }
      else
        let s := match t.rel with | some _ => s | none => s.modTeam team fun t => { t with rel := some (s.teamRel team) }
        match (s.team team).rel with
        | some r => if s.relDone r then s.takeImage team else s
        | none => s)

/-! ### Placing a team (R180, R237, R317, R319, R320) -/

/-- A group as it goes on in a slot: sr.moved tells a change of site, and a stopped group is ready again (R320). -/
def Group.placed (g : Group) (moved : Bool) (t : Word) : Group :=
  Group.settle { g with
    st := if g.st = .stopped then .ready else g.st, moved := g.moved || moved, lastReady := t }

/-- A saved accumulator is bound to a free one of the core (R158). -/
def State.putAcc (s : State) (ks : List (Nat × Group)) (a : SavedAcc) : State :=
  match ks.find? fun e => e.2.gid = a.gid with
  | none => s
  | some (k, _) =>
    match (s.core (coreOf k)).freeAcc with
    | none => s
    | some n =>
      let fin : AccState := if a.acc.st = .stalled && !a.acc.fault then .accumulating else a.acc.st
      (s.modAcc (coreOf k) n fun _ => { a.acc with st := fin, owner := k, name := a.name }).modGrp k fun g => g.bindAcc a.name (some n)

/-- A saved MMA takes its range entries again and enters the array behind those there, unless a poison fault stopped
it (R179, R180). -/
def State.putMma (s : State) (ks : List (Nat × Group)) (a : SavedAcc) (m : MmaEnt) : State :=
  match ks.find? fun e => e.2.gid = a.gid with
  | none => s
  | some (k, _) =>
    match (s.grp k).accOf a.name with
    | none => s
    | some n =>
      s.mmaEnter k { m with acc := n, inArray := !a.acc.fault }

/-- The MMAs of saved accumulators in the order in which they stood in their queues. -/
def savedMmas (as : List SavedAcc) : List (SavedAcc × MmaEnt) :=
  ((as.flatMap fun a => a.mmas.map fun m => (a, m)).foldr
    (fun x l => (l.takeWhile fun y => y.2.id < x.2.id) ++ x :: l.dropWhile fun y => y.2.id < x.2.id) [])

/-- Range entries that an image needs on the tile that takes it: those of its copies, shares and messages that are still in flight
(R317). -/
def State.rangesOf (s : State) (im : Image) : List RangeEnt :=
  im.ranges.filter fun e => e.copy.any fun id =>
    if e.share then
      (s.copies.any fun c => c.id = id && c.recv.any fun r => c.recvKey r = e.team && !r.done)
        || s.ports.any fun p => p.2.rbuf.any fun x => x.id = id && packetTeam x.pkt = e.team
    else s.copies.any fun c => c.id = id

/-- Whether a team image can be placed in these slots now: accumulators and range entries are free (R180, R317). -/
def State.roomFor (s : State) (im : Image) (ks : List (Nat × Group)) (site : Nat) : Bool :=
  let core (a : SavedAcc) : Nat := ((ks.find? fun e => e.2.gid = a.gid).map fun e => coreOf e.1).getD 0
  let n := (savedMmas im.accs).foldl (fun n x => n + x.2.pairs.length) (s.rangesOf im).length
  ((s.tile site).range.length + n ≤ 64)
    && (List.range 4).all fun i =>
      let c := 4 * site + i
      (im.accs.countP fun a => core a = c) ≤ ((List.range 8).countP fun j => ((s.core c).acc j).st = .free)

/-- The window of an image is written at a team's place. -/
def State.writeWindow (s : State) (tk : Nat) (im : Image) : State :=
  let t := s.team tk
  let a := t.spadAddr 0
  let s := zeroBytes s .spad a t.wsize
  let s : State := { s with
    spad := im.window.foldl (fun m e => memSet m (a + e.1) e.2) s.spad,
    spoi := im.wpoi.foldl (fun m e => smSet false m (a / 8 + e.1) e.2) s.spoi }
  { s with sown := (List.range (t.wsize / 64)).foldl (fun m i => smSet 0 m (a / 64 + i) (t.ctx + 1)) s.sown }

/-- A team goes on at its site and base in these slots, after the acquire at sys (R237); one whose context was killed
is then killed (R324), and one whose context is faulted is held. Follow-on MMAs that were kept enter behind the saved MMAs (R323). -/
def State.placeTeam (s : State) (tk : Nat) (im : Image) (ks : List (Nat × Group)) : State :=
  let t := s.team tk
  let s := s.modTeam tk fun t => { t with st := .resident, image := none, landed := false, down := false, forced := false, slots := ks.map Prod.fst }
  let s := s.writeWindow tk im
  let s := ks.foldl (fun s e => s.setGrp e.1 { e.2.placed (im.site != t.site) s.time with err := (s.grp e.1).err }) s
  let s := im.accs.foldl (fun s a => s.putAcc ks a) s
  let s := (savedMmas im.accs).foldl (fun s x => s.putMma ks x.1 x.2) s
  let s := s.modTile t.site fun x => { x with range := x.range ++ s.rangesOf im }
  let s := (ks.map fun e => coreOf e.1).eraseDups.foldl (fun s c => s.acquire c 4) s
  let s := s.modRun t.ctx t.grid fun r => { r with
    cores := (ks.map fun e => coreOf e.1).foldl (fun l c => if l.contains c then l else c :: l) r.cores }
  let s := s.setRemap tk 1 t.site (BitVec.ofNat 64 t.wbase)
  let s := s.copies.foldl (fun s c => if c.team = tk then s.followOn c else s) s
  let s := ks.foldl (fun s e => s.rewait e.1) s
  let s : State :=
    match (s.ctx t.ctx).st with
    | .killed => ks.foldl (fun s e => s.killGroup e.1) s
    | .faulted => ks.foldl (fun s e => s.modGrp e.1 fun g => { g with holdReq := g.holdReq || g.st = .ready || g.st = .held }) s
    | _ => s
  s.ctxSettle t.ctx

/-! ### Castling (R126, R318, R319) -/

/-- The pairs of a ring: site i gives to site (i + 1) mod N. -/
def ringPairs (r : List Nat) : List (Nat × Nat) := r.zip (r.drop 1 ++ r.take 1)

/-- The pin deferral in FCLK: 64 µs (R126). -/
def pinFclk : Nat := 64 * fclkPerUs

/-- Castling stops are requested of every team on the sites that a move empties (R319, R324). -/
def State.stopSites (s : State) (m : RingMove) : State :=
  (s.teams.filter fun e => e.2.present && e.2.image.isNone && m.pairs.any fun x => x.1 = e.2.site).foldl (fun s e =>
    let x := s.ctx e.2.ctx
    if x.stops || x.st = .killed then s
    else (s.askStop e.1 .castling true).modTeam e.1 fun t => { t with pinEnd := some (s.time + BitVec.ofNat 64 pinFclk) }) s

/-- CASTLING_INTERVAL: at the end of an interval every ring that is not still moving castles (R318, R319, R358); a PIN that issues in the
FCLK of the request comes first (R126), so the request falls at the end of it. -/
def execCastlingInterval (part : Nat) (s : State) : Res :=
  .next (
    let p := s.part part
    let iv := p.plan.interval * 1800000
    let el := s.time.toNat - p.planFrom.toNat
    if s.stage != .closing || (p.st != .active && p.st != .precopying) || p.plan.rings.isEmpty || iv = 0 || el < iv then s
    else
      let s := s.modPart part fun p => { p with planFrom := p.planFrom + BitVec.ofNat 64 (el / iv * iv) }
      p.plan.rings.foldl (fun s r =>
        if r.any fun t => s.siteMoving part t then s
        else
          let m : RingMove := { pairs := ringPairs r }
          (s.modPart part fun p => { p with moving := p.moving ++ [m] }).stopSites m) s)

/-- PIN_LIMIT: a castling stop has been deferred for 64 µs; every pin flag of the team clears (R126). -/
def execPinLimit (team : Nat) (s : State) : Res :=
  .next (match (s.team team).pinEnd with
    | none => s
    | some t =>
      let ks := s.groupsOf team
      if s.time.toNat < t.toNat || !(ks.any fun k => (s.grp k).pinned) then s
      else
        let c := (s.team team).ctx
        (((ks.foldl (fun s k => s.modGrp k fun g => { g with pin := false }) s).modTeam team fun t => { t with pinEnd := none }).ctxCount
          c 5 1).ctxEvent c 3)

/-- The slot of a group after a move. -/
def RingMove.key (m : RingMove) (k : Nat) : Nat :=
  match m.pairs.find? fun e => e.1 = siteOf k with
  | some e => 64 * e.2 + k % 64
  | none => k

/-- The bytes of a team image that travel (R310). -/
def Image.bytes (im : Image) (w : Nat) : Nat :=
  0x1000 + 0x9F88 * im.groups.length + 0x4340 * im.accs.length + (if im.shares.isEmpty then 0 else 0x800) + w

/-- The link directions of the dimension-order route between two sites, each as the sites that it joins. -/
def routeLinks (a b : Nat) : List (Nat × Nat) :=
  let p := a :: (leg (siteX a, siteY a) (siteX b, siteY b)).map fun q => siteAt q.1 q.2
  p.zip (p.drop 1)

/-- The site to which a move takes what stands on a site. -/
def RingMove.dest (m : RingMove) (t : Nat) : Nat := ((m.pairs.find? fun e => e.1 = t).map Prod.snd).getD t

/-- When the last byte of a team's image lands that leaves now with the others of its move: each link direction of the dimension-order route
carries 128 bytes a FCLK, and a hop takes 2 FCLK (R319). The images that share a link direction go over it by the number of their site, and
those of one site in address order (the order between sites is open; DESIGN CHOICE, log 109). -/
def State.landTime (s : State) (m : RingMove) (tk : Nat) : Word :=
  let t := s.team tk
  let ahead := s.teams.filter fun e =>
    e.2.st = .transit && !e.2.landed && (m.pairs.any fun x => x.1 = e.2.site)
      && (e.2.site < t.site || (e.2.site = t.site && (e.2.wbase < t.wbase || (e.2.wbase = t.wbase && e.1 ≤ tk))))
  let load (l : Nat × Nat) : Nat :=
    ((ahead.filter fun e => (routeLinks e.2.site (m.dest e.2.site)).contains l).map fun e => e.2.image.elim 0 fun im => im.bytes e.2.wsize).sum
  let ls := routeLinks t.site (m.dest t.site)
  s.time + BitVec.ofNat 64 (((ls.map load).foldl max 0 + 127) / 128 + 2 * ls.length)

/-- Whether the route of a team's image meets a link that is down (R12). -/
def State.moveCut (s : State) (m : RingMove) (t : Nat) : Bool :=
  (routeLinks t (m.dest t)).any fun l => (s.router l.1).down.any fun d => stepLink l.1 d = l.2

/-- Images that would cross a hole are dropped and counted, and the contexts of their teams fault, as those in transit through a failing site
do (R12, R359; DEDUCED, log 107). -/
def State.dropImages (s : State) (m : RingMove) (part : Nat) : State :=
  (s.teams.filter fun e => e.2.st = .transit && !e.2.landed && (m.pairs.any fun x => x.1 = e.2.site) && s.moveCut m e.2.site).foldl
    (fun s e =>
      let s := (s.routeDrop part).modTeam e.1 fun t => { t with st := .resident, image := none, slots := [] }
      (s.ctxSettle e.2.ctx).mustFault e.2.ctx) s

/-- Whether every team on the sites that a move empties has stopped or ended (R319). -/
def State.moveReady (s : State) (m : RingMove) : Bool :=
  s.teams.all fun e => !(e.2.present && e.2.image.isNone && m.pairs.any fun x => x.1 = e.2.site)

/-- A move is over when no team that it carries is in transit. -/
def State.moveOver (s : State) (m : RingMove) : Bool :=
  m.gone && s.teams.all fun e => !(e.2.st = .transit && e.2.landed && s.site e.2.site = .good && m.pairs.any fun x => x.2 = e.2.site)

/-- The moves of a partition that are over leave the list; with the last one a compaction ends. -/
def State.endMoves (s : State) (p : Nat) : State :=
  (s.modPart p fun x => { x with moving := x.moving.filter fun m => !s.moveOver m }).endCompact p

/-- CASTLING_MOVE: the images of a ring, or of the sites of a compaction, go to their new sites, and the slot tables
with them (R319, R363). -/
def execCastlingMove (part ring : Nat) (s : State) : Res :=
  .next (match (s.part part).moving[ring]? with
    | none => s
    | some m =>
      if m.gone || !s.moveReady m then s
      else
        let s := s.dropImages m part
        let here (k : Nat) : Bool := m.pairs.any fun e => e.1 = siteOf k
        let mine := s.groups.filter fun e => here e.1
        let s : State := { s with
          groups := mine.foldl (fun g e => smSet {} g (m.key e.1) e.2) (s.groups.filter fun e => !here e.1),
          teams := s.teams.map fun e =>
            if e.2.st = .transit && !e.2.landed then
              (e.1, match m.pairs.find? fun x => x.1 = e.2.site with
                    | some x => { e.2 with site := x.2, landed := true, landAt := s.landTime m e.1 }
                    | none => e.2)
            else e }
        let s := s.modPart part fun p => { p with moving := p.moving.zipIdx.map fun x => if x.2 = ring then { x.1 with gone := true } else x.1 }
        s.endMoves part)

/-- CASTLING_RESUME: when the last byte of a team's image has landed its remap entries name the new place, and 16 FCLK later the team
goes on there, each group in the core and slot number that it left (R319). -/
def execCastlingResume (team : Nat) (s : State) : Res :=
  .next (
    let t := s.team team
    match t.image with
    | none => s
    | some im =>
      let ks := im.groups.map fun e => (64 * t.site + 16 * e.1 + e.2.1, e.2.2)
      if t.st = .transit && t.landed && !t.down && t.landAt.toNat ≤ s.time.toNat then
        (s.modTeam team fun t => { t with down := true }).setRemap team 1 t.site (BitVec.ofNat 64 t.wbase)
      else if t.st != .transit || !t.down || s.time.toNat < t.landAt.toNat + 16 || s.site t.site != .good || !(ks.all fun e => (s.grp e.1).st = .free) || !s.roomFor im ks t.site then s
      else (s.placeTeam team im ks).endMoves (s.ctx t.ctx).part)

/-! ### Restore (R317) -/

/-- The slots for the groups of an image on a bind set: each takes the record of its number, a spawned group a spawn
record of the tile (R81, R317); none where the spawn records do not suffice. -/
def State.mapSlots (s : State) (c kn : Nat) (slots : List Nat) (gs : List Group) : Option (List (Nat × Group)) :=
  let site := siteOf (slots.headD 0)
  let spawn := (List.range 4).flatMap fun i => s.spawnSlots (4 * site + i) c kn
  gs.foldl (fun (r : Option (List (Nat × Group))) g =>
    match r with
    | none => none
    | some l =>
      let own := if g.bind.spawn then none else slots.find? fun k => (s.grp k).bind.group = g.gid
      let fresh := spawn.find? fun k => l.all (fun e => e.1 != k) && (l.countP fun e => coreOf e.1 = coreOf k) < 8
      match own.or fresh with
      | some k => some (l ++ [(k, g)])
      | none => none) (some [])

/-- TEAM_RESTORE: the saved team with the lowest stamp takes the next free bind set of its kernel and node; its window, groups,
accumulators and barrier words are as the save area holds them, and its image slot is free (R317). A bad header sends the context to faulted. -/
def execTeamRestore (ctx slot : Nat) (s : State) : Res :=
  .next (
    let saved := (s.teamsOf ctx).filterMap fun e => if e.2.st = .saved then e.2.image.map fun im => (e.1, e.2, im) else none
    match saved.find? fun e => e.2.2.slot = slot with
    | none => s
    | some (tk, t, im) =>
      let x := s.ctx ctx
      let open_ : Bool := x.st = .runnable || x.st = .running || x.st = .castling
      if !open_ || saved.any (fun e => e.2.2.order < im.order) then s
      else if !(s.headerOk ctx slot).2 then (s.headerOk ctx slot).1.sendFault ctx
      else
        match s.freeSet ctx t.kern t.node none with
        | none => s
        | some (n, slots, base) =>
          match s.mapSlots ctx t.kern slots (im.groups.map fun e => e.2.2) with
          | none => s
          | some ks =>
            let site := siteOf (slots.headD 0)
            if !s.roomFor im ks site then s
            else
              let (s, w, wp) := (s.headerOk ctx slot).1.readSavedWindow ctx slot t.wsize
              let (s, gs) := s.readGroups ctx slot ks
              let (s, as) := s.readAccs ctx slot im.accs
              let (s, bars) := s.readBars ctx slot
              let s := slots.foldl State.leaveSlot (s.writeDirectory tk im false)
              (s.modTeam tk fun t => { t with site, wbase := base, setNo := n, bars }).placeTeam tk
                { im with window := w, wpoi := wp, accs := as } gs)

end Sys2Proof.Machine
end

