-- ==== Sys2Proof/Machine/CrossLane.lean ====
section
/-!
DEFINITION. The cross-lane instructions (R149 to R155): shuffles of registers and elements, broadcast,
reduction, scan and byte permutation.
-/

namespace Sys2Proof.Machine

/-! ### Shuffles (R150 to R152) -/

/-- The source lane of SHFL for lane `l` and index `b` (R150). -/
def shflLane (mode l b : Nat) : Nat :=
  match mode with
  | 0 => b
  | 1 => l ^^^ b
  | 2 => if l < b then l else l - b
  | _ => if 31 < l + b then l else l + b

/-- The lane of a number below 32. -/
def laneOf (n : Nat) : LaneId := Fin.ofNat 32 n

/-- SHFL: whole registers with their poison. An index is poisoned where byte 0 of the operand is, which holds it (DESIGN CHOICE, log
88); it reads as 0, and the register that it then names is moved with every poison bit set (DEDUCED, log 89). -/
def shflBody (env : Env) (s : State) : Out :=
  let g := s.grp env.k
  vecOut env s fun l =>
    let b := env.srcB g l
    let bad := b.poi.getLsbD 0
    let src := g.rdV env.f.a.toNat (laneOf (shflLane env.f.md.toNat l (if bad then 0 else bits b.val 0 5)))
    if bad then { r := { val := src.val, poi := 0xFF }, cons := 1 } else { r := src }

/-- The selector of destination element `e` in lane `l`, and whether it is poisoned (R151). -/
def shflxSel (env : Env) (g : Group) (l : LaneId) (e : Nat) : Nat × Bool :=
  if env.f.xf = 0 then
    let r := g.rdV (env.f.b.toNat + e / 4) l
    (elem r 16 (e % 4), elemBad r 16 (e % 4))
  else if env.f.xf = 1 then
    let r := g.rdS env.f.b.toNat
    (elem r 16 0, elemBad r 16 0)
  else (bits env.f.imm 0 16, false)

/-- The element of v[A] that a selector names, with its poison; bit 15 gives 0 (R151). An element with a poisoned byte is poisoned
whole, and so is the element it is moved to (R77, R149; DEDUCED, log 90). -/
def shflxGet (env : Env) (g : Group) (w sel : Nat) : Elem :=
  if sel / 2 ^ 15 % 2 = 1 then (0, false)
  else
    let r := g.rdV env.f.a.toNat (laneOf (sel / 16 % 32))
    let i := sel % 16 % (64 / w)
    (elem r w i, elemBad r w i)

/-- SHFLX (R151): a lane reads the selector in s[B] once (R200). A poisoned selector reads as 0, and what it names moves with every
poison bit set (DEDUCED, log 89). -/
def shflxBody (env : Env) (s : State) : Out :=
  let g := s.grp env.k
  let w := shflxWidth env.f.md.toNat
  vecOut env s fun l =>
    let es := (List.range (64 / w)).map fun e =>
      let sel := shflxSel env g l e
      let x := shflxGet env g w (if sel.2 then 0 else sel.1)
      ((x.1, x.2 || sel.2), if sel.2 then 1 else 0)
    { r := packReg w (es.map Prod.fst), cons := if env.f.xf = 1 then min 1 (es.map Prod.snd).sum else (es.map Prod.snd).sum }

/-- BCAST: one selector for every element, which every participant reads (R152, R200); a poisoned one reads as 0 (DEDUCED, log 89). -/
def bcastBody (env : Env) (s : State) : Out :=
  let g := s.grp env.k
  let w := shflxWidth env.f.md.toNat
  let sel := shflxSel env g 0 0
  let x := shflxGet env g w (if sel.2 then 0 else sel.1)
  let r := packReg w (List.replicate (64 / w) (x.1, x.2 || sel.2))
  vecOut env s fun _ => { r, cons := if sel.2 then 1 else 0 }

/-! ### Reductions and scans (R153, R154) -/

/-- The floating format of a type code of R153, none for an integer type. -/
def redFmt (f : Fields) : Option Fmt :=
  match bits f.b 0 3 with
  | 4 => some fp32
  | 5 => some bf16
  | 6 => some fp16
  | 7 => some (if f.md.getLsbD 0 then e5m2 else e4m3)
  | _ => none

/-- Element width of a type code of R153. -/
def redWidth (f : Fields) : Nat :=
  match bits f.b 0 3 with
  | 0 => 32
  | 1 => 16
  | 2 => 8
  | 3 => 64
  | 4 => 32
  | 7 => 8
  | _ => 16

/-- The reduction of integer codes: 0 add, 1 min, 2 max, 3 and, 4 or, 5 xor, with the identities. -/
def foldInt (w op : Nat) (uns : Bool) (xs : List Nat) : Nat :=
  let v (x : Nat) : Int := if uns then x else sext x w
  match op with
  | 0 => xs.sum % 2 ^ w
  | 1 => xs.foldl (fun a x => if v x < v a then x else a) (if uns then 2 ^ w - 1 else 2 ^ (w - 1) - 1)
  | 2 => xs.foldl (fun a x => if v a < v x then x else a) (if uns then 0 else 2 ^ (w - 1))
  | 3 => xs.foldl (fun a x => a &&& x) (2 ^ w - 1)
  | 4 => xs.foldl (fun a x => a ||| x) 0
  | _ => xs.foldl (fun a x => a ^^^ x) 0

/-- The reduction of floating codes: 0 add, 1 min, 2 max, with the identities. A result that is NaN is
canonical. -/
def foldFloat (fm : Fmt) (op rn : Nat) (xs : List Nat) : Nat × BitVec 6 :=
  if op = 0 then
    if xs.isEmpty then (0, 0)
    else if xs.any fm.isNan then (fm.canon, 0)
    else fm.sumRound rn 0 (xs.map fm.val)
  else
    match xs with
    | [] => (fm.signed (op = 2) (if fm.kind = .ieee then fm.infCode else fm.maxCode), 0)
    | x :: r =>
      let y := r.foldl (fm.minmaxNum (op = 2)) x
      (if fm.isNan y then fm.canon else y, 0)

/-- One element position over the elements of participants in ascending order: poison among them
poisons the result, which is then 0 or the canonical NaN (R77). -/
def foldElem (f : Fields) (xs : List Elem) : Elem × BitVec 6 :=
  let op := bits f.b 3 3
  match redFmt f with
  | none =>
    if xs.any Prod.snd then ((0, true), 0)
    else ((foldInt (redWidth f) op (f.md.getLsbD 0) (xs.map Prod.fst), false), 0)
  | some fm =>
    if xs.any Prod.snd then ((fm.canon, true), 0)
    else
      let r := foldFloat fm op f.rn (xs.map Prod.fst)
      ((r.1, false), r.2)

/-- The reduction over the lanes of a mask, register-wide. -/
def foldLanes (env : Env) (g : Group) (m : LaneMask) : LRes :=
  let w := redWidth env.f
  let es := (List.range (64 / w)).map fun i =>
    foldElem env.f ((laneList m).map fun l => let r := env.srcA g l
                                              (elem r w i, elemBad r w i))
  { r := packReg w (es.map Prod.fst), flags := es.foldl (fun a x => a ||| x.2) 0 }

/-- Poisoned elements that a lane contributes. -/
def badElems (w : Nat) (r : Reg) : Nat := (List.range (64 / w)).countP fun i => elemBad r w i

/-- The lanes of a mask up to lane `l`, or below it. -/
def lanesTo (m : LaneMask) (l : LaneId) (excl : Bool) : LaneMask :=
  m &&& BitVec.ofFnLE fun i : Fin 32 => if excl then decide (i < l) else decide (i ≤ l)

/-- RRED: every participant, or s[D], gets the reduction over all participants. -/
def rredBody (env : Env) (s : State) : Out :=
  let g := s.grp env.k
  let w := redWidth env.f
  let t := foldLanes env g env.e
  if env.f.xf = 1 then
    scalOut env s { t with cons := consOf env.e fun l => badElems w (env.srcA g l) }
  else vecOut env s fun l => { t with cons := badElems w (env.srcA g l) }

/-- RSCAN: participant `l` gets the reduction over the participants up to it. -/
def rscanBody (env : Env) (s : State) : Out :=
  let g := s.grp env.k
  let w := redWidth env.f
  vecOut env s fun l =>
    { foldLanes env g (lanesTo env.e l (env.f.xf = 1)) with cons := badElems w (env.srcA g l) }

/-! ### Byte permutation (R155) -/

/-- PERM: bytes of B above A by eight selector bytes; a poisoned selector byte reads as 0 (DEDUCED, log 89). -/
def permBody (env : Env) (s : State) : Out :=
  let g := s.grp env.k
  vecOut env s fun l =>
    let a := env.srcA g l
    let b := env.srcB g l
    let c := env.srcC g l
    let es := (List.range 8).map fun j =>
      let bad := env.f.xf = 0 && elemBad c 8 j
      let sel := if env.f.xf = 0 then (if bad then 0 else c.byte j) else bits env.f.imm (4 * j) 4
      if 128 ≤ sel then ((0, bad), if bad then 1 else 0)
      else
        let i := sel % 16
        let r := if i < 8 then a else b
        ((r.byte (i % 8), elemBad r 8 (i % 8) || bad), if bad then 1 else 0)
    { r := packReg 8 (es.map Prod.fst), cons := (es.map Prod.snd).sum }

/-! ### The meanings -/

/-- SHFL (R150). -/
def execShfl (f : Fields) (s : State) : Res := .next (issueWith 0x54 f s shflBody)
/-- SHFLX (R151). -/
def execShflx (f : Fields) (s : State) : Res := .next (issueWith 0x54 f s shflxBody)
/-- BCAST (R152). -/
def execBcast (f : Fields) (s : State) : Res := .next (issueSync 0x54 f s bcastBody)
/-- RSCAN (R154). -/
def execRscan (f : Fields) (s : State) : Res := .next (issueSync 0x55 f s rscanBody)
/-- RRED (R154). -/
def execRred (f : Fields) (s : State) : Res := .next (issueSync 0x56 f s rredBody)
/-- PERM (R155). -/
def execPerm (f : Fields) (s : State) : Res := .next (issueWith 0x57 f s permBody)

end Sys2Proof.Machine
end

