-- ==== Sys2Proof/Machine/Link.lean ====
section
/-!
DEFINITION. The mesh and the ports (R11 to R13, R330 to R333, R343, R345, R348, R352 to R354, R359): flits, site
failures, repairs, port states and their control words, timeouts.
-/

namespace Sys2Proof.Machine

/-! ### Routers (R330, R331, R333) -/

/-- What a lost flit belonged to: an access waits for its error, a copy or message ends with CODE 6, and of a multicast whose source has
been read the share of its receiver does not land (R333). -/
def State.loseFlit (s : State) (x : Flit) : State :=
  match s.copy? x.op with
  | some c =>
    let s := s.batchErr c 6
    s.modCopy c.id fun c =>
      if c.kind = .message then { c with sent := true, recv := c.recv.map fun r => { r with done := true } }
      else if c.kind = .multicast && c.doneEl.length = c.total then
        { c with recv := c.recv.zipIdx.map fun r => if r.2 = x.lane then { r.1 with done := true } else r.1 }
      else if x.lane < c.total && !c.doneEl.contains x.lane then { c with doneEl := x.lane :: c.doneEl }
      else c
  | none =>
    s.onLane x.op x.lane fun o l =>
      if l.phase = .waiting || l.phase = .performed then s.modLane o.id l.lane fun l => { l with phase := .lost } else s

/-- A flit is dropped for want of a permission: counted and logged (R331). -/
def State.dropTagged (s : State) (x : Flit) : State :=
  ((s.tagDrop x.tag).modRouter x.site fun r => { r with log := ((x.tag, x.src, x.chan) :: r.log).take 16 }).loseFlit x

/-- A flit is dropped at a link that is down (R333). -/
def State.dropRouted (s : State) (x : Flit) : State := (s.routeDrop x.tag).loseFlit x

/-- Whether a flit that stands at a router is ready to leave by a link. -/
def State.flitReady (s : State) (t l : Nat) (x : Flit) : Bool := x.site = t && (s.flitLink x).1 = some l && !x.stall

/-- The channel that an output takes of those that are ready: the next in channel order after the one it sent last (R330). -/
def State.flitTurn (s : State) (t l : Nat) (ready : List Flit) : Option Nat :=
  let after := smGet 3 (s.router t).rr l + 1
  ((List.range 4).map fun i => (after + i) % 4).find? fun c => ready.any fun x => x.chan = c

/-- Whether a flit of one channel from one source to one destination on one path goes before another that came after it (R330). -/
def sameWay (x y : Flit) : Bool :=
  x.tag = y.tag && x.chan = y.chan && x.src = y.src && x.dst = y.dst && x.site = y.site && x.inLink = y.inLink && x.path = y.path

/-- FLIT_ARRIVAL: a flit arrives at a router and is delivered, forwarded or dropped; one whose channel the next router stalls, or whose
output sends another flit first, stays (R330 to R333, R337). An output sends one flit a FCLK (R15). Traffic of the MGX, tag 255, may use
every link. -/
def execFlitArrival (flit : Flit) (s : State) : Res :=
  .next (
    let r := s.router flit.site
    let may (l : Nat) : Bool := flit.tag = 255 || (smGet [] r.links flit.tag).contains l
    let same (y : Flit) : Bool := { y with stall := flit.stall } = flit
    let s' := { s with flits := s.flits.filter fun y => !same y }
    let stay : State := if s.flits.any same then { s with flits := s.flits.map fun y => if same y then flit else y }
      else { s with flits := s.flits ++ [flit] }
    if 128 ≤ flit.tag && flit.tag != 255 then s
    else if flit.inLink < 4 && !may flit.inLink then s'.dropTagged flit
    else
      match s.flitLink flit with
      | (none, _) => s'
      | (some l, path) =>
        if !may l then s'.dropTagged flit
        else if r.down.contains l then s'.dropRouted flit
        else if flit.stall || smGet 0 r.sent l = s.time.toNat + 1 || (stay.flits.find? fun y => sameWay y flit) != some flit
            || s.flitTurn flit.site l (stay.flits.filter (s.flitReady flit.site l)) != some flit.chan then stay
        else
          let s := s'.modRouter flit.site fun r => { r with rr := smSet 3 r.rr l flit.chan, sent := smSet 0 r.sent l (s.time.toNat + 1) }
          { s with flits := s.flits ++ [{ flit with site := stepLink flit.site l, inLink := (l + 2) % 4, path }] })

/-! ### Ports (R353, R354) -/

/-- Lanes in service of a port at full width. -/
def fullWidth (port : Nat) : Nat := if port < 144 then 2 else 16

/-- A port goes down (R353). -/
def Port.goDown (p : Port) : Port := { p with st := .down, retrain := false, width := 0, xoff := [], fails := [] }

/-- Whether a request in flight went out through a port. -/
def State.viaPort (s : State) (n : Nat) (o : Op) (x : LaneOp) : Bool :=
  if x.tgt = 1 then (s.part o.part).port = n else x.tgt = 2 && x.port = n

/-- Whether a request of the host is outstanding on its port: it has been sent, or nothing but its answer keeps it waiting (R352). -/
def State.hostAsks (s : State) (o : Op) (x : LaneOp) : Bool :=
  x.tgt = 1 && o.rel.isNone && (x.phase = .sent
    || (x.phase = .waiting && o.kind.space = .global && o.kind != .flush && s.laneClear o x && s.portTurn o x
        && !(x.l1 && (o.kind = .st || s.l1Hit o x))))

/-- Every request outstanding on a port completes as an error, a message with CODE 6 (R201, R252, R352, R353). -/
def State.failPort (s : State) (n : Nat) : State :=
  let s := s.ops.foldl (fun s o => o.lanes.foldl (fun s x =>
    if (x.phase = .sent || s.hostAsks o x) && s.viaPort n o x then (s.leave o x).laneError o x.lane else s) s) s
  s.copies.foldl (fun s c =>
    if c.remote.isSome && c.sent && (c.recv.any fun r => !r.done) && c.port = n then
      ((s.copyHostErr c).modCopy c.id fun c => { c with recv := c.recv.map fun r => { r with done := true } }).copyDone c
    else s) s

/-- A port is isolated where its state admits it. -/
def State.isolate (s : State) (n : Nat) : State :=
  let st := (s.port n).st
  if st = .up || st = .degraded || st = .frozen then
    (s.modPort n fun p => { p with st := .isolated, retrain := false }).failPort n
  else s

/-- A port freezes where its state admits it. -/
def State.freeze (s : State) (n : Nat) : State :=
  s.modPort n fun p => if p.st = .up || p.st = .degraded then { p with st := .frozen, before := p.st, retrain := false } else p

/-- The enable bit (R354). -/
def Port.setEn (p : Port) (on : Bool) : Port := if on then { p with en := true } else { p.goDown with en := false }

/-- RETRAIN: training from down, where EN is 1, or from isolated; a degraded port trains in service (R353, R354). -/
def Port.train (p : Port) (now : Word) : Port :=
  match p.st with
  | .down => if p.en then { p with st := .training, since := now } else p
  | .isolated => { p with st := .training, since := now }
  | .degraded => { p with retrain := true, since := now }
  | _ => p

/-- UNFREEZE (R354). -/
def Port.thaw (p : Port) : Port := if p.st = .frozen then { p with st := p.before, fails := [] } else p

/-- Whether a site that serves a port is no hole (R343, R353). -/
def State.portServed (s : State) (n : Nat) : Bool := (if n < 144 then [etselSite n] else hostSites n).any fun t => s.site t != .hole

/-- A port that no site serves stays down (R353). -/
def State.modServed (s : State) (n : Nat) (f : Port → Port) : State := s.modPort n fun p => if s.portServed n then f p else p

/-- LOSS_OF_SIGNAL (R353). -/
def execLossOfSignal (port : Nat) (s : State) : Res :=
  .next (s.modPort port fun p =>
    if p.st = .training || p.st = .up || p.st = .degraded || p.st = .frozen then p.goDown else p)

/-- LANE_FAILURE: a lane fails; with the last one the port is down (R353). A host port runs x16 or x8 (R349). -/
def execLaneFailure (port : Nat) (s : State) : Res :=
  .next (s.modPort port fun p =>
    if p.st = .up || p.st = .degraded then
      let w := if port < 144 then p.width - 1 else if 8 < p.width then 8 else 0
      if w = 0 then p.goDown else { p with st := .degraded, width := w }
    else p)

/-- What training can come to: an Etsel port of one or two lanes with a round trip of at most 2,048 flits (R345), a host port x16 or x8 as
PCI Express at 32, 64 or 128 GT/s or as CXL at 64 GT/s (R349). -/
def trained (port width : Nat) (x : Trained) : Bool :=
  if port < 144 then (width = 1 || width = 2) && x.trip ≤ 2048
  else (width = 8 || width = 16) && (x.speed = 64 || (!x.cxl && (x.speed = 32 || x.speed = 128)))

/-- Whether that is full width and the top speed of the port's protocol (R349, R353). -/
def topTrained (port width : Nat) (x : Trained) : Bool := width = fullWidth port && (port < 144 || x.cxl || x.speed = 128)

/-- TRAINING_COMPLETE: full width and speed bring up, less degraded; where nothing that a port can run comes of it, or it comes after the
100 ms or where no site serves the port any more, the port is down (R345, R349, R353). -/
def execTrainingComplete (port width : Nat) (full : Bool) (found : Trained) (s : State) : Res :=
  .next (s.modPort port fun p =>
    let q : Port := { p with width, trip := found.trip, cxl := found.cxl, speed := found.speed }
    let top := full && topTrained port width found
    if p.st = .training then
      if !trained port width found || !s.portServed port || p.since.toNat + 100000 * fclkPerUs ≤ s.time.toNat then p.goDown
      else { q with st := if top then .up else .degraded }
    else if p.st = .degraded && p.retrain then
      if top && trained port width found then { q with st := .up, retrain := false } else { p with retrain := false }
    else p)

/-- TRAINING_TIMEOUT: no success within 100 ms (R353). -/
def execTrainingTimeout (port : Nat) (s : State) : Res :=
  .next (s.modPort port fun p =>
    if p.st = .training && p.since.toNat + 100000 * fclkPerUs ≤ s.time.toNat then p.goDown else p)

/-- PORT_ISOLATE (R353). -/
def execPortIsolate (port : Nat) (s : State) : Res := .next (s.isolate port)
/-- PORT_FREEZE (R353). -/
def execPortFreeze (port : Nat) (s : State) : Res := .next (s.freeze port)
/-- EN (R354). -/
def execEn (port : Nat) (on : Bool) (s : State) : Res := .next (s.modPort port fun p => p.setEn on)
/-- RETRAIN (R354). -/
def execRetrain (port : Nat) (s : State) : Res := .next (s.modServed port fun p => p.train s.time)
/-- UNFREEZE (R354). -/
def execUnfreeze (port : Nat) (s : State) : Res := .next (s.modPort port Port.thaw)

/-- A write of a port's control word at a time; `served` that a site serves the port (R353, R354). -/
def Port.control (p : Port) (value now : Word) (served : Bool) : Port :=
  let p := { p.setEn (value.getLsbD 0) with cto := value.extractLsb' 16 16 }
  let p := if value.getLsbD 2 then p.thaw else p
  if value.getLsbD 1 && served then p.train now else p

/-- PORT_CTL: a port's control word is written (R354). -/
def execPortCtl (port : Nat) (value : Word) (s : State) : Res :=
  roith 0x30 [port, value.toNat] s fun s =>
    if 152 ≤ port then cmdNo s 1
    else
      cmdOk (s.modPort port fun p => p.control value s.time (s.portServed port))

/-- XOFF: a virtual lane of a port starts no new packet (R345). -/
def execXoff (port vl : Nat) (s : State) : Res :=
  .next (if s.portUp port && vl < 4 then s.modPort port fun p => { p with xoff := if p.xoff.contains vl then p.xoff else vl :: p.xoff } else s)

/-- XON (R345). -/
def execXon (port vl : Nat) (s : State) : Res :=
  .next (if s.portUp port then s.modPort port fun p => { p with xoff := p.xoff.filter (· != vl) } else s)

/-- FLIT_CRC_FAILURE: the flit and those after it are sent again; no packet is delivered twice (R344). -/
def execFlitCrcFailure (port : Nat) (s : State) : Res :=
  .next (if port < 144 && s.portUp port then s.modPort port fun p => { p with replay := p.replay + 1 } else s)

/-! ### Timeouts (R348, R352) -/

/-- COMPLETION_TIMEOUT: a remote access or message without a response within the timeout of the port that it left by fails (R201, R348). -/
def execCompletionTimeout (id lane : Nat) (s : State) : Res :=
  .next (match s.copy? id with
    | some c =>
      (match c.remote with
        | some _ =>
          if c.sent && (c.recv.any fun r => !r.done) && c.time.toNat + (s.port c.port).timeout ≤ s.time.toNat then
            ((s.copyHostErr c).modCopy c.id fun c => { c with recv := c.recv.map fun r => { r with done := true } }).copyDone c
          else s
        | none => s)
    | none =>
      s.onLane id lane fun o x =>
        if x.tgt = 2 && x.phase = .sent && x.seq.toNat + (s.port x.port).timeout ≤ s.time.toNat then s.laneError o lane else s)

/-- Whether a request of a function has been outstanding on its host port for the completion timeout. -/
def State.hostLate (s : State) (port vf : Nat) : Bool :=
  s.ops.any fun o => o.part = vf && o.lanes.any fun x =>
    s.hostAsks o x && (s.part o.part).port = port
      && max o.time.toNat x.seq.toNat + (s.port port).timeout ≤ s.time.toNat

/-- HOST_COMPLETION_TIMEOUT: the port is isolated, every request outstanding on it ends as an error, the function is
frozen and its context enters faulted (R352). -/
def execHostCompletionTimeout (port vf : Nat) (s : State) : Res :=
  .next (
    if port < 144 || !s.hostLate port vf || !(s.portUp port || (s.port port).st = .frozen) then s
    else
      let s := (s.isolate port).modVf vf fun v => { v with frozen := true }
      match (s.vf vf).ctx with
      | some c => s.sendFault c
      | none => s)

/-- FUNCTION_LEVEL_RESET (R352). -/
def execFunctionLevelReset (vf : Nat) (s : State) : Res := .next (s.modVf vf fun v => { v with frozen := false })

/-! ### Site failures and repairs (R11 to R13, R333, R343, R359, R374) -/

/-- The neighbours of a site with the link that leads from each of them to it. -/
def neighbours (t : Nat) : List (Nat × Nat) :=
  (if siteY t < 95 then [(t + 48, 2)] else []) ++ (if siteX t < 47 then [(t + 1, 3)] else [])
    ++ (if 0 < siteY t then [(t - 48, 0)] else []) ++ (if 0 < siteX t then [(t - 1, 1)] else [])

/-- The neighbours of a hole mark their links to it down. -/
def State.linksDown (s : State) (t : Nat) : State :=
  (neighbours t).foldl (fun s e => s.modRouter e.1 fun r => { r with down := if r.down.contains e.2 then r.down else e.2 :: r.down }) s

/-- Ports whose serving sites are all holes go down (R343). -/
def State.portsDown (s : State) (t : Nat) : State :=
  (List.range 152).foldl (fun s n =>
    let ts := if n < 144 then [etselSite n] else hostSites n
    if ts.contains t && ts.all fun x => s.site x = .hole then s.modPort n Port.goDown else s) s

/-- The spare that replaces a site: of its field, the nearest, the lower number first (R13); none where its field has no spare left,
though other fields have (DESIGN CHOICE, log 83). -/
def State.spareFor (s : State) (t : Nat) : Option Nat :=
  ((fieldSites (fieldOf t)).filter fun x => s.site x = .spare).foldl (fun (b : Option Nat) x =>
    match b with
    | none => some x
    | some y => if dist x t < dist y t || (dist x t = dist y t && x < y) then some x else some y) none

/-- A wafer-record entry after a change of state. -/
def State.amended (s : State) (t n : Nat) : Nat × WaferEntry := (t, { s.flash.entry t with state := n })

/-- Moves of a partition that touch a failed site: teams that have not left stay where they stand. -/
def RingMove.without (m : RingMove) (t : Nat) : RingMove :=
  if m.gone || !(m.pairs.any fun e => e.1 = t || e.2 = t) then m
  else { m with pairs := (m.pairs.filter fun e => e.1 != t).map fun e => (e.1, e.1) }

/-- What remains of a tile whose site has failed: its power block in the MGX (R382). -/
def Tile.powerBlock (x : Tile) : Tile := { x with tlb := [], walks := [], range := [], remap := [], occ := [] }

/-- The work of a failed member site is lost: its groups leave their slots, its copies end, and so does the image of a team that stood
there, was on its way there or, where the site became a hole, through it; the contexts with a team on it or in transit through it fault,
and an export fails, with which its partition goes back to active; a growth is undone, with status 4 (R359). What a PART_QUIESCE has quiesced without an export stays so: R358 and
R359 name no return for it (DEDUCED, log 111; log 30). The site's power block stays in the MGX (R382). -/
def State.siteLost (s : State) (p t : Nat) : State :=
  let here (x : Team) : Bool := x.present && x.st != .saved && x.site = t
  let through (x : Team) : Bool := x.st = .transit && x.landed && !x.down
    && x.image.any fun im => (leg (siteX im.site, siteY im.site) (siteX x.site, siteY x.site)).any fun q => siteAt q.1 q.2 = t
  let gone (x : Team) : Bool := x.st = .transit && (here x || (through x && s.site t = .hole))
  let hit := (s.teams.filter fun e => here e.2 || through e.2).map fun e => e.2.ctx
  let dead := (s.copies.filter fun c => c.site = t).map fun c => c.id
  let s : State := { s with
    teams := s.teams.map fun e => if gone e.2 then (e.1, { e.2 with st := .resident, image := none, slots := [] }) else e
    copies := s.copies.filter fun c => c.site != t
    groups := s.groups.filter fun e => siteOf e.1 != t,
    ops := s.ops.filter fun o => 2 ^ 40 ≤ o.k || siteOf o.k != t,
    cores := s.cores.filter fun e => e.1 / 4 != t,
    tiles := s.tiles.map fun e => (e.1, { (if e.1 = t then e.2.powerBlock else e.2) with
      range := if e.1 = t then [] else e.2.range.filter fun r => !(r.copy.any dead.contains) }) }
  let out := (s.part p).st
  let s := s.modPart p fun x => { x with
    sites := x.sites.filter (· != t), moving := x.moving.map (fun m => m.without t), gen := x.gen + 1 }
  let s := if out = .growing then (s.modPart p fun x => { x with st := .active, planFrom := s.time, grow := none }).exportEnd p 2 4 0 else s
  let s := if out = .precopying || ((out = .quiescing || out = .migratingOut) && (s.part p).exporting) then (s.exportEnd p 7 4 0).unquiesce p
    else s
  let s := s.modVf p fun v => { v with tdisp := if v.tdisp = .locked || v.tdisp = .run then .error else v.tdisp }
  hit.eraseDups.foldl (fun s c => (s.ctxSettle c).mustFault c) s.trimRemap

/-- Amendments that Roith writes to the wafer record, one for each change; they amend the record as it was applied, so that those behind a
failed one are overwritten (R373, R374; DESIGN CHOICE, log 52). -/
def Flash.amend (f : Flash) (es : List (Nat × WaferEntry)) : Flash :=
  let good := ((f.amendments.zip f.amendOk).takeWhile fun a => a.2).map Prod.fst
  { f with amendments := good ++ es.map fun e => [e], amendOk := List.replicate (good.length + es.length) true }

/-- A site is mapped out, or becomes a hole, a spare is promoted, and the wafer record is amended for each of the two (R11, R13, R333,
R374). -/
def State.mapOut (s : State) (site : Nat) (routerOk : Bool) : State :=
  let spare := s.spareFor site
  let am := s.amended site (if routerOk then 2 else 3) :: (spare.toList.map fun x => s.amended x 0)
  let s : State := { s with
    sites := smSet .good s.sites site (if routerOk then .mappedOut else .hole),
    flash := s.flash.amend am }
  let s : State := match spare with | some x => { s with sites := smSet .good s.sites x .good } | none => s
  if routerOk then s else (s.linksDown site).portsDown site

/-- SITE_FAILURE: a good site fails in service (R13, R359). -/
def execSiteFailure (site : Nat) (routerOk : Bool) (s : State) : Res :=
  .next (
    if s.site site != .good || !s.booted || 4608 ≤ site then s
    else
      let s := s.mapOut site routerOk
      match s.parts.find? fun e => e.2.sites.contains site || e.2.grow.any fun g => g.sites.contains site with
      | some e => s.siteLost e.1 site
      | none => s)

/-- Installs numbered routes (R334). -/
def State.setRoutes (s : State) (p : Nat) (rs : List Route) : State :=
  s.modPart p fun x => { x with routes := rs.foldl (fun m r => smSet none m r.num (some r)) x.routes }

/-- The neighbours that a route table joins at a site, over its permitted links and through pass-throughs. -/
def joined (tb : List RouterEntry) (t : Nat) : List (Nat × Nat) :=
  match tb.find? fun e => e.site = t with
  | some e => e.links.map fun l => (l, stepLink t l)
  | none => []

/-- The output link that a table gives a flit at a site. -/
def tableLink (tb : List RouterEntry) (t d : Nat) : Option Nat :=
  if t = d then none
  else
    match (tb.find? fun e => e.site = t).bind fun e => e.detours.find? fun x => x.1 = d with
    | some x => some x.2
    | none =>
      if siteX t < siteX d then some 1 else if siteX d < siteX t then some 3
      else if siteY t < siteY d then some 0 else some 2

/-- Whether a link leads to a neighbour; the others of an edge site lead to its port (R343). -/
def inMesh (t l : Nat) : Bool := (neighbours t).any fun n => n.1 = stepLink t l && n.2 = (l + 2) % 4

/-- The sites on the path that a table gives from one site to another, at most `fuel` links; none where it meets a link
without permission. -/
def tablePath (tb : List RouterEntry) (d : Nat) : Nat → Nat → Option (List Nat)
  | 0, _ => none
  | fuel + 1, t =>
    match tableLink tb t d with
    | none => some [t]
    | some l =>
      if !inMesh t l || !((joined tb t).any fun x => x.1 = l) || !((joined tb (stepLink t l)).any fun x => x.1 = (l + 2) % 4) then none
      else (tablePath tb d fuel (stepLink t l)).map (t :: ·)

/-- The dependencies between channels that a path makes: each pair of links taken one after the other, a link as 4
times its site plus its number. -/
def pathDeps (tb : List RouterEntry) (d : Nat) (p : List Nat) : List (Nat × Nat) :=
  let ls := p.filterMap fun t => (tableLink tb t d).map fun l => 4 * t + l
  ls.zip (ls.drop 1)

/-- Removes, `fuel` times, the dependencies on a channel that depends on nothing; what is left lies on a cycle. -/
def shed : Nat → List (Nat × Nat) → List (Nat × Nat)
  | 0, l => l
  | fuel + 1, l => shed fuel (l.filter fun e => l.any fun x => x.1 = e.2)

/-- Whether a table serves a site set: every pair is joined by a path that stays on members and pass-throughs, meets no
hole, and no cycle of channel dependencies forms (R332, R355). -/
def State.tableOk (s : State) (sites : List Nat) (tb : List RouterEntry) : Bool :=
  let inside (t : Nat) : Bool := sites.contains t || s.site t = .spare || s.site t = .mappedOut
  let paths := sites.flatMap fun a => sites.map fun b => (b, tablePath tb b maxHops a)
  let deps := (paths.flatMap fun x => match x.2 with | some p => pathDeps tb x.1 p | none => []).eraseDups
  tb.all (fun e => e.site < 4608 && inside e.site && e.links.all fun l => l < 4)
    && (paths.all fun x => match x.2 with | some p => p.all inside | none => false) && (shed deps.length deps).isEmpty

/-- Whether a castling plan may be installed (R318). -/
def State.castleOk (s : State) (p : Nat) (pl : CastlePlan) : Bool :=
  let x := s.part p
  let all := pl.rings.flatten
  1 ≤ pl.interval && pl.interval ≤ 64 && pl.rings.length ≤ 255 && all.length = all.eraseDups.length
    && pl.rings.all fun r => 2 ≤ r.length && r.length ≤ 8 && r.all (fun t => x.sites.contains t && s.site t = .good)
      && (ringPairs r).all fun e =>
        let a := (siteX e.1, siteY e.1)
        let b := (siteX e.2, siteY e.2)
        (leg a b).all fun q => s.site (siteAt q.1 q.2) != .hole

/-- ROUTE_REPAIR: repaired tables, routes and castling plan of a partition, which avoid the hole (R333). -/
def execRouteRepair (part : Nat) (table : List RouterEntry) (routes : List Route) (plan : CastlePlan) (s : State) : Res :=
  .next (
    if !s.tableOk (s.part part).sites table then s
    else
      let s1 := s.setTable part table
      if !(routes.all fun r => s1.routeOk part r) || !s1.castleOk part plan then s
      else (s1.setRoutes part routes).modPart part fun x => { x with plan, planFrom := s.time })

end Sys2Proof.Machine
end

