-- ==== Sys2Proof/Machine/Etsel.lean ====
section
/-!
DEFINITION. Etsel packets received (R344 to R348): the receive buffers of a port and their credits, requests of peers performed at the
home, responses to the module's own requests, messages, errors.
-/

namespace Sys2Proof.Machine

/-! ### Reception (R344, R346) -/

/-- The lane whose request a response answers; a response after the timeout of its port answers none (R348). -/
def State.asked (s : State) (h : EtselHdr) : Option (Op × LaneOp) :=
  s.ops.findSome? fun o =>
    if o.part != h.dpart then none
    else (o.lanes.find? fun x => x.tgt = 2 && x.phase = .sent && etselTag o.id x.lane = h.tag
      && s.time.toNat < x.seq.toNat + (s.port x.port).timeout).map fun x => (o, x)

/-- The message that a response answers; one after the timeout of its port answers none (R348). -/
def State.messaged (s : State) (h : EtselHdr) : Option Copy :=
  s.copies.find? fun c => c.kind = .message && c.remote.isSome && c.sent && c.part = h.dpart && c.id % 65536 = h.tag
    && s.time.toNat < c.time.toNat + (s.port c.port).timeout && c.recv.any fun r => !r.done

/-- A response goes from its port to the tile that asked: where its way meets a link that is down it is dropped there, and the access waits
for its error (R333). -/
def State.answered (s : State) (port : Nat) (o : Op) (x : LaneOp) (go : State → State) : State :=
  if s.cut o.part (etselSite port) (o.core / 4) then (s.routeDrop o.part).modLane o.id x.lane fun x => { x with phase := .lost } else go s

/-- A message to another module ends. -/
def State.endMessage (s : State) (c : Copy) : State :=
  (s.modCopy c.id fun c => { c with recv := c.recv.map fun r => { r with done := true } }).copyDone c

/-- The request that a packet answers ends in an error (R201, R252). -/
def State.askFailed (s : State) (h : EtselHdr) : State :=
  match s.asked h, s.messaged h with
  | some (o, x), _ => s.answered x.port o x fun s => s.laneError o x.lane
  | none, some c => (s.copyHostErr c).endMessage c
  | none, none => s

/-! ### Receive buffers (R345) -/

/-- Flits of a packet: its header, its data and the trailer with the tag (R344). -/
def Inbound.flits (x : Inbound) : Nat := x.pkt.hdr.ndata + 2

/-- Free flits of a virtual lane's receive buffer of 4,096 flits. -/
def Port.room (p : Port) (vl : Nat) : Nat := 4096 - ((p.rbuf.filter fun x => x.pkt.hdr.vl = vl).map Inbound.flits).sum

/-- FCLK in 1,024 flit times of a port with `width` lanes of 448 Gb/s, for flits of 256 bits: 1,053.3 over the lanes, rounded up (R344,
R345; log 44). -/
def flitTimes1024 (width : Nat) : Nat := if width = 2 then 527 else 1054

/-- XOFF goes out for a lane when its free space has fallen to the round trip and 32 flits, and again every 1,024 flit times while it
persists; XON when the free space has risen to the round trip and 1,056 flits (R345). -/
def State.credit (s : State) (n vl : Nat) : State :=
  let p := s.port n
  let off (s : State) : State :=
    (s.modPort n fun p => { p with told := (vl, s.time.toNat) :: p.told.filter fun e => e.1 != vl }).emit (.credit n vl true)
  match p.told.find? fun e => e.1 = vl with
  | none => if p.room vl ≤ p.trip + 32 then off s else s
  | some e =>
    if p.trip + 1056 ≤ p.room vl then
      (s.modPort n fun p => { p with told := p.told.filter fun e => e.1 != vl }).emit (.credit n vl false)
    else if e.2 + flitTimes1024 p.width ≤ s.time.toNat then off s
    else s

/-- A packet stands in the receive buffer of its lane. -/
def State.buffer (s : State) (op : Nat) (p : Etsel) : State :=
  (({ s with nextId := s.nextId + 1 } : State).modPort p.port fun x => { x with rbuf := x.rbuf ++ [{ id := s.nextId, op, pkt := p }] }).credit
    p.port p.hdr.vl

/-- Whether two packets belong to one message: of one stream with one tag (R344). -/
def sameMessage (p q : Etsel) : Bool := p.hdr.smod = q.hdr.smod && p.hdr.spart = q.hdr.spart && p.hdr.tag = q.hdr.tag

/-- The packets of a message in a port's buffers, from its first to its last; none while the last one is missing. -/
def Port.messageOf (x : Port) (p : Etsel) : Option (List Inbound) :=
  let mine := x.rbuf.filter fun y => y.op = 5 && sameMessage y.pkt p
  (mine.findIdx? fun y => y.pkt.hdr.last).map fun i => mine.take (i + 1)

/-- A packet whose GCM tag fails: it is dropped, the request it answers ends in an error, the stream of the pair closes,
and the sixteenth failure within 1 s freezes the port (R346). Of a message that will not be whole nothing lands. -/
def State.tagFailed (s : State) (p : Etsel) : State :=
  let h := p.hdr
  let s := if h.vl = 1 then s.askFailed h else s
  let s := s.modPart h.dpart fun x => { x with
    closedStreams := if x.closedTo h.smod h.spart then x.closedStreams else (streamKey h.smod h.spart, p.port) :: x.closedStreams }
  let s := s.modPort p.port fun x => { x with
    fails := (s.time :: x.fails).filter fun t => s.time.toNat < t.toNat + 1000000 * fclkPerUs
    rbuf := x.rbuf.filter fun y => y.op != 5 || y.pkt.hdr.smod != h.smod || y.pkt.hdr.spart != h.spart || (x.messageOf y.pkt).isSome }
  let s := s.credit p.port 2
  if 16 ≤ (s.port p.port).fails.length then s.freeze p.port else s

/-- A packet reaches the module: one for another module is dropped, counted and logged, one of a closed stream or with a failed
tag is dropped (R344, R346). A response is handled by `go` at once; a request waits in the receive buffer where that gives none and
behind packets of its lane that wait there, and the packets of a message are collected there (R345). -/
def State.receive (s : State) (op : Nat) (p : Etsel) (go : State → Option State) : State :=
  let h := p.hdr
  if 144 ≤ p.port || !s.portUp p.port then s
  else if h.dmod != s.flash.module then s.modPort p.port fun x => { x with dropped := (h.smod :: x.dropped).take 16, drops := x.drops + 1 }
  else if (s.part h.dpart).closedTo h.smod h.spart then s
  else if !p.tagOk then s.tagFailed p
  else if op = 5 || (op < 3 && (s.port p.port).rbuf.any fun x => x.pkt.hdr.vl = h.vl) then s.buffer op p
  else (go s).getD (s.buffer op p)

/-- The header of the answer to a packet. -/
def State.replyHdr (s : State) (h : EtselHdr) (n : Nat) : EtselHdr :=
  { dmod := h.smod, smod := s.flash.module, dpart := h.spart, spart := h.dpart, vl := 1, tag := h.tag, bytes := n - 1 }

/-- The answer to a packet leaves by its port. -/
def State.reply (s : State) (p : Etsel) (op : Nat) (hdr : EtselHdr) (data : List Byte) (poi : List Bool) : State :=
  s.sendPacket p.hdr.dpart p.port op hdr data poi p.ctx p.grid

/-- Whether a port may start a response: its peer has not sent XOFF for virtual lane 1 (R345). -/
def State.mayReply (s : State) (p : Etsel) : Bool := !(s.port p.port).xoff.contains 1

/-- Answers with an error packet. -/
def State.refuse (s : State) (p : Etsel) : State := s.reply p 6 (s.replyHdr p.hdr 1) [] []

/-- The context that a peer's access is charged to. -/
def State.peerCtx (s : State) (p : Etsel) : Nat :=
  if (s.ctx p.ctx).st != .destroyed && (s.ctx p.ctx).part = p.hdr.dpart then p.ctx else noCtx

/-! ### Requests (R215, R236, R347) -/

/-- The device address that a peer's access reaches: translated by the page table of the partition it names (R347). -/
def State.peerAddr (s : State) (p : Etsel) (a : Acc1) : State × Option Xlate :=
  if (s.part p.hdr.dpart).st = .free then (s, none)
  else
    match s.globalCheck (etselSite p.port) p.hdr.dpart p.hdr.addr a with
    | (s, .ok x) => (s, if leafTgt x.leaf = 0 then some x else none)
    | (s, .error _) => (s, none)

/-- Whether a peer's request that has reached its port is dropped on its way from there to its home, or its answer on the way back, at a
link that is down: the peer then hears nothing (R333). -/
def State.peerCut (s : State) (p : Etsel) (pa : Nat) (back : Bool) : Bool :=
  if back then s.cut p.hdr.dpart (s.homeSite pa) (etselSite p.port) else s.cut p.hdr.dpart (etselSite p.port) (s.homeSite pa)

/-- The answer of a home to a peer leaves by the port that the request came by, or is dropped on its way there (R333). -/
def State.replyFrom (s : State) (pa : Nat) (p : Etsel) (op : Nat) (hdr : EtselHdr) (data : List Byte) (poi : List Bool) : State :=
  if s.peerCut p pa true then s.routeDrop p.hdr.dpart else s.reply p op hdr data poi

/-- A peer reads; the answer carries the data. -/
def State.peerRead (s : State) (p : Etsel) : Option State :=
  if !s.mayReply p then none
  else
    match s.peerAddr p .load with
    | (s, none) => some (s.refuse p)
    | (s, some x) =>
      let pa := s.seqPa p.hdr.dpart (leafRep x.leaf) x.pa
      if s.peerCut p pa false then some (s.routeDrop p.hdr.dpart)
      else
        match s.homeRd p.hdr.dpart (s.peerCtx p) pa (p.hdr.bytes + 1) 0 with
        | (s, some (v, ps)) => some (s.replyFrom pa p 3 (s.replyHdr p.hdr v.length) v ps)
        | (s, none) => some (s.refuse p)

/-- A peer's bytes are written at their home. -/
def State.peerStore (s : State) (p : Etsel) (x : Xlate) (bs : List Byte) (poi : List Bool) : State × Bool :=
  let d := p.hdr.dpart
  let w := wbytes (s.seqPa d (leafRep x.leaf) x.pa) bs poi
  match s.homeWrAll d (s.peerCtx p) w 0 with
  | (s', true) => (s'.orderWr d (leafRep x.leaf) s.nextId none (s.peerCtx p) noCore 0 w, true)
  | (s', false) => (s', false)

/-- A peer writes, and is acknowledged; on a migrating page the packet waits (R203). -/
def State.peerWrite (s : State) (p : Etsel) : Option State :=
  if !s.mayReply p then none
  else
    match s.peerAddr p .store with
    | (s, none) => some (s.refuse p)
    | (s, some x) =>
      let pa := s.seqPa p.hdr.dpart (leafRep x.leaf) x.pa
      if s.peerCut p pa false then some (s.routeDrop p.hdr.dpart)
      else if leafMig x.leaf then none
      else
        match s.peerStore p x (p.data.take (p.hdr.bytes + 1)) p.poi with
        | (s, true) => some (s.replyFrom pa p 4 (s.replyHdr p.hdr 1) [] [])
        | (s, false) => some (s.refuse p)

/-- A peer's atomic with the control word of R215; the answer carries the old value. -/
def State.peerAtomic (s : State) (p : Etsel) : Option State :=
  let op := bits p.hdr.actl 0 4
  let ty := bits p.hdr.actl 4 3
  let n := atomSize ty
  if !s.mayReply p then none
  else if 9 < op || 2 < ty then some (s.refuse p)
  else
    match s.peerAddr p .atom with
    | (s, none) => some (s.refuse p)
    | (s, some x) =>
      let pa := s.seqPa p.hdr.dpart (leafRep x.leaf) x.pa
      if s.peerCut p pa false then some (s.routeDrop p.hdr.dpart)
      else if leafMig x.leaf then none
      else if x.pa % n != 0 then some (s.refuse p)
      else
        match s.homeRd p.hdr.dpart (s.peerCtx p) pa n 0 with
        | (s, none) => some (s.refuse p)
        | (s, some (old, ps)) =>
          let new := atomValue op ty (leNat old) (leNat (p.data.take n)) (leNat ((p.data.drop n).take n))
          let r := s.peerStore p x (leBytes n new) (List.replicate n (ps.any id))
          some (r.1.replyFrom pa p 3 (r.1.replyHdr p.hdr n) old ps)

/-- ETSEL_READ (R344, R347). -/
def execEtselRead (p : Etsel) (s : State) : Res := .next (s.receive 0 p fun s => s.peerRead p)
/-- ETSEL_WRITE (R344, R347). -/
def execEtselWrite (p : Etsel) (s : State) : Res := .next (s.receive 1 p fun s => s.peerWrite p)
/-- ETSEL_ATOMIC (R215, R344). -/
def execEtselAtomic (p : Etsel) (s : State) : Res := .next (s.receive 2 p fun s => s.peerAtomic p)

/-! ### Messages (R255, R339, R340) -/

/-- The bytes that a packet of a message carries, at their offsets in the receiver's window. -/
def xsendBytes (p : Etsel) : List WByte :=
  let off := bits p.hdr.addr 32 23
  let size := 8 * 2 ^ bits p.hdr.actl 4 2
  let ls := laneList p.hdr.mask
  (ls.zip (List.range ls.length)).flatMap fun x =>
    wbytes (off + x.1 * size) ((p.data.drop (x.2 * size)).take size) ((p.poi.drop (x.2 * size)).take size)

/-- The landing of a whole message. -/
def messageLanding (id : Nat) (ps : List Inbound) (p : Etsel) : Landing :=
  landingOf id (packetTeam p) (ps.flatMap fun x => xsendBytes x.pkt) (p.hdr.addr.getLsbD 55) (bits p.hdr.actl 0 4)

/-- A message that has arrived whole goes on to its receiver as a share does (R254, R255): its tile accepts it, it takes its entry, and it
lands, wakes the receiver, makes its arrival and is acknowledged with the CODE of R254 (log 31). One whose way from the port meets a link
that is down is dropped there, and so is such an acknowledgement: its sender hears nothing (R333). -/
def State.peerMessage (s : State) (n : Nat) (ps : List Inbound) (z : Inbound) : State :=
  let x := messageLanding z.id ps z.pkt
  let t := s.team x.team
  let gone (s : State) : State := s.modPort n fun y => { y with rbuf := y.rbuf.filter fun e => !(ps.any fun q => q.id = e.id) }
  let close (s : State) (code : Nat) : State :=
    (if code = 0 && s.cut z.pkt.hdr.dpart t.site (etselSite n) then (gone s).routeDrop z.pkt.hdr.dpart
     else (gone s).reply z.pkt 7 { s.replyHdr z.pkt.hdr 1 with actl := BitVec.ofNat 32 code } [] []).credit n z.pkt.hdr.vl
  if !s.mayReply z.pkt then s
  else if t.present && z.taken.isNone && t.image.isNone && s.cut z.pkt.hdr.dpart (etselSite n) t.site then
    ((gone s).routeDrop z.pkt.hdr.dpart).credit n z.pkt.hdr.vl
  else if (s.ctx t.ctx).part != z.pkt.hdr.dpart then close s 3
  else
    match s.land x with
    | .waits => s
    | .takes =>
      if z.taken.isSome then s.landTake x
      else if 64 ≤ s.accepted t.site then s
      else s.modPort n fun y => { y with rbuf := y.rbuf.map fun e => if e.id = z.id then { e with taken := some t.site } else e }
    | .ends code s => (close s code).trimRemap

/-- ETSEL_XSEND: a packet of a message joins those before it; with the last one the message is whole (R344). -/
def execEtselXsend (p : Etsel) (s : State) : Res := .next (s.receive 5 p fun _ => none)

/-- What a buffered packet does when its turn comes; none while it waits. -/
def State.again (s : State) (x : Inbound) : Option State :=
  if x.op = 0 then s.peerRead x.pkt else if x.op = 1 then s.peerWrite x.pkt else s.peerAtomic x.pkt

/-- The first packet of a lane's receive buffer is tried again; a message goes on when it is whole (R345). -/
def State.drainLane (s : State) (n vl : Nat) : State :=
  match (s.port n).rbuf.find? fun x => x.pkt.hdr.vl = vl with
  | none => s
  | some x =>
    if x.op = 5 then
      match (s.port n).messageOf x.pkt with
      | some ps => (match ps.getLast? with | some z => s.peerMessage n ps z | none => s)
      | none => s
    else
      match s.again x with
      | some s => (s.modPort n fun y => { y with rbuf := y.rbuf.filter fun e => e.id != x.id }).credit n vl
      | none => s

/-- The receive buffers of every port that carries traffic go on. -/
def State.drainPorts (s : State) : State :=
  s.ports.foldl (fun s e => if (e.2.rbuf.isEmpty && e.2.told.isEmpty) || !s.portUp e.1 then s
    else (List.range 4).foldl (fun s vl => (s.drainLane e.1 vl).credit e.1 vl) s) s

/-! ### Responses (R347, R348) -/

/-- ETSEL_READ_DATA: the data of a read or the old value of an atomic of this module; a fill completes the L1 line, or
gives the lane its bytes of it. One whose request has timed out is discarded (R348). -/
def execEtselReadData (p : Etsel) (s : State) : Res :=
  .next (s.receive 3 p fun s =>
    match s.asked p.hdr with
    | none => some s
    | some (o, x) =>
      if o.kind.store then some s
      else some <| s.answered p.port o x fun s =>
      if x.l1 && o.kind.load then
        let key := l1Key o.part x.ea.toNat
        let s := s.l1Make o.core key
        ((s.setL1 o.core key { (s.l1 o.core key).fill p.data p.poi with
          cls := x.cls, use := s.time, tgt := x.tgt, pa := x.pa / 64 * 64, ctx := o.ctx }).modLane o.id x.lane fun x => { x with phase := .waiting })
      else
        let at_ {α : Type} (l : List α) : List α := (if p.data.length = 64 then l.drop (x.ea.toNat % 64) else l).take o.size
        s.laneDone o x.lane (at_ p.data) (at_ p.poi))

/-- ETSEL_WRITE_ACKNOWLEDGEMENT: a write of this module has been performed at its peer. -/
def execEtselWriteAcknowledgement (p : Etsel) (s : State) : Res :=
  .next (s.receive 4 p fun s =>
    match s.asked p.hdr with
    | none => some s
    | some (o, x) => some (if o.kind.load then s else s.answered p.port o x fun s => s.laneDone o x.lane [] []))

/-- ETSEL_ERROR: a request or message of this module ends in an error (R201, R347). -/
def execEtselError (p : Etsel) (s : State) : Res := .next (s.receive 6 p fun s => some (s.askFailed p.hdr))

/-- ETSEL_XSEND_ACKNOWLEDGEMENT: a message of this module has ended at its receiver, with the CODE the packet carries
(R340; log 31). -/
def execEtselXsendAcknowledgement (p : Etsel) (s : State) : Res :=
  .next (s.receive 7 p fun s =>
    match s.messaged p.hdr with
    | none => some s
    | some c =>
      let code := bits p.hdr.actl 0 8
      if s.cut c.part (etselSite p.port) c.site then some ((s.copyCut c).endMessage c)
      else some ((if code = 0 then s else s.batchErr c code).endMessage c))

/-- ETSEL_MANAGEMENT: a management packet is Roith's; it changes nothing that this specification gives. -/
def execEtselManagement (p : Etsel) (s : State) : Res := .next (s.receive 8 p fun s => some s)

end Sys2Proof.Machine
end

