-- ==== Sys2Proof/Machine/Integer.lean ====
section
/-!
DEFINITION. The integer instructions: scalar and lane forms of 0x00 to 0x13 (R107 to R110), the
scalar-only and lane-only instructions (R111, R112), PSETI, PLOP and PMOV (R113 to R115).
-/

namespace Sys2Proof.Machine

/-! ### The element operation (R108) -/

/-- The operands of one element: width, codes and values. -/
structure IArgs where
  w : Nat
  a : Nat
  b : Nat
  c : Nat
  x : Int
  y : Int
  z : Int

/-- An integer operation: the sources it reads and its exact result. -/
structure IOp where
  ra : Bool := true
  rb : Bool := true
  rc : Bool := false
  f  : IArgs → Int

/-- Quotient rounded toward zero; R67 for a divisor of 0. -/
def divTo (x y : Int) : Int := if y = 0 then -1 else x.tdiv y
/-- Remainder with the sign of the dividend; the dividend for a divisor of 0 (R67). -/
def remTo (x y : Int) : Int := if y = 0 then x else x.tmod y
/-- Leading zero bits of `a` within `w`. -/
def clzTo (a w : Nat) : Nat := if a = 0 then w else w - 1 - Nat.log2 a
/-- One bits of `a` within `w`. -/
def popTo (a w : Nat) : Nat := (List.range w).countP fun i => a.testBit i

/-- ADD. -/
def opAdd : IOp := { f := fun t => t.x + t.y }
/-- SUB. -/
def opSub : IOp := { f := fun t => t.x - t.y }
/-- MUL. -/
def opMul : IOp := { f := fun t => t.x * t.y }
/-- MULH. -/
def opMulh : IOp := { f := fun t => (t.x * t.y) / 2 ^ t.w }
/-- DIV. -/
def opDiv : IOp := { f := fun t => divTo t.x t.y }
/-- REM. -/
def opRem : IOp := { f := fun t => remTo t.x t.y }
/-- AND. -/
def opAnd : IOp := { f := fun t => ((t.a &&& t.b : Nat) : Int) }
/-- OR. -/
def opOr : IOp := { f := fun t => ((t.a ||| t.b : Nat) : Int) }
/-- XOR. -/
def opXor : IOp := { f := fun t => ((t.a ^^^ t.b : Nat) : Int) }
/-- SHL; a count above w + 1 gives what w + 1 gives, with SAT and without. -/
def opShl : IOp := { f := fun t => t.x * 2 ^ min t.b (t.w + 1) }
/-- SHR; a count of w or more gives 0. -/
def opShr : IOp := { f := fun t => ((t.a / 2 ^ min t.b t.w : Nat) : Int) }
/-- SAR; a count of w or more gives 0 or -1. -/
def opSar : IOp := { f := fun t => sext t.a t.w / 2 ^ min t.b t.w }
/-- MIN. -/
def opMin : IOp := { f := fun t => min t.x t.y }
/-- MAX. -/
def opMax : IOp := { f := fun t => max t.x t.y }
/-- CLZ. -/
def opClz : IOp := { rb := false, f := fun t => clzTo t.a t.w }
/-- POPC. -/
def opPopc : IOp := { rb := false, f := fun t => popTo t.a t.w }
/-- MOV. -/
def opMov : IOp := { ra := false, f := fun t => t.b }
/-- SANDN. -/
def opAndn : IOp := { f := fun t => ((t.a &&& (2 ^ t.w - 1 - t.b) : Nat) : Int) }
/-- SROT by b[5:0]. -/
def opRot : IOp := { f := fun t => ((t.a * 2 ^ (t.b % 64) + t.a / 2 ^ (64 - t.b % 64) : Nat) : Int) }
/-- SCMP. -/
def opCmp : IOp := { f := fun t => if t.y < t.x then 1 else if t.x = t.y then 0 else -1 }
/-- IMAD. -/
def opMad : IOp := { rc := true, f := fun t => t.x * t.y + t.z }
/-- IABS. -/
def opAbs : IOp := { rb := false, f := fun t => |t.x| }
/-- INEG. -/
def opNeg : IOp := { rb := false, f := fun t => -t.x }
/-- INOT. -/
def opNot : IOp := { rb := false, f := fun t => -1 - t.a }
/-- ISAD. -/
def opSad : IOp := { rc := true, f := fun t => t.z + |t.x - t.y| }
/-- SLEA: the scale by XF and the displacement (R111). -/
def opLea (f : Fields) : IOp :=
  { f := fun t => t.x + t.y * 2 ^ (if f.xf = 0 then 0 else f.xf.toNat + 1) + f.imm.toInt }

/-- One element of R108: signedness, SAT and the element width; an element that reads a poisoned element
is 0 and poisoned (R77, R106). The second part is the number of poisoned elements read. -/
def intElem (op : IOp) (w : Nat) (uns sat : Bool) (ra rb rc : Reg) (i : Nat) : Elem × Nat :=
  let bad := (if op.ra && elemBad ra w i then 1 else 0) + (if op.rb && elemBad rb w i then 1 else 0)
    + (if op.rc && elemBad rc w i then 1 else 0)
  let a := elem ra w i
  let b := elem rb w i
  let c := elem rc w i
  let v (e : Nat) : Int := if uns then e else sext e w
  let t := op.f { w, a, b, c, x := v a, y := v b, z := v c }
  let t := if sat then (if uns then clampTo 0 (2 ^ w - 1) t else clampTo (-2 ^ (w - 1)) (2 ^ (w - 1) - 1) t) else t
  if bad != 0 then ((0, true), bad) else ((wrapTo w t, false), 0)

/-- All elements of one register (R108). -/
def intReg (op : IOp) (w : Nat) (uns sat : Bool) (ra rb rc : Reg) : LRes :=
  let es := (List.range (64 / w)).map fun i => intElem op w uns sat ra rb rc i
  { r := packReg w (es.map Prod.fst), cons := (es.map Prod.snd).sum }

/-- Element width of a lane integer instruction (R33). -/
def intWidth (f : Fields) : Nat := match bits f.md 0 2 with | 0 => 32 | 1 => 16 | 2 => 8 | _ => 64

/-- The scalar form (R108). -/
def scalarInt (op : IOp) (uns : Bool) (env : Env) (s : State) : Out :=
  let g := s.grp env.k
  scalOut env s (intReg op 64 uns env.f.md[2] (env.srcA g 0) (env.srcB g 0) (env.srcC g 0))

/-- The lane form (R108). -/
def laneInt (op : IOp) (uns : Bool) (env : Env) (s : State) : Out :=
  let g := s.grp env.k
  vecOut env s fun l => intReg op (intWidth env.f) uns env.f.md[2] (env.srcA g l) (env.srcB g l) (env.srcC g l)

/-- The scalar or lane form of 0x00 to 0x13, by FN bit 1 (R41). -/
def intForm (op : IOp) (env : Env) (s : State) : Out :=
  if env.f.fn.getLsbD 1 then scalarInt op (env.f.fn.getLsbD 0) env s else laneInt op (env.f.fn.getLsbD 0) env s

/-! ### Field extraction, insertion and selection (R109, R110) -/

/-- The field position and length of a specification within width `w`. -/
def fieldSpec (b : Word) (w : Nat) : Nat × Nat :=
  let pos := bits b 0 6
  (pos, if w ≤ pos then 0 else min (bits b 8 7) (w - pos))

/-- BFX with the specification `b`. -/
def opBfx (b : Word) (uns : Bool) : IOp :=
  { rb := false, f := fun t =>
      let (pos, n) := fieldSpec b t.w
      let f := t.a / 2 ^ pos % 2 ^ n
      if n = 0 then 0 else if uns then f else sext f n }

/-- BFI with the specification `b`. -/
def opBfi (b : Word) : IOp :=
  { rb := false, rc := true, f := fun t =>
      let (pos, n) := fieldSpec b t.w
      ((t.c - t.c / 2 ^ pos % 2 ^ n * 2 ^ pos + t.a % 2 ^ n * 2 ^ pos : Nat) : Int) }

/-- A field operation on one register: a poisoned specification poisons the whole result (R109). -/
def fieldReg (op : Word → IOp) (w : Nat) (uns : Bool) (ra rb rc : Reg) : LRes :=
  let x := intReg (op rb.val) w uns false ra {} rc
  if rb.bad then { r := .poisoned, cons := x.cons + 1 } else x

/-- BFX and BFI in both forms. -/
def fieldForm (op : Word → IOp) (env : Env) (s : State) : Out :=
  let g := s.grp env.k
  if env.f.fn.getLsbD 1 then scalOut env s (fieldReg op 64 false (env.srcA g 0) (env.srcB g 0) (env.srcC g 0))
  else vecOut env s fun l => fieldReg op (intWidth env.f) false (env.srcA g l) (env.srcB g l) (env.srcC g l)

/-- SSEL: reads the condition and the source it chooses (R110). -/
def selScalar (env : Env) (s : State) : Out :=
  let g := s.grp env.k
  let c := env.srcC g 0
  if c.bad then scalOut env s { r := .poisoned, cons := 1 }
  else scalOut env s (intReg opMov 64 true false {} (if c.val != 0 then env.srcA g 0 else env.srcB g 0) {})

/-- ISEL: the lane's predicate C chooses the whole of A or of B (R110). -/
def selLane (env : Env) (s : State) : Out :=
  let g := s.grp env.k
  let p := g.rdP env.f.c.toNat
  vecOut env s fun l =>
    intReg opMov (intWidth env.f) true false {} (if p.getLsbD l then env.srcA g l else env.srcB g l) {}

/-! ### IDOT4 (R112) -/

/-- Element `j` of IDOT4: the four byte products and the addend. -/
def dotElem (sa sb : Bool) (ra rb rc : Reg) (j : Nat) : Elem × Nat :=
  let v (sg : Bool) (e : Nat) : Int := if sg then sext e 8 else e
  let ks := (List.range 4).map fun k => 4 * j + k
  let bad := (ks.countP fun k => elemBad ra 8 k) + (ks.countP fun k => elemBad rb 8 k)
    + (if elemBad rc 32 j then 1 else 0)
  let t := sext (elem rc 32 j) 32 + (ks.map fun k => v sa (elem ra 8 k) * v sb (elem rb 8 k)).sum
  if bad != 0 then ((0, true), bad) else ((wrapTo 32 t, false), 0)

/-- IDOT4: .0 signed, .1 unsigned, .2 signed by unsigned. -/
def dotBody (env : Env) (s : State) : Out :=
  let g := s.grp env.k
  let sa : Bool := env.f.fn != 1
  let sb : Bool := env.f.fn = 0
  vecOut env s fun l =>
    let es := (List.range 2).map fun j => dotElem sa sb (env.srcA g l) (env.srcB g l) (env.srcC g l) j
    { r := packReg 32 (es.map Prod.fst), cons := (es.map Prod.snd).sum }

/-! ### Predicates (R113 to R115) -/

/-- A comparison by condition code: 0 eq, 1 ne, 2 lt, 3 le, 4 gt, 5 ge. -/
def condHolds (c : Nat) (x y : Int) : Bool :=
  match c with
  | 0 => x = y
  | 1 => x != y
  | 2 => x < y
  | 3 => x ≤ y
  | 4 => y < x
  | _ => y ≤ x

/-- PSETI: compares bits [31:0] or [63:0]; a poisoned element gives false (R106, R113). -/
def psetiBody (env : Env) (s : State) : Out :=
  let g := s.grp env.k
  let w := if env.f.md.getLsbD 0 then 64 else 32
  let v (e : Nat) : Int := if env.f.fn.getLsbD 0 then e else sext e w
  predOut env s fun l =>
    let a := env.srcA g l
    let b := env.srcB g l
    let bad := (if elemBad a w 0 then 1 else 0) + (if elemBad b w 0 then 1 else 0)
    (bad = 0 && condHolds env.f.rn (v (elem a w 0)) (v (elem b w 0)), bad, 0)

/-- PLOP: the truth table in MOD (R114). -/
def plopBody (env : Env) (s : State) : Out :=
  let g := s.grp env.k
  predOut env s fun l =>
    let a := (g.rdP env.f.a.toNat).getLsbD l
    let b := (g.rdP env.f.b.toNat).getLsbD l
    (env.f.md.getLsbD ((if a then 2 else 0) + (if b then 1 else 0)), 0, 0)

/-- PMOV.1: a predicate is copied (R115). -/
def pmovBody (env : Env) (s : State) : Out :=
  let p := (s.grp env.k).rdP env.f.b.toNat
  predOut env s fun l => (p.getLsbD l, 0, 0)

/-- PMOV.2: bit sr.laneid of s[B] or of the literal; a poisoned source gives false in every lane (R106, log 77). -/
def pmovMaskBody (env : Env) (s : State) : Out :=
  let b := env.srcB (s.grp env.k) 0
  predOut env s fun l => (!b.bad && b.val.getLsbD l, if b.bad then 1 else 0, 0)

/-! ### The meanings, by opcode (R41, R42) -/

/-- SADD (R108). -/
def execSadd (f : Fields) (s : State) : Res := .next (issueWith 0x00 f s (intForm opAdd))
/-- SADD (R108), extended or literal form. -/
def execSaddExt (f : Fields) (s : State) : Res := .next (issueWith 0x00 f s (intForm opAdd))
/-- IADD (R108). -/
def execIadd (f : Fields) (s : State) : Res := .next (issueWith 0x00 f s (intForm opAdd))
/-- IADD (R108), extended or literal form. -/
def execIaddExt (f : Fields) (s : State) : Res := .next (issueWith 0x00 f s (intForm opAdd))
/-- SSUB (R108). -/
def execSsub (f : Fields) (s : State) : Res := .next (issueWith 0x01 f s (intForm opSub))
/-- SSUB (R108), extended or literal form. -/
def execSsubExt (f : Fields) (s : State) : Res := .next (issueWith 0x01 f s (intForm opSub))
/-- ISUB (R108). -/
def execIsub (f : Fields) (s : State) : Res := .next (issueWith 0x01 f s (intForm opSub))
/-- ISUB (R108), extended or literal form. -/
def execIsubExt (f : Fields) (s : State) : Res := .next (issueWith 0x01 f s (intForm opSub))
/-- SMUL (R108). -/
def execSmul (f : Fields) (s : State) : Res := .next (issueWith 0x02 f s (intForm opMul))
/-- SMUL (R108), extended or literal form. -/
def execSmulExt (f : Fields) (s : State) : Res := .next (issueWith 0x02 f s (intForm opMul))
/-- IMUL (R108). -/
def execImul (f : Fields) (s : State) : Res := .next (issueWith 0x02 f s (intForm opMul))
/-- IMUL (R108), extended or literal form. -/
def execImulExt (f : Fields) (s : State) : Res := .next (issueWith 0x02 f s (intForm opMul))
/-- SMULH (R108). -/
def execSmulh (f : Fields) (s : State) : Res := .next (issueWith 0x03 f s (intForm opMulh))
/-- SMULH (R108), extended or literal form. -/
def execSmulhExt (f : Fields) (s : State) : Res := .next (issueWith 0x03 f s (intForm opMulh))
/-- IMULH (R108). -/
def execImulh (f : Fields) (s : State) : Res := .next (issueWith 0x03 f s (intForm opMulh))
/-- IMULH (R108), extended or literal form. -/
def execImulhExt (f : Fields) (s : State) : Res := .next (issueWith 0x03 f s (intForm opMulh))
/-- SDIV (R108). -/
def execSdiv (f : Fields) (s : State) : Res := .next (issueWith 0x04 f s (intForm opDiv))
/-- SDIV (R108), extended or literal form. -/
def execSdivExt (f : Fields) (s : State) : Res := .next (issueWith 0x04 f s (intForm opDiv))
/-- IDIV (R108). -/
def execIdiv (f : Fields) (s : State) : Res := .next (issueWith 0x04 f s (intForm opDiv))
/-- IDIV (R108), extended or literal form. -/
def execIdivExt (f : Fields) (s : State) : Res := .next (issueWith 0x04 f s (intForm opDiv))
/-- SREM (R108). -/
def execSrem (f : Fields) (s : State) : Res := .next (issueWith 0x05 f s (intForm opRem))
/-- SREM (R108), extended or literal form. -/
def execSremExt (f : Fields) (s : State) : Res := .next (issueWith 0x05 f s (intForm opRem))
/-- IREM (R108). -/
def execIrem (f : Fields) (s : State) : Res := .next (issueWith 0x05 f s (intForm opRem))
/-- IREM (R108), extended or literal form. -/
def execIremExt (f : Fields) (s : State) : Res := .next (issueWith 0x05 f s (intForm opRem))
/-- SAND (R108). -/
def execSand (f : Fields) (s : State) : Res := .next (issueWith 0x06 f s (intForm opAnd))
/-- SAND (R108), extended or literal form. -/
def execSandExt (f : Fields) (s : State) : Res := .next (issueWith 0x06 f s (intForm opAnd))
/-- IAND (R108). -/
def execIand (f : Fields) (s : State) : Res := .next (issueWith 0x06 f s (intForm opAnd))
/-- IAND (R108), extended or literal form. -/
def execIandExt (f : Fields) (s : State) : Res := .next (issueWith 0x06 f s (intForm opAnd))
/-- SOR (R108). -/
def execSor (f : Fields) (s : State) : Res := .next (issueWith 0x07 f s (intForm opOr))
/-- SOR (R108), extended or literal form. -/
def execSorExt (f : Fields) (s : State) : Res := .next (issueWith 0x07 f s (intForm opOr))
/-- IOR (R108). -/
def execIor (f : Fields) (s : State) : Res := .next (issueWith 0x07 f s (intForm opOr))
/-- IOR (R108), extended or literal form. -/
def execIorExt (f : Fields) (s : State) : Res := .next (issueWith 0x07 f s (intForm opOr))
/-- SXOR (R108). -/
def execSxor (f : Fields) (s : State) : Res := .next (issueWith 0x08 f s (intForm opXor))
/-- SXOR (R108), extended or literal form. -/
def execSxorExt (f : Fields) (s : State) : Res := .next (issueWith 0x08 f s (intForm opXor))
/-- IXOR (R108). -/
def execIxor (f : Fields) (s : State) : Res := .next (issueWith 0x08 f s (intForm opXor))
/-- IXOR (R108), extended or literal form. -/
def execIxorExt (f : Fields) (s : State) : Res := .next (issueWith 0x08 f s (intForm opXor))
/-- SSHL (R108). -/
def execSshl (f : Fields) (s : State) : Res := .next (issueWith 0x09 f s (intForm opShl))
/-- SSHL (R108), extended or literal form. -/
def execSshlExt (f : Fields) (s : State) : Res := .next (issueWith 0x09 f s (intForm opShl))
/-- ISHL (R108). -/
def execIshl (f : Fields) (s : State) : Res := .next (issueWith 0x09 f s (intForm opShl))
/-- ISHL (R108), extended or literal form. -/
def execIshlExt (f : Fields) (s : State) : Res := .next (issueWith 0x09 f s (intForm opShl))
/-- SSHR (R108). -/
def execSshr (f : Fields) (s : State) : Res := .next (issueWith 0x0A f s (intForm opShr))
/-- SSHR (R108), extended or literal form. -/
def execSshrExt (f : Fields) (s : State) : Res := .next (issueWith 0x0A f s (intForm opShr))
/-- ISHR (R108). -/
def execIshr (f : Fields) (s : State) : Res := .next (issueWith 0x0A f s (intForm opShr))
/-- ISHR (R108), extended or literal form. -/
def execIshrExt (f : Fields) (s : State) : Res := .next (issueWith 0x0A f s (intForm opShr))
/-- SSAR (R108). -/
def execSsar (f : Fields) (s : State) : Res := .next (issueWith 0x0B f s (intForm opSar))
/-- SSAR (R108), extended or literal form. -/
def execSsarExt (f : Fields) (s : State) : Res := .next (issueWith 0x0B f s (intForm opSar))
/-- ISAR (R108). -/
def execIsar (f : Fields) (s : State) : Res := .next (issueWith 0x0B f s (intForm opSar))
/-- ISAR (R108), extended or literal form. -/
def execIsarExt (f : Fields) (s : State) : Res := .next (issueWith 0x0B f s (intForm opSar))
/-- SMIN (R108). -/
def execSmin (f : Fields) (s : State) : Res := .next (issueWith 0x0C f s (intForm opMin))
/-- SMIN (R108), extended or literal form. -/
def execSminExt (f : Fields) (s : State) : Res := .next (issueWith 0x0C f s (intForm opMin))
/-- IMIN (R108). -/
def execImin (f : Fields) (s : State) : Res := .next (issueWith 0x0C f s (intForm opMin))
/-- IMIN (R108), extended or literal form. -/
def execIminExt (f : Fields) (s : State) : Res := .next (issueWith 0x0C f s (intForm opMin))
/-- SMAX (R108). -/
def execSmax (f : Fields) (s : State) : Res := .next (issueWith 0x0D f s (intForm opMax))
/-- SMAX (R108), extended or literal form. -/
def execSmaxExt (f : Fields) (s : State) : Res := .next (issueWith 0x0D f s (intForm opMax))
/-- IMAX (R108). -/
def execImax (f : Fields) (s : State) : Res := .next (issueWith 0x0D f s (intForm opMax))
/-- IMAX (R108), extended or literal form. -/
def execImaxExt (f : Fields) (s : State) : Res := .next (issueWith 0x0D f s (intForm opMax))
/-- SCLZ (R108). -/
def execSclz (f : Fields) (s : State) : Res := .next (issueWith 0x0E f s (intForm opClz))
/-- SCLZ (R108), extended or literal form. -/
def execSclzExt (f : Fields) (s : State) : Res := .next (issueWith 0x0E f s (intForm opClz))
/-- ICLZ (R108). -/
def execIclz (f : Fields) (s : State) : Res := .next (issueWith 0x0E f s (intForm opClz))
/-- ICLZ (R108), extended or literal form. -/
def execIclzExt (f : Fields) (s : State) : Res := .next (issueWith 0x0E f s (intForm opClz))
/-- SPOPC (R108). -/
def execSpopc (f : Fields) (s : State) : Res := .next (issueWith 0x0F f s (intForm opPopc))
/-- SPOPC (R108), extended or literal form. -/
def execSpopcExt (f : Fields) (s : State) : Res := .next (issueWith 0x0F f s (intForm opPopc))
/-- IPOPC (R108). -/
def execIpopc (f : Fields) (s : State) : Res := .next (issueWith 0x0F f s (intForm opPopc))
/-- IPOPC (R108), extended or literal form. -/
def execIpopcExt (f : Fields) (s : State) : Res := .next (issueWith 0x0F f s (intForm opPopc))
/-- SBFX (R109). -/
def execSbfx (f : Fields) (s : State) : Res := .next (issueWith 0x10 f s (fieldForm fun b => opBfx b (f.fn.getLsbD 0)))
/-- SBFX (R109), extended or literal form. -/
def execSbfxExt (f : Fields) (s : State) : Res := .next (issueWith 0x10 f s (fieldForm fun b => opBfx b (f.fn.getLsbD 0)))
/-- IBFX (R109). -/
def execIbfx (f : Fields) (s : State) : Res := .next (issueWith 0x10 f s (fieldForm fun b => opBfx b (f.fn.getLsbD 0)))
/-- IBFX (R109), extended or literal form. -/
def execIbfxExt (f : Fields) (s : State) : Res := .next (issueWith 0x10 f s (fieldForm fun b => opBfx b (f.fn.getLsbD 0)))
/-- SBFI (R109). -/
def execSbfi (f : Fields) (s : State) : Res := .next (issueWith 0x11 f s (fieldForm opBfi))
/-- SBFI (R109), extended or literal form. -/
def execSbfiExt (f : Fields) (s : State) : Res := .next (issueWith 0x11 f s (fieldForm opBfi))
/-- IBFI (R109). -/
def execIbfi (f : Fields) (s : State) : Res := .next (issueWith 0x11 f s (fieldForm opBfi))
/-- IBFI (R109), extended or literal form. -/
def execIbfiExt (f : Fields) (s : State) : Res := .next (issueWith 0x11 f s (fieldForm opBfi))
/-- SMOV (R110). -/
def execSmov (f : Fields) (s : State) : Res := .next (issueWith 0x12 f s (intForm opMov))
/-- SMOV (R110), extended or literal form. -/
def execSmovExt (f : Fields) (s : State) : Res := .next (issueWith 0x12 f s (intForm opMov))
/-- IMOV (R110). -/
def execImov (f : Fields) (s : State) : Res := .next (issueWith 0x12 f s (intForm opMov))
/-- IMOV (R110), extended or literal form. -/
def execImovExt (f : Fields) (s : State) : Res := .next (issueWith 0x12 f s (intForm opMov))
/-- SSEL (R110). -/
def execSsel (f : Fields) (s : State) : Res := .next (issueWith 0x13 f s selScalar)
/-- SSEL (R110), extended or literal form. -/
def execSselExt (f : Fields) (s : State) : Res := .next (issueWith 0x13 f s selScalar)
/-- ISEL (R110). -/
def execIsel (f : Fields) (s : State) : Res := .next (issueWith 0x13 f s selLane)
/-- ISEL (R110), extended or literal form. -/
def execIselExt (f : Fields) (s : State) : Res := .next (issueWith 0x13 f s selLane)
/-- SANDN (R111). -/
def execSandn (f : Fields) (s : State) : Res := .next (issueWith 0x14 f s (scalarInt opAndn false))
/-- SANDN (R111), extended or literal form. -/
def execSandnExt (f : Fields) (s : State) : Res := .next (issueWith 0x14 f s (scalarInt opAndn false))
/-- SROT (R111). -/
def execSrot (f : Fields) (s : State) : Res := .next (issueWith 0x15 f s (scalarInt opRot true))
/-- SROT (R111), extended or literal form. -/
def execSrotExt (f : Fields) (s : State) : Res := .next (issueWith 0x15 f s (scalarInt opRot true))
/-- SLEA (R111). -/
def execSlea (f : Fields) (s : State) : Res := .next (issueWith 0x16 f s (scalarInt (opLea f) true))
/-- SLEA (R111), extended or literal form. -/
def execSleaExt (f : Fields) (s : State) : Res := .next (issueWith 0x16 f s (scalarInt (opLea f) true))
/-- SCMP (R111). -/
def execScmp (f : Fields) (s : State) : Res := .next (issueWith 0x17 f s (scalarInt opCmp (f.fn.getLsbD 0)))
/-- SCMP (R111), extended or literal form. -/
def execScmpExt (f : Fields) (s : State) : Res := .next (issueWith 0x17 f s (scalarInt opCmp (f.fn.getLsbD 0)))
/-- IMAD (R112). -/
def execImad (f : Fields) (s : State) : Res := .next (issueWith 0x18 f s (laneInt opMad (f.fn.getLsbD 0)))
/-- IMAD (R112), extended or literal form. -/
def execImadExt (f : Fields) (s : State) : Res := .next (issueWith 0x18 f s (laneInt opMad (f.fn.getLsbD 0)))
/-- IABS (R112). -/
def execIabs (f : Fields) (s : State) : Res := .next (issueWith 0x19 f s (laneInt opAbs false))
/-- IABS (R112), extended or literal form. -/
def execIabsExt (f : Fields) (s : State) : Res := .next (issueWith 0x19 f s (laneInt opAbs false))
/-- INEG (R112). -/
def execIneg (f : Fields) (s : State) : Res := .next (issueWith 0x19 f s (laneInt opNeg false))
/-- INEG (R112), extended or literal form. -/
def execInegExt (f : Fields) (s : State) : Res := .next (issueWith 0x19 f s (laneInt opNeg false))
/-- INOT (R112). -/
def execInot (f : Fields) (s : State) : Res := .next (issueWith 0x19 f s (laneInt opNot false))
/-- INOT (R112), extended or literal form. -/
def execInotExt (f : Fields) (s : State) : Res := .next (issueWith 0x19 f s (laneInt opNot false))
/-- ISAD (R112). -/
def execIsad (f : Fields) (s : State) : Res := .next (issueWith 0x1A f s (laneInt opSad (f.fn.getLsbD 0)))
/-- ISAD (R112), extended or literal form. -/
def execIsadExt (f : Fields) (s : State) : Res := .next (issueWith 0x1A f s (laneInt opSad (f.fn.getLsbD 0)))
/-- IDOT4 (R112). -/
def execIdot4 (f : Fields) (s : State) : Res := .next (issueWith 0x1B f s dotBody)
/-- IDOT4 (R112), extended or literal form. -/
def execIdot4Ext (f : Fields) (s : State) : Res := .next (issueWith 0x1B f s dotBody)
/-- PSETI (R113). -/
def execPseti (f : Fields) (s : State) : Res := .next (issueWith 0x1C f s psetiBody)
/-- PSETI (R113), extended or literal form. -/
def execPsetiExt (f : Fields) (s : State) : Res := .next (issueWith 0x1C f s psetiBody)
/-- PLOP (R114). -/
def execPlop (f : Fields) (s : State) : Res := .next (issueWith 0x1D f s plopBody)
/-- PLOP (R114), extended or literal form. -/
def execPlopExt (f : Fields) (s : State) : Res := .next (issueWith 0x1D f s plopBody)
/-- PMOV.1 (R115). -/
def execPmov (f : Fields) (s : State) : Res := .next (issueWith 0x1D f s pmovBody)
/-- PMOV.1 (R115), extended or literal form. -/
def execPmovExt (f : Fields) (s : State) : Res := .next (issueWith 0x1D f s pmovBody)
/-- PMOV.2 (R115). -/
def execPmovMask (f : Fields) (s : State) : Res := .next (issueWith 0x1D f s pmovMaskBody)
/-- PMOV.2 (R115), extended or literal form. -/
def execPmovMaskExt (f : Fields) (s : State) : Res := .next (issueWith 0x1D f s pmovMaskBody)

end Sys2Proof.Machine
end

