-- ==== Sys2Proof/Machine/Aes.lean ====
section
/-!
DEFINITION. The cipher and the authentication code of an export stream (R367): AES-256 in counter mode and GMAC, as their standards
define them by arithmetic in the fields of 2^8 and 2^128 elements.
-/

namespace Sys2Proof.Machine

/-! ### The field of 2^8 elements -/

/-- A byte times x, modulo x^8 + x^4 + x^3 + x + 1. -/
def gfTwice (b : Byte) : Byte := if b.msb then (b <<< 1) ^^^ 0x1B else b <<< 1

/-- The product of two bytes. -/
def gfMul (a b : Byte) : Byte :=
  ((List.range 8).foldl (fun (r : Byte × Byte) i => (if b.getLsbD i then r.1 ^^^ r.2 else r.1, gfTwice r.2)) (0, a)).1

/-- The inverse of a byte, 0 for 0: its power 254 = 2 + 4 + ... + 128. -/
def gfInv (a : Byte) : Byte :=
  ((List.range 7).foldl (fun (r : Byte × Byte) _ => let q := gfMul r.2 r.2; (gfMul r.1 q, q)) (1, a)).1

/-- The substitution of a byte: its inverse, and an affine map of its bits. -/
def aesSub (a : Byte) : Byte :=
  let x := gfInv a
  (List.range 4).foldl (fun y i => y ^^^ x.rotateLeft (i + 1)) (x ^^^ 0x63)

/-! ### AES-256 -/

/-- Bytes added in the field. -/
def xorBytes (a b : List Byte) : List Byte := List.zipWith (· ^^^ ·) a b

/-- The next four bytes of the key schedule, of those so far; `n` counts words. -/
def aesNextWord (ws : List Byte) (n : Nat) : List Byte :=
  let last := ws.drop (4 * n - 4)
  let turned := (last.drop 1 ++ last.take 1).map aesSub
  let round : Byte := (List.range (n / 8 - 1)).foldl (fun b _ => gfTwice b) 1
  let mixed :=
    if n % 8 = 0 then xorBytes turned [round, 0, 0, 0] else if n % 8 = 4 then last.map aesSub else last
  xorBytes ((ws.drop (4 * n - 32)).take 4) mixed

/-- The 60 words of the key schedule of a key of 32 bytes. -/
def aesSchedule (key : List Byte) : List Byte :=
  (List.range 52).foldl (fun ws i => ws ++ aesNextWord ws (i + 8)) key

/-- A column times the polynomial 3 y^3 + y^2 + y + 2. -/
def aesColumn (c : List Byte) : List Byte :=
  (List.range 4).map fun r =>
    let at_ (i : Nat) : Byte := c.getD ((r + i) % 4) 0
    gfTwice (at_ 0) ^^^ gfTwice (at_ 1) ^^^ at_ 1 ^^^ at_ 2 ^^^ at_ 3

/-- Substitution, and row `r` turned by `r` columns; a block is four columns. -/
def aesRows (b : List Byte) : List Byte := (List.range 16).map fun i => aesSub (b.getD ((i + 4 * (i % 4)) % 16) 0)

/-- The cipher on a block of 16 bytes. -/
def aesBlock (key block : List Byte) : List Byte :=
  let ks := aesSchedule key
  let rk (n : Nat) : List Byte := (ks.drop (16 * n)).take 16
  let mid := (List.range 13).foldl (fun b i =>
    let t := aesRows b
    xorBytes ((List.range 4).flatMap fun c => aesColumn ((t.drop (4 * c)).take 4)) (rk (i + 1))) (xorBytes block (rk 0))
  xorBytes (aesRows mid) (rk 14)

/-- `n` bytes of a number, the most significant first, as the standards write a block. -/
def beBytes (n x : Nat) : List Byte := (leBytes n x).reverse

/-- The number of bytes with the most significant first. -/
def beNat (bs : List Byte) : Nat := leNat bs.reverse

/-! ### GMAC -/

/-- A product in the field of 2^128 elements, whose bit 127 is the coefficient of 1. -/
def ghMul (a b : BitVec 128) : BitVec 128 :=
  let r : BitVec 128 := BitVec.ofNat 128 (0xE1 * 2 ^ 120)
  ((List.range 128).foldl (fun (x : BitVec 128 × BitVec 128) i =>
    (if a.getMsbD i then x.1 ^^^ x.2 else x.1, if x.2.getLsbD 0 then (x.2 >>> 1) ^^^ r else x.2 >>> 1)) (0, b)).1

/-- The blocks of 16 bytes of a list, the last one filled with zeros. -/
def aesBlocks (bs : List Byte) : List (BitVec 128) :=
  (List.range ((bs.length + 15) / 16)).map fun i =>
    BitVec.ofNat 128 (beNat ((List.range 16).map fun j => bs.getD (16 * i + j) 0))

/-- AES-256-GMAC of bytes under a key and a nonce of 96 bits. -/
def gmac (key nonce bs : List Byte) : BitVec 128 :=
  let h : BitVec 128 := BitVec.ofNat 128 (beNat (aesBlock key (List.replicate 16 0)))
  let s := (aesBlocks bs ++ [BitVec.ofNat 128 (8 * bs.length * 2 ^ 64)]).foldl (fun y b => ghMul (y ^^^ b) h) 0
  s ^^^ BitVec.ofNat 128 (beNat (aesBlock key (nonce ++ [0, 0, 0, 1])))

/-! ### Page records (R366, R367) -/

/-- The counter block of block `b` of line `i` of a page (R367). -/
def counterBlock (major minor i b page : Nat) : Nat :=
  major % 2 ^ 64 * 2 ^ 64 + minor % 128 * 2 ^ 57 + i % 64 * 2 ^ 51 + b % 4 * 2 ^ 49 + page % 2 ^ 49

/-- A line of 64 bytes under its pad: enciphered, or deciphered. The byte with the most significant bits of the counter block is the first
(DEDUCED, log 94). -/
def cryptLine (key : List Byte) (major minor i page : Nat) (line : List Byte) : List Byte :=
  xorBytes line ((List.range 4).flatMap fun b => aesBlock key (beBytes 16 (counterBlock major minor i b page)))

/-- Bytes 0x000 to 0x04F of a page record (R366). -/
def recordHead (r : PageRecord) : List Byte :=
  leBytes 8 r.page ++ leBytes 8 r.major
    ++ (List.range 64).flatMap fun i => leBytes 1 (r.minors.getD i 0 % 128 + if r.carried.contains i then 128 else 0)

/-- The MAC of a page record: over its head and the ciphertext that it carries, under a nonce that the spec does not give (R367; free
value, log 94). -/
def recordMac (key : List Byte) (r : PageRecord) : BitVec 128 :=
  let bs := recordHead r
  gmac key (leBytes 12 (Config.macNonce (leNat bs))) (bs ++ r.data.flatMap Prod.snd)

/-- The 4,192 bytes of a page record: its head, its MAC and the ciphertext, zero in the lines that it does not carry (R366). -/
def pageBytes (r : PageRecord) : List Byte :=
  recordHead r ++ beBytes 16 r.mac.toNat
    ++ (List.range 64).flatMap fun i => ((r.data.find? fun e => e.1 = i).map Prod.snd).getD (List.replicate 64 0)

/-- The page record that 4,192 bytes are; the lines that it does not carry are not read (R366). -/
def readPage (bs : List Byte) : PageRecord :=
  let minor (i : Nat) : Nat := (bs.getD (16 + i) 0).toNat
  let carried := (List.range 64).filter fun i => 128 ≤ minor i
  { page := leNat (bs.take 8), major := leNat ((bs.drop 8).take 8), minors := (List.range 64).map fun i => minor i % 128, carried,
    mac := BitVec.ofNat 128 (beNat ((bs.drop 0x50).take 16)), data := carried.map fun i => (i, (bs.drop (0x60 + 64 * i)).take 64) }

/-- The export key of a session (R367); no rule shows it (free value, log 94). -/
def exportKey (session : Nat) : List Byte := leBytes 32 (Config.streamKey (2 * session))
/-- The MAC key of a session. -/
def macKey (session : Nat) : List Byte := leBytes 32 (Config.streamKey (2 * session + 1))

end Sys2Proof.Machine
end

