-- ==== Sys2Proof/Machine/Partition.lean ====
section
/-!
DEFINITION. The shape and the life of partitions (R355 to R370, R376): carving, growing, shrinking, compaction, quotas,
quiesce, live migration, destruction and scrub.
-/

namespace Sys2Proof.Machine

/-! ### Checks (R355 to R357, R370) -/

/-- Whether the fields of a descriptor lie in their ranges (R357). -/
def descFits (d : PartDesc) : Bool :=
  d.bwshare < 256 && d.resq < 2 ^ 32 && d.hbmq < 2 ^ 32 && d.bmunits ≤ 65536 && 1 ≤ d.maxctx && d.maxctx ≤ 4096

/-- Whether no two entries of a list agree. -/
def distinct (l : List Nat) : Bool := l.eraseDups.length = l.length

/-- Whether a site is free for a partition: good, and of no partition (R355, R360). -/
def State.siteFree (s : State) (t : Nat) : Bool :=
  t < 4608 && s.site t = .good
    && s.parts.all fun e => !e.2.sites.contains t && !e.2.leaving.contains t && (e.2.cmap.all fun x => x.2 != t)
      && e.2.grow.all fun g => !g.sites.contains t

/-- Whether a channel may serve a partition: it exists, and no protected partition shares it (R356). -/
def State.chanFree (s : State) (p c : Nat) (prot : Bool) : Bool :=
  (s.chanSite c).isSome && s.parts.all fun e =>
    e.1 = p || !(e.2.chans.contains c || e.2.leavingCh.contains c || e.2.grow.any fun g => g.chans.contains c) || !(prot || e.2.desc.prot)

/-- BWSHARE as it acts (R357). -/
def shareOf (d : PartDesc) : Nat := max 1 d.bwshare

/-- Whether the shares at a list of channels stay within 256 with another share for partition `p` (R357). -/
def State.sharesOk (s : State) (p : Nat) (chans : List Nat) (share : Nat) : Bool :=
  chans.all fun c =>
    share + ((s.parts.filter fun e => e.1 != p && e.2.chans.contains c).map fun e => shareOf e.2.desc).sum ≤ 256

/-- The bank memory that a number of tiles can hold, in units of 64 KiB (R14, R187). -/
def bankUnits (sites : List Nat) : Nat := 32 * sites.length

/-- Whether the interface of a partition keeps it from being reshaped (R370). -/
def State.tdispBars (s : State) (p : Nat) (force : Bool) : Bool :=
  !force && ((s.vf p).tdisp = .locked || (s.vf p).tdisp = .run)

/-- A forced command moves a locked or running interface to ERROR before it acts (R370). -/
def State.tdispForce (s : State) (p : Nat) : State :=
  s.modVf p fun v => { v with tdisp := if v.tdisp = .locked || v.tdisp = .run then .error else v.tdisp }

/-- Frames join a partition; an export under way carries them too (R365). -/
def State.giveFrames (s : State) (p : Nat) (fs : List Nat) : State :=
  let s : State := { s with owner := fs.foldl (fun m f => smSet 0 m f (p + 1)) s.owner }
  if (s.part p).streams then (s.modPart p fun x => { x with xframes := x.xframes ++ fs }).noteLines (fs.flatMap frameLines) else s

/-- The frames that a page-table root of 128 KiB takes (R188). -/
def rootFrames (root : Nat) : List Nat :=
  (List.range 3).filterMap fun i =>
    if root < (root / 65536 + i) * 65536 + 65536 && (root / 65536 + i) * 65536 < root + 131072 then some (root / 65536 + i) else none

/-! ### Carving (R360) -/

/-- The bank-address hash table that Roith installs where a command brings none: the 32 banks of each site in turn (R187, R360; log 23). -/
def bankTable (sites : List Nat) : List (Nat × Nat) := sites.flatMap fun t => (List.range 32).map fun b => (t, b)

/-- The lowest free partition number (R358). -/
def State.freePart (s : State) : Option Nat := (List.range 128).find? fun p => (s.part p).st = .free

/-- What a new partition has to pass: the code that refuses it, 0 for none. -/
def State.carveCode (s : State) (p : Nat) (sites chans : List Nat) (desc : PartDesc) (table : List RouterEntry) : Nat :=
  if !descFits desc || sites.isEmpty || !distinct sites || !distinct chans then 1
  else if !(sites.all s.siteFree) || !(chans.all fun c => s.chanFree p c desc.prot) || !s.tableOk sites table then 4
  else if !s.sharesOk p chans (shareOf desc) || bankUnits sites < desc.bmunits || (s.poolFrames chans).length < desc.hbmq then 3
  else 0

/-- Installs a new partition in a state; its virtual function comes last. -/
def State.installPart (s : State) (p : Nat) (st : PartState) (sites chans : List Nat) (desc : PartDesc)
    (table : List RouterEntry) (root port : Nat) : State :=
  let fs := (s.poolFrames chans).take desc.hbmq
  let s := (s.modPart p fun x => { st, sites, chans, desc, root, hash := bankTable sites, planFrom := s.time, gen := x.gen + 1, port, used := (rootFrames root).filter fs.contains }).giveFrames p fs
  (s.setTable p table).modVf p fun _ => { port }

/-- A new partition that a check refuses: it goes from carving to scrubbing, with no units (R358). -/
def State.carveFail (s : State) (p op code : Nat) : State :=
  ((if code = 1 then s else s.modPart p fun x => { st := .scrubbing, gen := x.gen })).cmdEnd op code 0

/-- PART_CARVE (R358, R360). -/
def execPartCarve (sites chans : List Nat) (desc : PartDesc) (table : List RouterEntry) (port root : Nat) (s : State) : Res :=
  .next (
    if !s.booted || !s.cmdTurn 1 none [] then s
    else if s.bufferLost 1 then s.cmdEnd 1 5 0
    else
      match s.freePart with
      | none => s.cmdEnd 1 3 0
      | some p =>
        let fs := (s.poolFrames chans).take desc.hbmq
        let c := s.carveCode p sites chans desc table
        let c := if port < 144 || 151 < port then 1 else if c = 0 && !((rootFrames root).all fs.contains) then 4 else c
        if c != 0 then s.carveFail p 1 c
        else (s.installPart p .active sites chans desc table root port).cmdEnd 1 0 p)

/-! ### Reshaping (R361 to R363) -/

/-- The command line of a command that reports later: its line leaves the queue and stays busy (R375). -/
def State.deferLine (s : State) (p op : Nat) : State :=
  let n := s.cmdPort op
  { s.modPart p (fun x => { x with exporting := true, exportLine := n }) with cmds := if n.isSome then s.cmds.drop 1 else s.cmds }

/-- What a growth has to pass: the code that refuses it, 0 for none. -/
def State.growCode (s : State) (part : Nat) (sites chans : List Nat) (tables : GrowTables) : Nat :=
  let p := s.part part
  let all := p.sites ++ sites
  if !distinct all || !distinct (p.chans ++ chans) then 1
  else if !(sites.all s.siteFree) || !(chans.all fun c => s.chanFree part c p.desc.prot) || !s.tableOk all tables.routes
      || tables.hash.isEmpty || !(tables.hash.all fun e => all.contains e.1 && e.2 < 32) then 4
  else if !s.sharesOk part chans (shareOf p.desc) then 3
  else 0

/-- PART_GROW (R361): the partition is growing while its bank words move to the places of the new hash table; the command reports when it has
grown, or when a site failure undoes it (R359). -/
def execPartGrow (part : Nat) (sites chans : List Nat) (tables : GrowTables) (force : Bool) (s : State) : Res :=
  .next (
    let p := s.part part
    if !s.booted || !s.cmdTurn 2 (some force) [part] then s
    else if s.bufferLost 2 then s.cmdEnd 2 5 0
    else if p.st != .active || s.tdispBars part force then s.cmdEnd 2 2 0
    else if s.growCode part sites chans tables != 0 then s.cmdEnd 2 (s.growCode part sites chans tables) 0
    else ((s.tdispForce part).deferLine part 2).modPart part fun x => { x with
      st := .growing, grow := some { sites := p.sites ++ sites, chans := p.chans ++ chans, tables, since := s.time } })

/-- A growth is complete: the sites and channels have joined, the new tables hold, and the partition is active; castling counts its intervals
anew (R358, R361). The move of the bank words takes the FCLK after that of the command (DESIGN CHOICE, log 23). -/
def State.growDone (s : State) (part : Nat) : State :=
  match (s.part part).grow with
  | none => s
  | some g =>
    if s.time.toNat ≤ g.since.toNat then s
    else
      ((s.setTable part g.tables.routes).modPart part fun x => { x with
        st := .active, sites := g.sites, chans := g.chans, hash := g.tables.hash, grow := none, planFrom := s.time, gen := x.gen + 1 }).exportEnd
          part 2 0 0

/-- The growths of all partitions go on. -/
def State.growAll (s : State) : State := s.parts.foldl (fun s e => s.growDone e.1) s

/-- Pins of a partition on channels that it gives up are released (R214, R362). -/
def State.unpinChans (s : State) (p : Nat) (chans : List Nat) : State :=
  ((s.l2.filter fun e => e.2.pin = some p && chans.contains (e.1 / 2 ^ 24)).map Prod.fst).foldl (fun s l =>
    { (s.l2Clean noCtx l) with l2 := smMod {} (s.l2Clean noCtx l).l2 l fun x => { x with pin := none } }) s

/-- PART_SHRINK (R362): sites and channels leave; they are scrubbed before they are free. A site that stands in a bind record of a loaded
plan stays. The bank words of the sites that leave move to the others, so that their bank memory is empty (DESIGN CHOICE, log 23). -/
def execPartShrink (part : Nat) (sites chans : List Nat) (force : Bool) (s : State) : Res :=
  roithForce 3 (some force) [part] s fun s =>
    let p := s.part part
    let rest := p.sites.filter fun t => !sites.contains t
    let inside (t : Nat) : Bool := rest.contains t || s.site t = .spare || s.site t = .mappedOut
    let table := p.table.filter fun e => inside e.site
    let bind (x : PlanSlot) : Bool := sites.contains x.site
    let held := (s.groups.any fun e => sites.contains (siteOf e.1) && e.2.st != .free)
      || s.ctxs.any fun e => e.2.part = part && e.2.kerns.any fun k =>
        (k.2.plan.sets.any fun b => b.slots.any bind) || k.2.plan.spawns.any bind
    let mapped := (s.ownFrames part).any fun f => chans.contains (f / 65536) && s.frameUsed part f
    if p.st != .active || s.tdispBars part force then cmdNo s 2
    else if !(sites.all p.sites.contains) || !(chans.all p.chans.contains) || rest.isEmpty then cmdNo s 1
    else if held || mapped || !p.moving.isEmpty then cmdNo s 2
    else if !s.tableOk rest table then cmdNo s 4
    else if bankUnits rest < p.desc.bmunits then cmdNo s 3
    else
      let s := ((s.tdispForce part).unpinChans part chans).setTable part table
      cmdOk (s.modPart part fun x => { x with
        st := .shrinking, sites := rest, chans := x.chans.filter (fun c => !chans.contains c), hash := bankTable rest, leaving := x.leaving ++ sites,
        leavingCh := chans, plan := { x.plan with rings := x.plan.rings.filter fun r => !(r.any sites.contains) }, gen := x.gen + 1 })

/-- PART_COMPACT (R363): teams move to the sites of a map, and the frames of each moved site's channel with it: their pages are migrating
until the teams have moved. It waits for castling moves under way. -/
def execPartCompact (part : Nat) (map : List (Nat × Nat)) (table : List RouterEntry) (plan : CastlePlan) (force : Bool) (s : State) : Res :=
  if (s.part part).st = .active && !(s.part part).moving.isEmpty && s.cmdTurn 4 (some force) [part] then .next s
  else
    roithForce 4 (some force) [part] s fun s =>
      let p := s.part part
      let m := map.filter fun e => e.1 != e.2
      let new := p.sites.map (siteMoved m)
      let cm := (m.map fun e => (s.chanOf e.1, s.chanOf e.2)).filter fun e => p.chans.contains e.1
      let fs := (s.ownFrames part).filter fun f => cm.any fun e => e.1 = f / 65536
      let ps := fs.map fun f => (f, siteMoved cm (f / 65536) * 65536 + f % 65536)
      let room (f : Nat) : Bool :=
        fs.contains f || (smGet 0 s.owner f = 0 && !s.retired.contains f && f % 65536 < s.chanFrames (f / 65536))
      if p.st != .active || s.tdispBars part force then cmdNo s 2
      else if !(map.all fun e => p.sites.contains e.1) || !distinct (map.map Prod.fst) then cmdNo s 1
      else if !distinct new || !(m.all fun e => p.sites.contains e.2 || s.siteFree e.2)
          || ({ p with sites := new } : Part).origin != p.origin || !s.tableOk new table
          || !(s.modPart part fun x => { x with sites := new }).castleOk part plan
          || !(p.routes.all fun e => e.2.all fun r => ((s.setTable part table).modPart part fun x => { x with sites := new }).routeOk part
              (routeMoved r p.origin m))
          || !(cm.all fun e => s.chanFree part e.2 p.desc.prot) then cmdNo s 4
      else if s.l2.any (fun e => fs.contains (e.1 / 256) && e.2.pin.isSome) then cmdNo s 2
      else if !(ps.all fun e => room e.2) || !s.sharesOk part (cm.map Prod.snd) (shareOf p.desc) then cmdNo s 3
      else
        let r : RingMove := { pairs := m }
        let s := (((s.tdispForce part).migrate part fs).giveFrames part (ps.map Prod.snd)).modPart part fun x => { x with
          st := .compacting, chans := x.chans ++ (cm.map Prod.snd).filter (fun c => !x.chans.contains c), cmap := m, ctable := table
          cplan := plan, cchans := cm, cframes := ps
          moving := if m.isEmpty then [] else [r] }
        cmdOk ((s.stopSites r).endCompact part)

/-! ### Quotas (R357) -/

/-- The 64 KiB units of bank memory up to the last byte that is not zero. -/
def State.bankUsed (s : State) (p : Nat) : Nat :=
  (s.bank.filter fun e => e.1 / 2 ^ 32 = p).foldl (fun n e => max n (e.1 % 2 ^ 32 / 65536 + 1)) 0

/-- The frames of a partition change to a new quota: unused ones leave, scrubbed, the highest first, and free ones of its
channels join; none where the quota cannot be met. A scrub advances the generation (R369, R372). -/
def State.requota (s : State) (p n : Nat) : Option State :=
  let own := s.ownFrames p
  let out := own.length - n
  let drop := ((own.filter fun f => !s.frameUsed p f).reverse).take out
  let more := (s.poolFrames (s.part p).chans).take (n - own.length)
  if drop.length < out || own.length + more.length < n then none
  else some (((drop.foldl State.scrubFrame s).modPart p fun x => { x with gen := if drop.isEmpty then x.gen else x.gen + 1 }).giveFrames p more)

/-- PART_QUOTA (R357): PROT stays as it was carved. -/
def execPartQuota (part : Nat) (desc : PartDesc) (force : Bool) (s : State) : Res :=
  roithForce 5 (some force) [part] s fun s =>
    let p := s.part part
    if (p.st != .active && p.st != .precopying) || s.tdispBars part force then cmdNo s 2
    else if !descFits desc then cmdNo s 1
    else if !s.sharesOk part p.chans (shareOf desc) || bankUnits p.sites < desc.bmunits || desc.bmunits < s.bankUsed part then cmdNo s 3
    else
      match s.requota part desc.hbmq with
      | none => cmdNo s 3
      | some s => cmdOk ((s.tdispForce part).modPart part fun x => { x with desc := { desc with prot := x.desc.prot } })

/-! ### Quiesce (R364) -/

/-- A context is quiesced: its queues close, unlaunched indices are saved, and it is migrating, while its teams stop as for a pre-emption,
with REASON 4 in every image, those taken before included; one that is pre-empting or castling follows when its teams are saved or placed,
and its budget runs from the first request (R286, R305, R306, R364). -/
def State.quiesceCtx (s : State) (c : Nat) : State :=
  let s := s.modCtx c fun x => { x with
    kerns := x.kerns.map fun e => (e.1, { e.2 with queues := e.2.queues.map fun q => q.close s.time })
    runs := x.runs.map fun r => { r with saved := r.saved ++ r.locals.flatMap Prod.snd, locals := [] } }
  let s := s.writeIndices c
  match (s.ctx c).st with
  | .loaded | .saved => (s.quiesceImages c).setCtxSt c .migrating
  | .castling => if (s.ctx c).pending && (s.ctx c).reason = .quiesce then s else (s.requestPreempt c .quiesce .migrating).getD s
  | .runnable | .running => ((s.quiesceImages c).requestPreempt c .quiesce .migrating).getD s
  | .preempting =>
    let stop (e : Nat × Team) : Nat × Team :=
      if e.2.ctx = c && e.2.st = .stopping then (e.1, { e.2 with reason := .quiesce }) else e
    let s' : State := { s with teams := s.teams.map stop }
    (s'.modCtx c fun x => { x with reason := .quiesce }).preemptDone c
  | _ => s

/-- The contexts of a partition. -/
def State.ctxsOf (s : State) (p : Nat) : List Nat := (s.ctxs.filter fun e => e.2.part = p && e.2.st != .destroyed).map Prod.fst

/-- The quiesce protocol acts on every context of a partition. -/
def State.quiescePart (s : State) (p : Nat) : State :=
  ((s.ctxsOf p).foldl State.quiesceCtx s).modPart p fun x => { x with st := .quiescing }

/-- PART_QUIESCE (R364). -/
def execPartQuiesce (part : Nat) (s : State) : Res :=
  roith 6 [part] s fun s => if (s.part part).st != .active then cmdNo s 2 else cmdOk (s.quiescePart part)

/-- Whether a context needs no more for a quiesce. -/
def Ctx.still (x : Ctx) : Bool :=
  x.st = .destroyed || x.st = .created || (x.st = .migrating && !x.stops) || x.st = .killed || x.st = .scrubbing

/-! ### The source of an export stream (R365 to R367) -/

/-- The key of a line of a page. -/
def pageLine (page i : Nat) : Nat := 64 * page + i

/-- A page goes to the stream with some of its lines: each carried line's minor counter advances, and where one would pass 127 the major
counter does, with all 64 lines at 1 (R367). -/
def Part.carry (x : Part) (page : Nat) (ls : List Nat) (line : Nat → List Byte) : Part × PageRecord :=
  let minor (i : Nat) : Nat := smGet 0 x.minors (pageLine page i)
  let full : Bool := ls.any fun i => 127 ≤ minor i
  let major := max 1 (smGet 0 x.majors page) + full.toNat
  let next (i : Nat) : Nat := if full then 1 else if ls.contains i then minor i + 1 else minor i
  let carried := if full then List.range 64 else ls
  let r : PageRecord := {
    page, major, minors := (List.range 64).map next, carried,
    data := carried.map fun i => (i, cryptLine (exportKey x.session) major (next i) i page (line i)) }
  ({ x with
      majors := smSet 0 x.majors page major
      minors := carried.foldl (fun m i => smSet 0 m (pageLine page i) (next i)) x.minors },
    { r with mac := recordMac (macKey x.session) r })

/-- The lines of a partition go to its export stream, page by page (R365, R366); the pages of `order` go first. -/
def State.sendLines (s : State) (p : Nat) (order lns : List Nat) : State :=
  let ks := lns.filterMap fun l => ((s.part p).xframes.findIdx? fun f => f = l / 1024).map fun i => 1024 * i + l % 1024
  let pages := ks.map (· / 64)
  ((order.filter pages.contains ++ pages).eraseDups).foldl (fun s page =>
    let base := (s.part p).xframes.getD (page / 16) 0 * 65536 + page % 16 * 4096
    let ls := (List.range 64).filter fun i => ks.contains (64 * page + i)
    let r := (s.part p).carry page ls fun i => memRead s.mem (base + 64 * i) 64
    (s.modPart p fun _ => r.1).emit (.stream (s.part p).dest (.page (pageBytes r.2)))) s

/-- The lines that wait to be carried again go to the stream. -/
def State.resendLines (s : State) (p : Nat) (order : List Nat) : State :=
  (s.sendLines p order (s.part p).resend).modPart p fun x => { x with resend := [] }

/-- The contexts that a quiesce has brought to migrating. -/
def State.migrants (s : State) (p : Nat) : List (Nat × Ctx) := s.ctxs.filter fun e => e.2.part = p && e.2.st = .migrating

/-- The final round of an export: the remaining lines, then the saved state (R365). -/
def State.sendSaved (s : State) (p : Nat) : State :=
  if !(s.part p).exporting then s
  else
    let s := s.resendLines p []
    let x := s.part p
    let cs := s.migrants p
    s.emit (.stream x.dest (.saved {
      desc := x.desc, time := s.time, ctxs := cs, teams := s.teams.filter fun e => e.2.st = .saved && cs.any fun c => c.1 = e.2.ctx,
      routes := x.routes, plan := x.plan, peers := x.peers, keys := x.keys, replicas := x.replicas, sites := x.sites,
      chans := x.chans, frames := x.xframes, root := x.root }))

/-- QUIESCE_COMPLETE (R364): every context is still and every access, copy and message has ended. An export sends its final round and
reports (R365). -/
def execQuiesceComplete (part : Nat) (s : State) : Res :=
  .next (
    if (s.part part).st != .quiescing then s
    else
      let s := s.quiescePart part
      if ((s.ctxsOf part).all fun c => (s.ctx c).still) && (s.copies.all fun c => c.part != part)
          && s.ops.all fun o => o.part != part then
        ((s.sendSaved part).modPart part fun x => { x with st := .migratingOut }).exportEnd part 7 0 (s.part part).rounds
      else s)

/-! ### Live migration (R365 to R368) -/

/-- PART_EXPORT (R365): pre-copying begins, and the header and every frame are written to the stream; the command reports when the partition migrates
out, or when the export fails. -/
def execPartExport (part : Nat) (dest : StreamDest) (threshold : Nat) (force : Bool) (s : State) : Res :=
  .next (
    if !s.booted || !s.cmdTurn 7 (some force) [part, dest.module, dest.buffer, threshold] then s
    else if (s.part part).st != .active || s.tdispBars part force then s.cmdEnd 7 2 0
    else
      let fs := s.ownFrames part
      let s := ((s.tdispForce part).deferLine part 7).modPart part fun x => { x with
        st := .precopying, threshold, rounds := 0, session := s.freeCtr, dest, xframes := fs, majors := [], minors := [], resend := [] }
      ({ s.emit (.stream dest (.header (s.part part).desc (s.part part).table)) with freeCtr := s.freeCtr + 1 } : State).sendLines part [] (fs.flatMap frameLines))

/-- PRECOPY_ROUND (R365): a round carries the lines that were stored to since they were written; one that finds fewer than the
threshold, or the 32nd, ends the pre-copy. Which pages go first is Roith's to choose (log 50). -/
def execPrecopyRound (part : Nat) (order : List Nat) (s : State) : Res :=
  .next (
    let x := s.part part
    if x.st != .precopying then s
    else
      let n := x.rounds + 1
      let s := (s.resendLines part order).modPart part fun x => { x with rounds := n }
      if x.resend.length < x.threshold || 32 ≤ n then s.quiescePart part else s)

/-- PART_IMPORT (R368): the new partition takes page records; the command reports when the import ends. The descriptor and the route table are
those of the header with which the stream buffer begins (R376; log 50). -/
def execPartImport (sites chans : List Nat) (desc : PartDesc) (source : StreamHead) (s : State) : Res :=
  .next (
    if !s.booted || !s.cmdTurn 8 none [source.buffer] then s
    else if s.bufferLost 8 then s.cmdEnd 8 5 0
    else
      match s.freePart with
      | none => s.cmdEnd 8 3 0
      | some p =>
        let c := s.carveCode p sites chans desc source.table
        if c != 0 then s.carveFail p 8 c
        else
          let root := ((s.poolFrames chans).headD 0) * 65536
          let s := ((s.installPart p .migratingIn sites chans desc source.table root 152).modPart p fun x => { x with session := s.freeCtr }).deferLine p 8
          { s with freeCtr := s.freeCtr + 1 })

/-- Whether the destination accepts a page record (R368). -/
def Part.accepts (x : Part) (r : PageRecord) : Bool :=
  let major := smGet 0 x.majors r.page
  r.mac = recordMac (macKey x.session) r && major ≤ r.major
    && (if r.major = major then r.carried.all fun i => smGet 0 x.minors (pageLine r.page i) < r.minors.getD i 0
        else (List.range 64).all r.carried.contains)

/-- The lines of an accepted record are deciphered and written at the page's place in the partition's frames (R366, R367). -/
def State.writePage (s : State) (p : Nat) (fs : List Nat) (r : PageRecord) : State :=
  r.data.foldl (fun s e =>
    if r.carried.contains e.1 then
      let pa := fs.getD (r.page / 16) 0 * 65536 + r.page % 16 * 4096 + 64 * e.1
      let clear := cryptLine (exportKey (s.part p).session) r.major (r.minors.getD e.1 0) e.1 r.page (e.2.take 64)
      { s with mem := memWrite s.mem pa clear }
    else s) s

/-- An import fails with status 4 (R358, R368). -/
def State.importFail (s : State) (p : Nat) : State := (s.modPart p fun x => { x with st := .scrubbing }).exportEnd p 8 4 0

/-- The entries of a page table that names frames of another module, as address here and new entry. -/
def entriesMoved (mv : Nat → Nat) (mem : Memory) : List (Nat × Nat × Nat) → Nat → List (Nat × Nat)
  | [], _ => []
  | (_, nb, size) :: r, t =>
    (entryWords mem t (2 ^ nb)).flatMap fun w =>
      let e := memLoad mem (8 * w) 8
      if !ebit e 63 then []
      else if ebit e 62 then [(8 * w, entryMoved mv e size)]
      else
        let n := entryMoved mv e 0
        (8 * w, n) :: entriesMoved mv mem r (n / 2 ^ 8 % 2 ^ 40 * 2 ^ 8)

/-- TOFF of an imported context: the first read of sr.time exceeds the largest time of its images (R325). -/
def importToff (x : SavedPart) (c : Nat) (y : Ctx) (now : Word) : Word :=
  let ts := (x.teams.filter fun e => e.2.ctx = c).filterMap fun e => e.2.image.map fun im => im.time.toNat
  if ts.isEmpty then y.desc.toff else BitVec.ofNat 64 (ts.foldl max 0 + 1) - now

/-- An eligible record of an imported queue keeps its place: the times of the queue's records are those of another module's clock, of which
only the order stays (R271; DESIGN CHOICE, log 115). -/
def Queue.rebased (q : Queue) : Queue :=
  let ts := (q.live.map fun e => e.2.etime.toNat).eraseDups
  { q with recs := q.recs.map fun e => (e.1, e.2.map fun r => { r with etime := BitVec.ofNat 64 (ts.countP (· < r.etime.toNat)) }) }

/-- Installs the saved state that an export carries: contexts in migrating, with their numbers, and the tables of the partition. Frames,
channels and sites take the places of the source's in order, and sites those of equal logical coordinates (R365, R305; log 50). -/
def State.install (s : State) (p : Nat) (x : SavedPart) : State :=
  let y := s.part p
  let fs := s.ownFrames p
  let mv (f : Nat) : Nat := ((x.frames.findIdx? fun g => g = f).bind fun i => fs[i]?).getD f
  let o := ({ sites := x.sites } : Part).origin
  let sm := x.sites.map fun t => (t, siteAt (siteX t - o.1 + y.origin.1) (siteY t - o.2 + y.origin.2))
  let cm := x.chans.zip y.chans
  let root := addrMoved mv x.root
  let kern (k : Kern) : Kern := { k.moved sm with frames := k.frames.map mv, queues := (k.moved sm).queues.map Queue.rebased }
  { s with
    mem := (entriesMoved mv s.mem levels root).foldl (fun m e => memStore m e.1 8 e.2) s.mem
    ctxs := x.ctxs.foldl (fun m e => smSet {} m e.1 { e.2 with
      st := .migrating, part := p, frames := e.2.frames.map mv, desc := { e.2.desc with toff := importToff x e.1 e.2 s.time }
      kerns := e.2.kerns.map fun k => (k.1, kern k.2), runs := e.2.runs.map fun r => { r with home := siteMoved sm r.home, cores := [] } }) s.ctxs
    teams := x.teams.foldl (fun m e => smSet {} m e.1 e.2) s.teams
    parts := smSet {} s.parts p { y with
      desc := { x.desc with prot := y.desc.prot }, root, routes := x.routes, peers := x.peers, keys := x.keys, used := x.ctxs.flatMap fun e => e.2.kerns.flatMap fun k => k.2.frames.map mv
      plan := { x.plan with rings := x.plan.rings.map fun r => r.map (siteMoved sm) }
      replicas := x.replicas.map fun e => (e.1, e.2.map (siteMoved cm)) } }

/-- Whether the saved state of an export can be installed: its context numbers are free, the partition has the frames for it, routes
and castling plan pass their checks, and the quotas of its descriptor can be met (R357). -/
def State.installOk (s : State) (p : Nat) (x : SavedPart) : Bool :=
  let t := s.install p x
  (x.ctxs.all fun e => e.1 < 4096 && (s.ctx e.1).st = .destroyed) && x.frames.length ≤ (s.ownFrames p).length
    && (x.routes.all fun e => e.2.all fun r => t.routeOk p r) && (x.plan.rings.isEmpty || t.castleOk p (t.part p).plan)
    && s.sharesOk p (s.part p).chans (shareOf x.desc) && x.desc.bmunits ≤ bankUnits (s.part p).sites

/-- The saved state is the last record of a stream (R365): the import is complete, with the frames of the quota that it carries, and the
partition is active, with every context saved (R305, R358; log 50). -/
def State.importDone (s : State) (p : Nat) (x : SavedPart) : State :=
  match (if s.installOk p x then (s.install p x).requota p x.desc.hbmq else none) with
  | none => s.importFail p
  | some s =>
    let s : State := { s with ctxs := s.ctxs.map fun e =>
      if e.2.part = p && e.2.st = .migrating then (e.1, { e.2 with st := .saved }) else e }
    (s.modPart p fun x => { x with st := .active, planFrom := s.time }).exportEnd p 8 0 p

/-- EXPORT_RECORD (R365, R366, R368): the 4,192 bytes of a page record are accepted, or fail the import; the saved state ends it. -/
def execExportRecord (part : Nat) (r : StreamRec) (s : State) : Res :=
  .next (
    let x := s.part part
    let fs := s.ownFrames part
    if x.st != .migratingIn then s
    else
      match r with
      | .header _ _ => s
      | .saved y => s.importDone part y
      | .page bs =>
        let r := readPage bs
        if bs.length != 4192 || !x.accepts r || fs.length ≤ r.page / 16 then s.importFail part
        else
          (s.writePage part fs r).modPart part fun x => { x with
            majors := smSet 0 x.majors r.page r.major
            minors := r.carried.foldl (fun m i => smSet 0 m (pageLine r.page i) (r.minors.getD i 0)) x.minors })

/-- PART_EXPORT_DONE (R365): the contexts that migrated are scrubbed with the partition (R305). -/
def execPartExportDone (part : Nat) (s : State) : Res :=
  roith 9 [part] s fun s =>
    if (s.part part).st != .migratingOut then cmdNo s 2
    else
      let s : State := { s with ctxs := s.ctxs.map fun e => if e.2.part = part && e.2.st = .migrating then (e.1, { e.2 with st := .scrubbing }) else e }
      cmdOk (s.modPart part fun x => { x with st := .scrubbing })

/-- PART_ABORT (R358, R359): quiescing, migrating out and pre-copying go back to active; an export fails. -/
def execPartAbort (part : Nat) (s : State) : Res :=
  roith 10 [part] s fun s =>
    let st := (s.part part).st
    if st = .free then cmdNo s 2
    else if st = .quiescing || st = .migratingOut || st = .precopying then cmdOk ((s.exportEnd part 7 4 0).unquiesce part)
    else cmdOk s

/-! ### Destruction and scrub (R358, R369, R376) -/

/-- PART_DESTROY: every context is killed (R376). -/
def execPartDestroy (part : Nat) (s : State) : Res :=
  roith 11 [part] s fun s =>
    let st := (s.part part).st
    if st != .active && st != .precopying then cmdNo s 2
    else
      let cs := (s.ctxsOf part).filter fun c => (s.ctx c).st != .killed && (s.ctx c).st != .scrubbing
      cmdOk ((((cs.foldl State.killCtx s).exportEnd part 7 4 0)).modPart part fun x => { x with st := .scrubbing })

/-- A unit of a site has failed its scrub: the site is mapped out, where it is still good; for a partition that goes on with it that is the
failure of a member site (R11, R13, R359, R369). -/
def State.scrubFail (s : State) (p t : Nat) : State :=
  if s.site t != .good then s
  else
    match s.parts.find? fun e => e.2.sites.contains t && !(e.1 = p && e.2.st = .scrubbing) with
    | some e => (s.mapOut t true).siteLost e.1 t
    | none => s.mapOut t true

/-- The units that leave a partition are scrubbed; the site of one that fails is mapped out: that of a site's own units, or the site of the
channel of a frame (R369). -/
def State.scrubUnits (s : State) (p : Nat) (sites frames failed : List Nat) : State :=
  let units := (sites ++ frames.filterMap fun f => s.chanSite (f / 65536)).eraseDups
  let s := sites.foldl (fun s t => s.scrubSite t (s.part p).desc.prot) s
  let s := frames.foldl State.scrubFrame s
  (units.filter failed.contains).foldl (fun s t => s.scrubFail p t) s

/-- Whether nothing is under way on sites any longer. -/
def State.sitesStill (s : State) (sites : List Nat) : Bool :=
  (s.groups.all fun e => e.2.st = .free || e.2.st = .bound || !sites.contains (siteOf e.1))
    && (s.copies.all fun c => !sites.contains c.site && c.recv.all fun r => r.done || r.site.all fun t => !sites.contains t)
    && s.teams.all fun e => !(e.2.st = .transit && sites.contains e.2.site)

/-- PARTITION_SCRUB_COMPLETE (R369): the units that leave a partition return to the free pool, or the whole partition is
free again. -/
def execPartitionScrubComplete (part : Nat) (failed : List Nat) (s : State) : Res :=
  .next (
    let x := s.part part
    if x.st = .scrubbing then
      let all := x.sites ++ x.leaving
      if !s.sitesStill all || (s.ops.any fun o => o.part = part) then s
      else
        let s := ((s.scrubUnits part all (s.ownFrames part) failed).scrubBank part).setTable part []
        let mine := s.ctxsOf part
        { s with
          ctxs := s.ctxs.filter fun e => !mine.contains e.1
          teams := s.teams.filter fun e => !mine.contains e.2.ctx
          repLog := s.repLog.filter fun e => e.1 / 2 ^ 16 != part
          parts := smSet {} s.parts part { gen := x.gen + 1 }
          vfs := smSet {} s.vfs part {} }
    else if x.leaving.isEmpty && x.leavingCh.isEmpty && x.st != .shrinking then s
    else if !s.sitesStill x.leaving then s
    else
      let fs := (s.ownFrames part).filter fun f => x.leavingCh.contains (f / 65536)
      (s.scrubUnits part x.leaving fs failed).modPart part fun x => { x with
        st := if x.st = .shrinking then .active else x.st, planFrom := if x.st = .shrinking then s.time else x.planFrom,
        leaving := [], leavingCh := [], gen := x.gen + 1 })

end Sys2Proof.Machine
end

