-- ==== Sys2Proof/Machine/Manage.lean ====
section
/-!
DEFINITION. Tables of a partition and reports (R191, R202, R214, R318, R331, R334, R346, R347, R350, R370 to R377): routes,
castling plans, replicas, pins, retired pages, peers, keys, the virtual function, attestation, status, boot.
-/

namespace Sys2Proof.Machine

/-- Whether a partition takes the commands on its tables (R358). -/
def State.tablesOpen (s : State) (p : Nat) : Bool := (s.part p).st = .active || (s.part p).st = .precopying

/-! ### Routes and castling plans (R318, R334) -/

/-- ROUTES_SET (R334 to R336). -/
def execRoutesSet (part : Nat) (routes : List Route) (s : State) : Res :=
  roith 12 [part] s fun s =>
    if !s.tablesOpen part then cmdNo s 2
    else if !(routes.all fun r => s.routeOk part r) then cmdNo s 4
    else cmdOk (s.setRoutes part routes)

/-- CASTLE_SET (R318): the intervals are counted from here. -/
def execCastleSet (part : Nat) (plan : CastlePlan) (s : State) : Res :=
  roith 13 [part] s fun s =>
    if !s.tablesOpen part then cmdNo s 2
    else if !s.castleOk part plan then cmdNo s 4
    else cmdOk (s.modPart part fun x => { x with plan, planFrom := s.time })

/-! ### Translations, replicas, pins, pages (R191, R202, R214, R376) -/

/-- PT_INVAL (R191): every TLB drops the range. -/
def execPtInval (part addr len : Nat) (s : State) : Res :=
  roith 14 [part, addr, len] s fun s => if (s.part part).st = .free then cmdNo s 2 else cmdOk (s.tlbDrop part addr len)

/-- Bytes of a page with their poison made those of another. -/
def State.copyPage (s : State) (a b n : Nat) : State :=
  if a = b then s
  else
    let t := (zeroBytes s .hbm b n).noteLines ((List.range (n / 64)).map fun i => b / 64 + i)
    { t with
      mem := (s.mem.filter fun e => a ≤ e.1 && e.1 < a + n).foldl (fun m e => memSet m (e.1 - a + b) e.2) t.mem
      mpoi := (s.mpoi.filter fun e => a / 8 ≤ e.1 && e.1 < (a + n) / 8).foldl (fun m e => smSet false m (e.1 - a / 8 + b / 8) e.2) t.mpoi }

/-- REPLICA_SET (R202): the channels of an index, the first with an L2 slice; each replica takes the contents of the
sequencer's copy, with every write that it has ordered. -/
def execReplicaSet (part idx : Nat) (chans : List Nat) (s : State) : Res :=
  roith 15 [part, idx] s fun s =>
    if !s.tablesOpen part then cmdNo s 2
    else if 8192 ≤ idx || 8 < chans.length || !distinct chans || !(chans.all (s.part part).chans.contains) then cmdNo s 1
    else if !(chans.head?.all fun c => s.hasL2 c) then cmdNo s 4
    else
      let pages := ((s.leaves part).filter fun x => leafRep x.1 = some idx).map fun x => (leafFrame x.1 * 65536, x.2)
      let s := chans.foldl (fun t c =>
        pages.foldl (fun t x => t.copyPage (s.seqPa part (some idx) x.1) (repPa x.1 c) x.2) t) s
      let s : State := { s with repLog := s.repLog.filter fun e => e.1 / 8 != part * 2 ^ 13 + idx }
      cmdOk (s.modPart part fun x => { x with replicas := smSet [] x.replicas idx chans })

/-- The L2 lines of device memory that a range of a partition's addresses names, at most `fuel`. -/
def State.linesOf (s : State) (p : Nat) : Nat → Nat → List Nat
  | 0, _ => []
  | n + 1, va =>
    (match s.walk p va with
      | some (e, _, size) => if leafTgt e = 0 then [s.seqPa p (leafRep e) (leafPa e size va) / 256] else []
      | none => []) ++ s.linesOf p n (va + 256)

/-- PIN_RELEASE (R214, R376): VALUE is the count of lines unpinned. -/
def execPinRelease (part addr len : Nat) (s : State) : Res :=
  roith 16 [part, addr, len] s fun s =>
    if !s.tablesOpen part then cmdNo s 2
    else
      let n := if len = 0 then 0 else (addr + len - 1) / 256 - addr / 256 + 1
      let ls := (s.linesOf part n (addr / 256 * 256)).filter fun l => (smGet {} s.l2 l).pin = some part
      (ls.foldl (fun s l => let s := s.l2Clean noCtx l
                            { s with l2 := smMod {} s.l2 l fun x => { x with pin := none } }) s, 0, ls.eraseDups.length)

/-- PAGE_RETIRE (R193, R203, R376): the contents of a frame go to frame `into`, and the old frame is mapped out. -/
def execPageRetire (part frame into : Nat) (s : State) : Res :=
  roith 17 [part, frame] s fun s =>
    let p := s.part part
    let owner (f : Nat) : Nat := smGet 0 s.owner f
    let fixed := (rootFrames p.root).contains frame || (s.leaves part).any fun x =>
      let b := leafFrame x.1
      (x.2 != 65536 && b ≤ frame && frame < b + x.2 / 65536)
        || (match leafRep x.1 with
            | some i => (s.repChans part i).contains (frame / 65536) && b % 65536 ≤ frame % 65536
                          && frame % 65536 < b % 65536 + x.2 / 65536
            | none => false)
    let room := frame != into && p.chans.contains (into / 65536) && into % 65536 < s.chanFrames (into / 65536) && !s.retired.contains into
      && (owner into = 0 || (owner into = part + 1 && !s.frameUsed part into))
    if !s.tablesOpen part then cmdNo s 2
    else if owner frame != part + 1 then cmdNo s 1
    else if s.l2.any (fun e => e.1 / 256 = frame && e.2.pin.isSome) then cmdNo s 2
    else if fixed then cmdNo s 4
    else if !room then cmdNo s 3
    else
      let s := s.moveFrames part [(frame, into)] id
      cmdOk { s with retired := frame :: s.retired }

/-! ### Peers and keys (R346, R347) -/

/-- Whether the fields of a peer record lie in their ranges. -/
def peerFits (r : PeerRec) : Bool :=
  r.module < 2 ^ 18 && r.rpart < 128 && r.rctx < 4096 && r.port < 144 && r.altport < 144 && r.rgrid < 2 ^ 32 && r.expbase < 2 ^ 56
    && r.expbase % 65536 = 0 && r.expsize < 2 ^ 24

/-- PEER_SET (R347). -/
def execPeerSet (part entry : Nat) (peer : PeerRec) (s : State) : Res :=
  roith 18 [part, entry] s fun s =>
    if !s.tablesOpen part then cmdNo s 2
    else if 256 ≤ entry || !peerFits peer then cmdNo s 1
    else cmdOk (s.modPart part fun x => { x with peers := smSet {} x.peers entry peer })

/-- KEY_SET (R346): a key for the streams to a peer partition over a port; streams that a failed tag closed reopen. -/
def execKeySet (part peer port : Nat) (key : Word) (s : State) : Res :=
  roith 19 [part, peer, port] s fun s =>
    if !s.tablesOpen part then cmdNo s 2
    else if 128 ≤ peer || 144 ≤ port then cmdNo s 1
    else
      cmdOk (s.modPart part fun x => { x with
        keys := smSet none x.keys (256 * peer + port) (some key)
        closedStreams := x.closedStreams.filter fun c =>
          !(c.1 % 128 = peer && (c.2 = port || x.peers.any fun e => e.2.valid && streamKey e.2.module e.2.rpart = c.1
              && (e.2.port = port || (e.2.altv && e.2.altport = port)))) })

/-! ### The virtual function (R350, R370) -/

/-- VF_BIND (R350, R370): the function's port, and the context of its launch window. -/
def execVfBind (part port ctx : Nat) (force : Bool) (s : State) : Res :=
  roithForce 20 (some force) [part, port, ctx] s fun s =>
    if (s.part part).st != .active || s.tdispBars part force then cmdNo s 2
    else if port < 144 || 151 < port || 4096 ≤ ctx then cmdNo s 1
    else if (s.ctx ctx).st = .destroyed || (s.ctx ctx).part != part then cmdNo s 2
    else
      cmdOk (((s.tdispForce part).modVf part fun v => { v with
        port, ctx := some ctx, ide := v.ide && v.port = port }).modPart part fun x => { x with port })

/-- LOCK_INTERFACE (R370). -/
def execLockInterface (vf : Nat) (s : State) : Res :=
  .next (s.modVf vf fun v =>
    if v.tdisp = .unlocked && v.ide && (s.part vf).desc.prot && (s.part vf).st = .active then { v with tdisp := .locked } else v)

/-- START_INTERFACE (R370). -/
def execStartInterface (vf : Nat) (s : State) : Res :=
  .next (s.modVf vf fun v => if v.tdisp = .locked then { v with tdisp := .run } else v)

/-- STOP_INTERFACE (R370). -/
def execStopInterface (vf : Nat) (s : State) : Res := .next (s.modVf vf fun v => { v with tdisp := .unlocked })

/-! ### The wafer record (R13, R374) -/

/-- The number of good sites. -/
def State.goodSites (s : State) : Nat := 4608 - s.sites.countP fun e => e.1 < 4608 && e.2 != .good

/-- Whether the module is degraded (R13). -/
def State.degraded (s : State) : Bool := s.goodSites < 4480

/-- The eight bytes of an entry. -/
def entryBytes (e : WaferEntry) : List Byte :=
  leBytes 8 (e.chan % 2 ^ 16 * 2 ^ 48 + e.frames % 2 ^ 14 * 2 ^ 34 + e.trim.toNat * 4 + e.state % 4)

/-- The base record: a 64-byte header, whose fields after MAGIC stand in the order of R374 (log 52), and an entry per
site. -/
def recordBytes (f : Flash) : List Byte :=
  leBytes 4 0x52574648 ++ leBytes 4 f.version ++ leBytes 8 f.gen ++ leBytes 8 f.module ++ List.replicate 40 0
    ++ (List.range 4608).flatMap fun t => entryBytes (f.base t)

/-- Bytes that the spec gives no value for and that do not change. -/
def fixedBytes (base n : Nat) : List Byte := (List.range n).map fun i => (Config.freeWord (2 ^ 60 + base + i)).truncate 8

/-- An amendment: the digest of the record it amends, its entries, each after its site number, and a signature (log 52). -/
def amendBytes (i : Nat) (before : List Byte) (es : List (Nat × WaferEntry)) : List Byte :=
  digestBytes (sha256 before) ++ leBytes 8 es.length ++ (es.flatMap fun e => leBytes 8 e.1 ++ entryBytes e.2) ++ fixedBytes (2 ^ 40 + 2 ^ 16 * i) 7856

/-- The record with its amendments. -/
def wholeRecord (f : Flash) : List Byte := f.amendments.zipIdx.foldl (fun r a => r ++ amendBytes a.2 r a.1) (recordBytes f)

/-- WREC_READ (R374, R376). -/
def execWrecRead (s : State) : Res := roith 0x33 [] s fun s => cmdOk (s.emit (.data (wholeRecord s.flash)))

/-! ### Reports (R331, R371, R372, R377) -/

/-- STATUS (R377): the status block of a partition; VALUE tells a degraded module (R13; log 51). -/
def execStatus (part : Nat) (s : State) : Res :=
  roith 0x31 [part] s fun s =>
    let p := s.part part
    if p.st = .free then cmdNo s 2
    else
      let n : Nat := match p.st with
        | .free => 0 | .carving => 1 | .active => 2 | .growing => 3 | .shrinking => 4 | .compacting => 5 | .quiescing => 6
        | .migratingOut => 7 | .migratingIn => 8 | .scrubbing => 9 | .precopying => 10
      (s.emit (.data (leBytes 4 n ++ leBytes 4 p.gen.toNat ++ leBytes 4 p.tagdrop.toNat ++ leBytes 4 p.routedrop.toNat
        ++ leBytes 4 (s.pinned part) ++ leBytes 4 (s.ownFrames part).length)), 0, s.degraded.toNat)

/-- LOG_READ (R331): tag, source site and channel of each entry of a drop log, the oldest first (log 51). -/
def execLogRead (site : Nat) (s : State) : Res :=
  roith 0x32 [site] s fun s =>
    if 4608 ≤ site then cmdNo s 1
    else cmdOk (s.emit (.data ((s.router site).log.reverse.flatMap fun e => leBytes 4 e.1 ++ leBytes 4 e.2.1 ++ leBytes 4 e.2.2)))

/-- The bytes of a castling plan (R318). -/
def planBytes (p : CastlePlan) : List Byte :=
  leBytes 8 (p.rings.length * 256 + p.interval)
    ++ p.rings.flatMap fun r => leBytes 16 (r.zipIdx.foldl (fun n x => n + x.1 * 2 ^ (8 + 13 * x.2)) r.length)

/-- A bitmap of `n` bytes with these bits set. -/
def bitmap (n : Nat) (l : List Nat) : List Byte := leBytes n ((l.eraseDups.filter (· < 8 * n)).map fun i => 2 ^ i).sum

/-- The shape report (R372); the digest of the route table, whose bytes the spec does not lay out, is a free value of the tables, and what a
physical function reports of no partition is free (log 51). -/
def State.shapeReport (s : State) (p : Option Nat) : State × List Byte :=
  let d : Byte := if s.degraded then 2 else 0
  match p with
  | some n =>
    let x := s.part n
    (s, leBytes 2 n ++ [d ||| (if x.desc.prot then 1 else 0), 0] ++ leBytes 4 x.gen.toNat ++ bitmap 576 x.sites ++ bitmap 576 x.chans
      ++ leBytes 32 (Config.routeDigest x.table x.routes) ++ digestBytes (sha256 (planBytes x.plan)) ++ leBytes 8 s.flash.gen)
  | none =>
    let r := s.freeBytes 1220
    (r.1, leBytes 2 0xFFFF ++ [d, 0] ++ r.2 ++ leBytes 8 s.flash.gen)

/-- The public key of the module, 32 bytes (R371; no rule gives it, log 51). -/
def publicKey : List Byte := fixedBytes (2 ^ 50) 32

/-- The answer to a measurement request: the block, its SLH-DSA-SHA2-128s signature of 7,856 bytes and the public key (R371, log 51). -/
def State.measure (s : State) (block : List Byte) : State :=
  s.emit (.measurement block (leBytes 7856 (Config.signature (leNat block))) publicKey)

/-- SPDM_REQUEST (R371): the measurement block of an index; the Roith image is the one that booted (R373). Index 256, which no block has,
stands for the exchange that puts an IDE stream on a virtual function (log 53). -/
def execSpdmRequest (req : SpdmReq) (s : State) : Res :=
  .next (
    if !s.booted then s
    else
      match req.index with
      | 1 => s.measure (fixedBytes 0 32)
      | 2 => s.measure (fixedBytes (if s.flash.imageA then 32 else 64) 32)
      | 3 => s.measure (digestBytes (sha256 (wholeRecord s.flash)))
      | 4 => let r := s.shapeReport (if req.virt then some req.fnum else none); r.1.measure r.2
      | 5 =>
        s.measure (match (if req.virt then (s.vf req.fnum).ctx else none) with
          | some c => (s.ctx c).log.flatMap digestBytes
          | none => [])
      | 256 => if req.virt then s.modVf req.fnum fun v => { v with ide := true } else s
      | _ => s)

/-! ### Boot (R373) -/

/-- The site states that a record gives (R373). -/
def Flash.siteMap (f : Flash) : SMap SiteState :=
  ((f.entries.map Prod.fst ++ f.changes.map Prod.fst).filter (· < 4608)).foldl (fun m t =>
    smSet .good m t (match (f.entry t).state with | 0 => .good | 1 => .spare | 2 => .mappedOut | _ => .hole)) []

/-- MODULE_RESET (R373): nothing but flash survives; without a good Roith image or base record the module stays in reset
with status 4. -/
def execModuleReset (s : State) : Res :=
  .next (
    let r : State := { State.reset with flash := s.flash, agenda := s.agenda, out := s.out, freeCtr := s.freeCtr, nextId := s.nextId }
    if !(s.flash.imageA || s.flash.imageB) || !s.flash.baseOk then { r with bootCode := 4 }
    else
      let r : State := { r with booted := true, sites := s.flash.siteMap }
      let holes := (r.sites.filter fun e => e.2 = .hole).map Prod.fst
      holes.foldl (fun r t => (r.linksDown t).portsDown t) r)

end Sys2Proof.Machine
end

