-- ==== Sys2Proof/Machine/Power.lean ====
section
/-!
DEFINITION. Power (R378, R381 to R386): the control interval, the fast limiter, the power block, tempo, energy.
-/

namespace Sys2Proof.Machine

/-- Changes every good and spare tile of the module. -/
def State.everyTile (s : State) (f : Nat → Tile → Tile) : State :=
  { s with tiles := (List.range 4608).filterMap fun t =>
      let x := if s.site t = .good || s.site t = .spare then f t (s.tile t) else s.tile t
      if x = {} then none else some (t, x) }

/-- The control word takes effect (R382): GMAX above 6 acts as 6, LMAX 3 as 2, LMIN above LMAX as LMAX; the settings are
clamped. -/
def Tile.control (x : Tile) : Tile :=
  let lmax := min 2 (bits x.ctl 2 2)
  let x := { x with gmax := min 6 (bits x.ctl 8 4), lmax, lmin := min lmax (bits x.ctl 0 2) }
  { x with ration := min x.ration x.gmax, lclk := max x.lmin (min x.lclk x.lmax) }

/-- The ration within 1 to GMAX; 0 where GMAX is 0. -/
def Tile.setRation (x : Tile) (r : Nat) : Tile := { x with ration := if x.gmax = 0 then 0 else max 1 (min x.gmax r) }

/-- One step of the table of R381, with power in units of 10 W and temperature in degrees. -/
def Tile.govern (x : Tile) (pnow avg plim temp : Nat) : Tile :=
  let down (x : Tile) : Tile := { x with lclk := max x.lmin (x.lclk - 1) }
  if 2950 ≤ pnow then down (x.setRation (x.ration - 2))
  else if plim < avg then if x.ration = 1 then down x else x.setRation (x.ration - 1)
  else if 95 ≤ temp then down (x.setRation x.ration)
  else if temp ≤ 85 && 20 * avg ≤ 19 * plim then
    if x.gmax ≤ x.ration then { x.setRation x.ration with lclk := min x.lmax (x.lclk + 1) } else x.setRation (x.ration + 1)
  else x.setRation x.ration

/-- The floor of a tile for the next interval (R384): its power less its share of 0.05 PLIM. -/
def floorOf (p pnow plim : Nat) : Nat := p - p * plim / (20 * pnow)

/-- The sustained limit: a PLIM above 2,700 acts as 2,700 (R383). -/
def State.limit (s : State) : Nat := min 2700 s.plim

/-- The average of PNOW over 100 ms, the last 10,000 control intervals; where fewer have passed the spec does not say over what, and `early`
is the value (R381; log 116). -/
def State.average (s : State) (early : Nat) : Nat := if s.pnows.length < 10000 then early else s.pnows.sum / 10000

/-- PNOW at the end of an interval in which the work of the module drew `work`: the ballast of the tiles lifts it to their floors, so that it
falls by 0.05 PLIM at most (R384; log 116). -/
def State.nextPnow (s : State) (work : Nat) : Nat := max work (s.pnow - s.limit / 20)

/-- CONTROL_INTERVAL (R381, R384): once every 18,000 FCLK each good and spare tile applies its control word, one row of the
table, and tempo. `pnow` is what the work of the module has drawn. -/
def execControlInterval (pnow avg : Nat) (samples : List PowerSample) (s : State) : Res :=
  .next (
    if s.time.toNat % 18000 != 0 || s.ctlAt = s.time.toNat + 1 then s
    else
      let old := s.pnow
      let plim := s.limit
      let now := s.nextPnow pnow
      let s : State := { s with pnow := now, pnows := (now :: s.pnows).take 10000, ctlAt := s.time.toNat + 1, limited := false }
      s.everyTile fun t x =>
        let m : PowerSample := (samples.find? fun y => y.site = t).getD { site := t, temp := x.temp, power := x.power }
        let fl := floorOf x.power old plim
        { (x.control.govern now (s.average avg) plim m.temp) with
          temp := min 255 m.temp, tempo := m.power < fl, power := max m.power fl })

/-- FAST_LIMITER_SAMPLE (R381): at 29.5 kW or more every ration is 1, and 0 where GMAX is 0. -/
def execFastLimiterSample (watts : Nat) (s : State) : Res :=
  .next (if watts < 29500 then s else { s.everyTile fun _ x => x.setRation 1 with limited := true })

/-- POWER_CONTROL_WRITE (R382): the fields are set, and take effect at the next interval. -/
def execPowerControlWrite (site : Nat) (value : Word) (s : State) : Res :=
  .next (if 4608 ≤ site then s else s.modTile site fun x => { x with ctl := value &&& 0xF0F })

/-- The energy of one tile is divided among its contexts and OVHD (R386). -/
def State.account (s : State) (m : EnergySample) : State :=
  let occ := (s.tile m.site).occ.filter fun e => (s.ctx e.1).st != .destroyed
  let total := ((s.tile m.site).occ.map Prod.snd).sum
  let work := m.energy - m.ballast
  let share (n : Nat) : Nat := if total = 0 then 0 else work * n / total
  let given := (occ.map fun e => share e.2).sum
  let s := occ.foldl (fun s e => s.modCtx e.1 fun x => { x with energy := x.energy + BitVec.ofNat 64 (share e.2) }) s
  let s := s.modTile m.site fun x => { x with energy := x.energy + BitVec.ofNat 64 m.energy }
  { s with ovhd := s.ovhd + BitVec.ofNat 64 (m.energy - given) }

/-- ENERGY_ACCOUNTING (R386): every 1 ms; the slot-FCLK of each tile start anew. -/
def execEnergyAccounting (samples : List EnergySample) (s : State) : Res :=
  .next (
    if s.time.toNat % 1800000 != 0 then s
    else
      let s := samples.foldl State.account s
      { s with tiles := (s.tiles.map fun e => (e.1, { e.2 with occ := [] })).filter fun e => e.2 != {} })

end Sys2Proof.Machine
end

