-- ==== Sys2Proof/Machine/Resume.lean ====
section
/-!
DEFINITION. Instructions that go on when what held them ends (R94, R162, R167, R247, R255).
-/

namespace Sys2Proof.Machine

/-- The group-synchronous instructions (R92, R94). -/
def syncGo (maj : BitVec 7) (f : Fields) : Option (State → State) :=
  if maj = 0x1E then some fun s => issueSync 0x1E f s voteBody
  else if maj = 0x54 && f.fn = 2 then some fun s => issueSync 0x54 f s bcastBody
  else if maj = 0x55 then some fun s => issueSync 0x55 f s rscanBody
  else if maj = 0x56 then some fun s => issueSync 0x56 f s rredBody
  else if maj = 0x59 then some fun s => issueSync 0x59 f s mmaBody
  else if maj = 0x69 && f.fn = 1 then some fun s => issueSync 0x69 f s barvBody
  else if maj = 0x69 && f.fn = 2 then some fun s => issueSync 0x69 f s baraBody
  else none

/-- GROUP_SYNC_EXECUTE: every live lane is parked at one group-synchronous instruction, which executes at the next issue
that the group receives (R94): when an issue slot has chosen it (R308). -/
def execGroupSyncExecute (k : Nat) (s : State) : Res :=
  .next (
    let g := s.grp k
    if !s.turns.contains k || !g.mayIssue s.time || !(g.select.any fun x => x.sync) then s
    else
      let s := { s with turns := s.turns.erase k }
      match s.boundary k with
      | (s1, false) => s1
      | (s1, true) =>
        match ({ s1 with cur := k } : State).fetchIssue k with
        | (s2, .form maj f) => (match syncGo maj f with | some h => h (s2.readRegs maj f) | none => s)
        | (s2, .walks ns) => s2.fetchWait k ns
        | _ => s)

/-- The copy instructions and XSEND, which wait for the engine, the batch or the range scoreboard (R247, R255, R339). -/
def copyGo (maj : BitVec 7) (f : Fields) : Option (State → State) :=
  if maj = 0x6B && f.fn = 0 then some fun s => issueWith 0x6B f s (copyBody .plain)
  else if maj = 0x6B && f.fn = 1 then some fun s => issueWith 0x6B f s (copyBody .multicast)
  else if maj = 0x6B && f.fn = 2 then some fun s => issueWith 0x6B f s (copyBody .follow)
  else if maj = 0x71 then some fun s => issueWith 0x71 f s xsendBody
  else none

/-- COPY_ADMIT (R247): the copy that was held issues now, in no lane wait (R380). -/
def execCopyAdmit (k : Nat) (s : State) : Res :=
  .next (if (s.core (coreOf k)).wait then s else s.resume k [.engine, .range] copyGo)

/-- RANGE_HOLD_RELEASE (R209, R255). -/
def execRangeHoldRelease (k : Nat) (s : State) : Res :=
  .next (if (s.core (coreOf k)).wait then s else s.resume k [.range] fun maj f =>
    if maj = 0x61 && f.fn = 0 then some fun s => issueWith 0x61 f s (moveBody .lds)
    else if maj = 0x61 && f.fn = 1 then some fun s => issueWith 0x61 f s (moveBody .sts)
    else if maj = 0x66 then some fun s => issueWith 0x66 f s (atomBody .atoms)
    else copyGo maj f)

/-- ACC_ALLOC_GRANT (R162): at the end of an FCLK, after the AALLOCs that issued in it, a freed accumulator goes to the
waiting group in the lowest slot of the core. -/
def execAccAllocGrant (k : Nat) (s : State) : Res :=
  .next (
    if s.stage != .closing then s
    else s.resume k [.aalloc] fun maj f =>
      if maj = 0x58 && f.fn = 0 then some fun s => issueWith 0x58 f s aallocBody else none)

/-- ACC_HOLD_RELEASE (R161, R163, R167): the earlier MMAs on the name have completed. -/
def execAccHoldRelease (k : Nat) (s : State) : Res :=
  .next (s.resume k [.accBusy] fun maj f =>
    if maj = 0x58 && f.fn = 1 then some fun s => issueWith 0x58 f s afreeBody
    else if maj = 0x58 && f.fn = 2 then some fun s => issueWith 0x58 f s azeroBody
    else if maj = 0x5A && f.fn = 0 then some fun s => issueWith 0x5A f s ardBody
    else if maj = 0x5A && f.fn = 1 then some fun s => issueWith 0x5A f s awrBody
    else if maj = 0x5A && f.fn = 2 then some fun s => issueWith 0x5A f s aksBody
    else none)

end Sys2Proof.Machine
end

