-- ==== Sys2Proof/Machine/Special.lean ====
section
/-!
DEFINITION. Special functions 0x44 to 0x4C (R139, R140): the special cases, the correctly rounded rows,
and for the other rows the device's own bits, a free value that is taken where it lies within the bound
of R140, and the nearest code otherwise (log 9). Functions are evaluated in fixed point with 420
fraction bits.
-/

namespace Sys2Proof.Machine

/-! ### Fixed point -/

/-- Fraction bits of the evaluation. -/
def fxBits : Nat := 420
/-- One. -/
def fxOne : Int := 2 ^ fxBits
/-- The natural logarithm of 2. -/
def fxLn2 : Int := 0xb17217f7d1cf79abc9e3b39803f2f6af40f343267298b62d8a0d175b8baafa2be7b876206debac98559552fb4afa1b10ed2eae35c
/-- Two times pi. -/
def fxTwoPi : Int := 0x6487ed5110b4611a62633145c06e0e68948127044533e63a0105df531d89cd9128a5043cc71a026ef7ca8cd9e69d218d98158536f9

/-- Product of two fixed-point numbers. -/
def fxMul (a b : Int) : Int := a * b / fxOne

/-- ± m × 2^e with e at least −420. -/
def fxOf (neg : Bool) (m : Nat) (e : Int) : Int :=
  let x : Int := m * 2 ^ (e + fxBits).toNat
  if neg then -x else x

/-- The Taylor series of the exponential from term `k`. -/
def fxExpSeries (r : Int) : Nat → Int → Int → Int → Int
  | 0, _, _, acc => acc
  | n + 1, k, t, acc =>
    let t' := fxMul t r / k
    fxExpSeries r n (k + 1) t' (acc + t')

/-- e^r for r between 0 and ln 2. -/
def fxExpSmall (r : Int) : Int := fxExpSeries r 80 1 fxOne fxOne

/-- A shift by a signed count. -/
def fxShift (x : Int) (n : Int) : Int := if 0 ≤ n then x * 2 ^ n.toNat else x / 2 ^ (-n).toNat

/-- e^y. -/
def fxExp (y : Int) : Int := fxShift (fxExpSmall (y % fxLn2)) (y / fxLn2)

/-- The alternating series of sine (from term r, k = 2) and cosine (from 1, k = 1). -/
def fxTrig (r2 : Int) : Nat → Int → Int → Int → Int
  | 0, _, _, acc => acc
  | n + 1, k, t, acc =>
    let t' := -(fxMul t r2 / (k * (k + 1)))
    fxTrig r2 n (k + 2) t' (acc + t')

/-- The argument of a trigonometric function, between −pi and pi. -/
def fxReduce (x : Int) : Int :=
  let r := x % fxTwoPi
  if fxTwoPi < 2 * r then r - fxTwoPi else r

/-- sin x. -/
def fxSin (x : Int) : Int := let r := fxReduce x; fxTrig (fxMul r r) 60 2 r r
/-- cos x. -/
def fxCos (x : Int) : Int := let r := fxReduce x; fxTrig (fxMul r r) 60 1 fxOne fxOne

/-- Fraction bits of a logarithm by repeated squaring of y, between 1 and 2: the bits found so far. -/
def fxLogBits : Nat → Int → Int → Int
  | 0, _, acc => acc
  | n + 1, y, acc =>
    let y := fxMul y y
    if 2 * fxOne ≤ y then fxLogBits n (y / 2) (2 * acc + 1) else fxLogBits n y (2 * acc)

/-- log₂ of m × 2^e. -/
def fxLog2 (m : Nat) (e : Int) : Int :=
  let p := Nat.log2 m
  ((p : Int) + e) * fxOne + fxLogBits 110 (fxOf false m (-(p : Int))) 0 * 2 ^ (fxBits - 110)

/-- Integer square root by bits from bit n − 1 down. -/
def isqrtBits (x : Nat) : Nat → Nat → Nat
  | 0, r => r
  | n + 1, r => let t := r + 2 ^ n; if t * t ≤ x then isqrtBits x n t else isqrtBits x n r

/-- Integer square root. -/
def isqrt (x : Nat) : Nat := isqrtBits x (Nat.log2 x / 2 + 1) 0

/-! ### Delivery (R140) -/

/-- How close a delivered result must be: ulps of the destination at the exact result, or an absolute
error 2^−t; `both` takes the larger. -/
inductive Bound where
  | ulp (k : Nat)
  | abs (t : Nat)
  | both (k t : Nat)
deriving DecidableEq, Repr

/-- The ulp of a format at the fixed-point number a, in fixed point. -/
def Fmt.ulpAt (fm : Fmt) (a : Int) : Int :=
  fxOf false 1 (max ((Nat.log2 a.natAbs : Int) - fxBits - fm.mb) (1 - fm.bias - fm.mb))

/-- A bound in fixed point. -/
def Bound.at (b : Bound) (fm : Fmt) (a : Int) : Int :=
  match b with
  | .ulp k => k * fm.ulpAt a
  | .abs t => fxOf false 1 (-(t : Int))
  | .both k t => max (k * fm.ulpAt a) (fxOf false 1 (-(t : Int)))

/-- Whether a code lies within the bound of the exact result, whose evaluation `a` errs by less than
2^−90 for a logarithm and 2^−250 otherwise (`slack`). -/
def Fmt.within (fm : Fmt) (b : Bound) (slack : Nat) (a : Int) (c : Nat) : Bool :=
  match fm.val c with
  | .fin neg m e => ((fxOf neg m e - a).natAbs : Int) + fxOf false 1 (-(slack : Int)) ≤ b.at fm a
  | _ => false

/-- The nearest code of a fixed-point number. -/
def Fmt.nearest (fm : Fmt) (a : Int) : Nat :=
  if a = 0 then 0 else (fm.round 0 0 true (a < 0) a.natAbs (-(fxBits : Int))).1

/-- The delivered code: the device's own where it meets the bound (log 9). -/
def Fmt.deliver (fm : Fmt) (b : Bound) (slack : Nat) (a : Int) (own : Nat) : Nat :=
  if fm.within b slack a (own % 2 ^ fm.w) then own % 2 ^ fm.w else fm.nearest a

/-- Flags of a row that is not correctly rounded: NX, and UF for a subnormal or zero result. -/
def Fmt.inexact (fm : Fmt) (c : Nat) : Nat × BitVec 6 :=
  (c, if c % fm.sgn < 2 ^ fm.mb then fUF ||| fNX else fNX)

/-! ### The functions (R139, R140) -/

/-- The type number of a format for the free bits: 0 f32, 1 bf16, 2 f16. -/
def Fmt.num (fm : Fmt) : Nat := if fm.w = 32 then 0 else if fm.mb = 7 then 1 else 2

/-- One, as a code. -/
def Fmt.one (fm : Fmt) : Nat := fm.bias * 2 ^ fm.mb

/-- FRCP: correctly rounded. -/
def sfRcp (fm : Fmt) (x : Nat) : Nat × BitVec 6 :=
  match fm.val x with
  | .nan => (fm.canon, 0)
  | .inf neg => (fm.signed neg 0, 0)
  | .fin neg m e =>
    if m = 0 then (fm.signed neg fm.infCode, fDZ)
    else
      let n := 2 ^ 100 / m
      fm.round 0 0 false neg (2 * n + (if 2 ^ 100 % m = 0 then 0 else 1)) (-e - 101)

/-- The square root of m × 2^e as an integer with a sticky bit times a power of two. -/
def sqrtDyadic (m : Nat) (e : Int) : Nat × Int :=
  let m' := if e % 2 = 0 then m else 2 * m
  let e' := if e % 2 = 0 then e else e - 1
  let x := m' * 2 ^ 120
  let r := isqrt x
  (2 * r + (if r * r = x then 0 else 1), (e' - 120) / 2 - 1)

/-- FSQRT: correctly rounded. -/
def sfSqrt (fm : Fmt) (x : Nat) : Nat × BitVec 6 :=
  match fm.val x with
  | .nan => (fm.canon, 0)
  | .inf neg => if neg then (fm.canon, fNV) else (fm.infCode, 0)
  | .fin neg m e =>
    if m = 0 then (fm.signed neg 0, 0)
    else if neg then (fm.canon, fNV)
    else let (n, q) := sqrtDyadic m e; fm.round 0 0 false false n q

/-- 1/√(m × 2^e) as an integer with a sticky bit times a power of two. -/
def rsqDyadic (m : Nat) (e : Int) : Nat × Int :=
  let m' := if e % 2 = 0 then m else 2 * m
  let e' := if e % 2 = 0 then e else e - 1
  let y := 2 ^ 200 / m'
  let r := isqrt y
  (2 * r + (if r * r * m' = 2 ^ 200 then 0 else 1), -e' / 2 - 101)

/-- FRSQ: correctly rounded in 16-bit types, 1 ulp in f32, exact for a power of four. -/
def sfRsq (fm : Fmt) (x : Nat) : Nat × BitVec 6 :=
  match fm.val x with
  | .nan => (fm.canon, 0)
  | .inf neg => if neg then (fm.canon, fNV) else (0, 0)
  | .fin neg m e =>
    if m = 0 then (fm.signed neg fm.infCode, fDZ)
    else if neg then (fm.canon, fNV)
    else
      let (n, q) := rsqDyadic m e
      let near := fm.round 0 0 false false n q
      if fm.w = 16 || near.2 = 0 then near
      else fm.inexact (fm.deliver (.ulp 1) 250 (fxOf false n q) (Config.specialBits 0 fm.num x))

/-- FEXP2. -/
def sfExp2 (fm : Fmt) (x : Nat) : Nat × BitVec 6 :=
  match fm.val x with
  | .nan => (fm.canon, 0)
  | .inf neg => (if neg then 0 else fm.infCode, 0)
  | .fin neg m e =>
    if m = 0 then (fm.one, 0)
    else
      let y := clampTo (-1000 * fxOne) (1000 * fxOne) (fxOf neg m (min e 400))
      let n := y / fxOne
      if (fm.bias : Int) < n then (fm.infCode, fOF ||| fNX)
      else if y % fxOne = 0 && (1 - fm.bias - fm.mb : Int) ≤ n then fm.round 0 0 false false 1 n
      else
        let a := fxShift (fxExpSmall (fxMul (y % fxOne) fxLn2)) n
        fm.inexact (fm.deliver (.ulp (if fm.w = 32 then 2 else 1)) 250 a (Config.specialBits 1 fm.num x))

/-- FLOG2: absolute bound where 0.5 ≤ x ≤ 2. -/
def sfLog2 (fm : Fmt) (x : Nat) : Nat × BitVec 6 :=
  match fm.val x with
  | .nan => (fm.canon, 0)
  | .inf neg => if neg then (fm.canon, fNV) else (fm.infCode, 0)
  | .fin neg m e =>
    if m = 0 then (fm.signed true fm.infCode, fDZ)
    else if neg then (fm.canon, fNV)
    else
      let p : Int := Nat.log2 m + e
      if m = 2 ^ Nat.log2 m then fm.round 0 0 false (p < 0) p.natAbs 0
      else
        let b := if p = -1 || p = 0 then Bound.abs (if fm.w = 32 then 22 else if fm.mb = 7 then 9 else 12)
                 else Bound.ulp (if fm.w = 32 then 2 else 1)
        fm.inexact (fm.deliver b 90 (fxLog2 m e) (Config.specialBits 2 fm.num x))

/-- FSIN and FCOS: an absolute bound for every finite operand. -/
def sfTrig (isCos : Bool) (fm : Fmt) (x : Nat) : Nat × BitVec 6 :=
  match fm.val x with
  | .nan => (fm.canon, 0)
  | .inf _ => (fm.canon, fNV)
  | .fin neg m e =>
    if m = 0 then (if isCos then fm.one else fm.signed neg 0, 0)
    else
      let y := fxOf neg m e
      fm.inexact (fm.deliver (.abs (if fm.w = 32 then 21 else if fm.mb = 7 then 9 else 11)) 250
        (if isCos then fxCos y else fxSin y) (Config.specialBits (if isCos then 4 else 3) fm.num x))

/-- FTANH. -/
def sfTanh (fm : Fmt) (x : Nat) : Nat × BitVec 6 :=
  match fm.val x with
  | .nan => (fm.canon, 0)
  | .inf neg => (fm.signed neg fm.one, 0)
  | .fin neg m e =>
    if m = 0 then (fm.signed neg 0, 0)
    else
      let y := fxOf false m (min e 10)
      let t := if 200 * fxOne < y then fxOne - 1
               else let q := fxExp (2 * y); (q - fxOne) * fxOne / (q + fxOne)
      fm.inexact (fm.deliver (if fm.w = 32 then .both 2 22 else .ulp 1) 250 (if neg then -t else t)
        (Config.specialBits 5 fm.num x))

/-- FSIGM. -/
def sfSigm (fm : Fmt) (x : Nat) : Nat × BitVec 6 :=
  match fm.val x with
  | .nan => (fm.canon, 0)
  | .inf neg => (if neg then 0 else fm.one, 0)
  | .fin neg m e =>
    if m = 0 then (fm.one - 2 ^ fm.mb, 0)
    else
      let q := fxExp (clampTo (-400 * fxOne) 0 (-(fxOf false m (min e 10))))
      let t := (if neg then q else fxOne) * fxOne / (fxOne + q)
      fm.inexact (fm.deliver (.ulp (if fm.w = 32 then 2 else 1)) 250 t (Config.specialBits 6 fm.num x))

/-- A special function on every element of A; B, C and the rounding code play no part (R139). -/
def specialBody (fn : Fmt → Nat → Nat × BitVec 6) : Env → State → Out :=
  floatBody srcA1 Fmt.canon fun fm _ cs => fn fm (cs.getD 0 0)

/-! ### The meanings (R42, R139) -/

/-- FRCP (R139, R140). -/
def execFrcp (f : Fields) (s : State) : Res := .next (issueWith 0x44 f s (specialBody sfRcp))
/-- FRSQ (R139, R140). -/
def execFrsq (f : Fields) (s : State) : Res := .next (issueWith 0x45 f s (specialBody sfRsq))
/-- FSQRT (R139, R140). -/
def execFsqrt (f : Fields) (s : State) : Res := .next (issueWith 0x46 f s (specialBody sfSqrt))
/-- FEXP2 (R139, R140). -/
def execFexp2 (f : Fields) (s : State) : Res := .next (issueWith 0x47 f s (specialBody sfExp2))
/-- FLOG2 (R139, R140). -/
def execFlog2 (f : Fields) (s : State) : Res := .next (issueWith 0x48 f s (specialBody sfLog2))
/-- FSIN (R139, R140). -/
def execFsin (f : Fields) (s : State) : Res := .next (issueWith 0x49 f s (specialBody (sfTrig false)))
/-- FCOS (R139, R140). -/
def execFcos (f : Fields) (s : State) : Res := .next (issueWith 0x4A f s (specialBody (sfTrig true)))
/-- FTANH (R139, R140). -/
def execFtanh (f : Fields) (s : State) : Res := .next (issueWith 0x4B f s (specialBody sfTanh))
/-- FSIGM (R139, R140). -/
def execFsigm (f : Fields) (s : State) : Res := .next (issueWith 0x4C f s (specialBody sfSigm))

end Sys2Proof.Machine
end

