-- ==== Sys2Proof/Machine/Supervisor.lean ====
section
/-!
DEFINITION. The end of a group and of its team (R86, R159, R261, R279), and what the supervisor core does: the slot
table (R299), commands (R100, R102), the state window (R101) and accumulator records (R181).
-/

namespace Sys2Proof.Machine

/-! ### The end of a group and of a team -/

/-- The records a team has allocated and not committed: node and slot key. -/
def State.openRecs (s : State) (tk : Nat) : List (Nat × Nat × Rec) :=
  ((s.kern (s.team tk).ctx (s.team tk).kern).queues.zipIdx).flatMap fun q =>
    (q.1.live.filter fun e => !e.2.committed && !e.2.host && e.2.team = tk).map fun e => (q.2, e)

/-- A team whose last group has gone ends: its uncommitted records are released (R279), its window and identifiers are
free. -/
def State.endTeam (s : State) (tk : Nat) : State :=
  let t := s.team tk
  let s := (s.openRecs tk).foldl (fun s e => s.freeRec t.ctx t.kern e.1 e.2.1) s
  s.modTeam tk fun t => { t with st := .ended, slots := [], worker := [], rel := none, pinEnd := none, uncommitted := 0 }

/-- Whether a draining group has nothing outstanding (R86, R261). -/
def State.drained (s : State) (k : Nat) : Bool :=
  let g := s.grp k
  g.st = .draining && (s.opsOf k).isEmpty && (s.copiesOf k).isEmpty && !g.sealDue && g.batch.incomplete = 0
    && (List.range 8).all (fun i => !(g.batch.slot i).bound) && g.sb.all (· = 0)

/-- A draining group with the results that have landed and, as the last exit seals a batch, its complete batches counted
(R257, R261). -/
def State.drainNow (s : State) (k : Nat) : State :=
  (s.advanceBatch k).modGrp k fun g => g.landIf fun p => p.land.toNat ≤ s.time.toNat

/-- DRAIN_COMPLETE: the slot is free, the accumulators are released, and with the last group the team ends (R86, R159). -/
def execDrainComplete (k : Nat) (s : State) : Res :=
  .next (
    let s1 := s.drainNow k
    let g := s1.grp k
    let last := s1.groupsOf g.team = [k]
    if !s1.drained k || (last && (s1.openRecs g.team).any fun e => e.2.2.lock.isSome) then s
    else
      let s2 := ((s1.unwait k).releaseAll k).setGrp k { err := g.err }
      let s3 := s2.modTeam g.team fun t => { t with slots := t.slots.filter (· != k) }
      (if last then s3.endTeam g.team else s3).ctxSettle g.ctx)

/-! ### The slot table (R299) -/

/-- Whether Roith has installed a plan for a record's set in its context's kernel, or one with spawn records (R297, R299). -/
def State.planned (s : State) (r : BindRec) : Bool :=
  let pl := (s.kern r.ctx r.kern).plan
  if r.spawn then !pl.spawns.isEmpty else r.set < pl.sets.length

/-- Whether a record may be bound in slot `k`: R298, with NODE 0 in a record of a grid kernel and NODE and SET 0 in a spawn record, PMAX of
R304, a plan that Roith installed, and a good site of its partition (R297, R362). -/
def State.bindable (s : State) (k : Nat) (r : BindRec) : Bool :=
  bindOk r && (r.node = 0 || (!r.spawn && !(s.kern r.ctx r.kern).nodes.isEmpty)) && (!r.spawn || r.set = 0) && r.pri ≤ bits (s.ctx r.ctx).desc.ctl 20 4 && s.planned r
    && (s.part (s.ctx r.ctx).part).sites.contains (siteOf k) && s.site (siteOf k) = .good

/-- BIND_RECORD_WRITE: a record written to a slot table; with V = 1 it takes effect (R299). -/
def execBindRecordWrite (k : Nat) (r : BindRec) (s : State) : Res :=
  .next (
    if (s.grp k).st != .free then s.modGrp k fun g => { g with err := true }
    else if !r.valid then s.setGrp k { bind := r }
    else if s.bindable k r then s.setGrp k { st := .bound, bind := r }
    else s.setGrp k { bind := r, err := true })

/-- A command to a slot, ignored with ERR where the slot's state does not admit it. -/
def State.slotCmd (s : State) (k : Nat) (ok : GState → Bool) (go : State → State) : State :=
  if ok (s.grp k).st then (go s).modGrp k fun g => { g with err := false } else s.modGrp k fun g => { g with err := true }

/-- States that resume and kill admit (R102). -/
def GState.halted (g : GState) : Bool := g = .trapped || g = .suspended

/-- The resume command. -/
def State.slotResume (s : State) (k : Nat) : State := s.slotCmd k GState.halted fun s => s.resumeGroup k
/-- The kill command. -/
def State.slotKill (s : State) (k : Nat) : State := s.slotCmd k GState.halted fun s => s.killGroup k
/-- The hold command. -/
def State.slotHold (s : State) (k : Nat) : State :=
  s.slotCmd k (fun g => g = .ready || g = .held) fun s => s.modGrp k fun g => { g with holdReq := true }
/-- The withdraw command. -/
def State.slotWithdraw (s : State) (k : Nat) : State := s.slotCmd k (· = .bound) fun s => s.leaveSlot k

/-- SLOT_RESUME (R102). -/
def execSlotResume (k : Nat) (s : State) : Res := .next (s.slotResume k)
/-- SLOT_KILL (R102). -/
def execSlotKill (k : Nat) (s : State) : Res := .next (s.slotKill k)
/-- SLOT_HOLD (R100). -/
def execSlotHold (k : Nat) (s : State) : Res := .next (s.slotHold k)
/-- SLOT_WITHDRAW (R299). -/
def execSlotWithdraw (k : Nat) (s : State) : Res := .next (s.slotWithdraw k)

/-! ### The state window (R100, R101) -/

/-- A word with byte `j` replaced. -/
def wordByte (x : Word) (j : Nat) (b : Byte) : Word :=
  (x &&& ~~~((0xFF : Word) <<< (8 * j))) ||| (b.zeroExtend 64 <<< (8 * j))

/-- Changes one lane. -/
def Group.modLane (g : Group) (i : Nat) (f : Lane → Lane) : Group := g.mapLanes (1 <<< i) fun _ l => f l

/-- Byte `j` of the pcv of a lane; bits [1:0] and [63:56] keep their values. -/
def pcvByte (x : Word) (j : Nat) (b : Byte) : Word :=
  let y := wordByte x j b
  (y &&& 0x00FFFFFFFFFFFFFC) ||| (x &&& ~~~0x00FFFFFFFFFFFFFC)

/-- A byte written at an offset of the state window: none where the layout assigns nothing; what the layout does not
let the supervisor write is ignored. -/
def Group.winWrite (g : Group) (o : Nat) (b : Byte) : Option Group :=
  if o < 0x8000 then
    let n := o / 256
    some (if n < g.regs then g.wrV n (1 <<< (o / 8 % 32)) fun l => { g.rdV n l with val := wordByte (g.rdV n l).val (o % 8) b } else g)
  else if o < 0x9000 then
    let n := (o - 0x8000) / 32
    some (if n < g.regs then g.wrV n (1 <<< (o % 32)) fun l => { g.rdV n l with poi := b } else g)
  else if o < 0x9200 then
    let n := (o - 0x9000) / 8
    some (g.wrS n { g.rdS n with val := wordByte (g.rdS n).val (o % 8) b })
  else if o < 0x9240 then
    let n := o - 0x9200
    some (g.wrS n { g.rdS n with poi := b })
  else if o < 0x9260 then
    let n := (o - 0x9240) / 4
    some (g.wrP n ((0xFF : LaneMask) <<< (8 * (o % 4))) (b.zeroExtend 32 <<< (8 * (o % 4))))
  else if 0x9300 ≤ o && o < 0x9320 then some (g.modLane (o - 0x9300) fun l => { l with yld := b.getLsbD 2 })
  else if 0x9400 ≤ o && o < 0x9500 then
    some (g.modLane ((o - 0x9400) / 8) fun l => { l with pcv := pcvByte l.pcv (o % 8) b })
  else if 0x9500 ≤ o && o < 0x9580 then some g
  else if 0x9580 ≤ o && o < 0x9600 then
    some (g.modLane ((o - 0x9580) / 4) fun l => { l with draw := (wordByte (l.draw.zeroExtend 64) (o % 4) b).truncate 32 })
  else if 0x9600 ≤ o && o < 0x9E00 then
    let e := (o - 0x9600) / 8
    some (g.modLane (e / 8) fun l => { l with hw := l.hw.zipIdx.map fun x => if x.2 = e % 8 then wordByte x.1 (o % 8) b else x.1 })
  else if 0x9E00 ≤ o && o < 0x9E10 then some g
  else if 0x9E40 ≤ o && o < 0x9EC0 then some g
  else if 0x9F00 ≤ o && o < 0x9F88 then
    let j := o % 8
    some (match (o - 0x9F00) / 8 with
      | 0x0A => { g with fflags := (wordByte (g.flags.zeroExtend 64) j b).truncate 6, fnew := 0 }
      | 0x0D => { g with donemask := (wordByte (g.donemask.zeroExtend 64) j b).truncate 32 }
      | 0x0E => { g with srseed := wordByte g.srseed j b }
      | 0x0F => { g with ctl := (wordByte (g.ctl.zeroExtend 64) j b).truncate 2 }
      | _ => g)
  else none

/-- Bytes written from an offset, none where one of them is unassigned. -/
def Group.winWrites (g : Group) : Nat → List Byte → Option Group
  | _, [] => some g
  | o, b :: bs => match g.winWrite o b with | some g => g.winWrites (o + 1) bs | none => none

/-- STATE_WINDOW_WRITE: a write to the window of a trapped or suspended group; any other access raises an access fault
to the monitor (R100, R101). -/
def execStateWindowWrite (k off : Nat) (data : List Byte) (s : State) : Res :=
  .next (
    let bad := s.emit (.accessFault (0x2000000000 + 65536 * slotOf k + off) 0)
    if !(s.grp k).st.halted then bad
    else match (s.grp k).winWrites off data with | some g => s.setGrp k g | none => bad)

/-! ### Accumulator records (R181) -/

/-- A byte written at an offset of an accumulator record: elements and their poison; the rest is ignored. -/
def Acc.recWrite (a : Acc) (o : Nat) (b : Byte) : Acc :=
  if o < 0x4000 then
    let x := (wordByte ((smGet 0 a.c (o / 4)).zeroExtend 64) (o % 4) b).truncate 32
    { a with c := smSet 0 a.c (o / 4) x }
  else if o < 0x4200 then
    { a with poi := (List.range 8).foldl (fun m i => smSet false m ((o - 0x4000) * 8 + i) (b.getLsbD i)) a.poi }
  else a

/-- Bytes written from an offset. -/
def Acc.recWrites (a : Acc) : Nat → List Byte → Acc
  | _, [] => a
  | o, b :: bs => (a.recWrite o b).recWrites (o + 1) bs

/-- ACC_RECORD_WRITE: a write to the record of an accumulator that is bound to a trapped or suspended group and on which
no MMA executes (R181). -/
def execAccRecordWrite (core n off : Nat) (data : List Byte) (s : State) : Res :=
  .next (
    let c := s.core core
    let a := c.acc n
    let bound : Bool := n < 8 && a.st != .free && a.st != .draining && (s.grp a.owner).st.halted
    let busy : Bool := c.executing.any fun m => m.acc = n
    if !bound || busy || 0x4340 < off + data.length then s.emit (.accessFault (0x2000100000 + 65536 * n + off) 0)
    else s.modAcc core n fun a => a.recWrites off data)

end Sys2Proof.Machine
end

