-- ==== Sys2Proof/Machine/Windows.lean ====
section
/-!
DEFINITION. Registers and windows that are reached by address (R5): what a supervisor core reads of its core (R100, R181, R299, R321),
the registers of the MGX (R21, R354, R382, R383), and what the host reads in BAR0 of a virtual function (R328, R350).
-/

namespace Sys2Proof.Machine

/-- The number that stands for the MGX where a supervisor core is named by the number of its core. -/
def mgx : Nat := 18432

/-- The doubleword of an address below 0x100 0000 0000, and the byte in it. -/
def dwByte (w : Nat → Nat) (a : Nat) : Byte := natByte (w (a / 8)) (a % 8)

/-! ### The windows of a core (R100, R181, R299, R321) -/

/-- Whether the layout of the state window assigns an offset (R101). -/
def winAssigned (o : Nat) : Bool :=
  o < 0x9260 || (0x9300 ≤ o && o < 0x9320) || (0x9400 ≤ o && o < 0x9E10) || (0x9E40 ≤ o && o < 0x9EC0) || (0x9F00 ≤ o && o < 0x9F88)

/-- The slot state of R299. -/
def GState.num : GState → Nat
  | .free => 0
  | .bound => 1
  | .ready => 2
  | .held => 3
  | .trapped => 4
  | .suspended => 5
  | .stopped => 6
  | .draining => 7

/-- Doubleword `n` of a slot's entry in the slot table; the command register is written only (R299). A res field of the record, whose access
code in R298 is RW, reads as it was written (DEDUCED, log 119). -/
def Group.slotWord (g : Group) (n : Nat) : Nat :=
  match n with
  | 0 => g.bind.dw0.toNat
  | 1 => g.bind.dw1.toNat
  | 2 => g.bind.dw2.toNat
  | 3 => g.bind.dw3.toNat
  | 4 => g.st.num + 256 * g.err.toNat
  | _ => 0

/-- Doubleword `n` of a remap entry: V, LOC, SITE, CTX and GRID, then BASE, then TEAM (R321). -/
def RemapEnt.word (e : RemapEnt) (n : Nat) : Nat :=
  match n with
  | 0 => 2 ^ 63 + e.loc * 2 ^ 61 + (if e.loc = 1 then e.site else 0) * 2 ^ 48 + e.team % 4096 * 2 ^ 36 + e.team / 4096 % 2 ^ 32
  | 1 => if e.loc = 1 || e.loc = 2 then e.base.toNat % 2 ^ 56 else 0
  | 2 => e.team / 2 ^ 44
  | _ => 0

/-- Whether the record of accumulator `n` of a core is open to the supervisor core: bound to a trapped or suspended group, and no
MMA of it executes (R181). -/
def State.recordOpen (s : State) (core n : Nat) : Bool :=
  let c := s.core core
  let a := c.acc n
  a.st != .free && a.st != .draining && (s.grp a.owner).st.halted && !(c.executing.any fun m => m.acc = n)

/-- The byte that the supervisor core of a core reads at an SVC address; none where the access faults (R100). -/
def State.svcByte (s : State) (core a : Nat) : Option Byte :=
  if 0x2000000000 ≤ a && a < 0x2000100000 then
    let o := a % 0x10000
    let k := 16 * core + (a - 0x2000000000) / 0x10000
    let g := s.grp k
    if g.st.halted && winAssigned o then some (g.winByte (siteOf k) (s.time + (s.ctx g.ctx).desc.toff) o) else none
  else if 0x2000100000 ≤ a && a < 0x2000180000 then
    let o := a % 0x10000
    let n := (a - 0x2000100000) / 0x10000
    let c := s.core core
    if s.recordOpen core n && o < 0x4340 then
      some (({ gid := (s.grp (c.acc n).owner).gid, name := (c.acc n).name, acc := c.acc n, phys := n, mmas := c.mmasFor n } : SavedAcc).byte o)
    else none
  else if 0x2000200000 ≤ a && a < 0x2000200400 then
    some (dwByte (fun w => (s.grp (16 * core + w / 8)).slotWord (w % 8)) (a - 0x2000200000))
  else if 0x2000300000 ≤ a && a < 0x2000301000 then
    some (dwByte (fun w => (((s.tile (core / 4)).remap[w / 4]?).map fun e => e.word (w % 4)).getD 0) (a - 0x2000300000))
  else none

/-! ### The registers of the MGX (R354, R382, R383) -/

/-- The state code of a port (R354). -/
def PortState.num : PortState → Nat
  | .down => 0
  | .training => 1
  | .up => 2
  | .degraded => 3
  | .isolated => 4
  | .frozen => 5

/-- The control word of a port as it reads (R354). -/
def Port.word (p : Port) : Nat :=
  (if p.width < 16 then p.width else Config.widthOf16.toNat) * 2 ^ 36 + p.st.num * 2 ^ 32 + p.cto.toNat * 2 ^ 16 + p.en.toNat

/-- Doubleword `n` of a tile's power block (R382). -/
def Tile.powerWord (x : Tile) (n : Nat) : Nat :=
  match n with
  | 0 => x.ctl.toNat
  | 1 => min 255 x.temp * 2 ^ 24 + x.ration * 2 ^ 8 + x.lclk * 2 + x.tempo.toNat
  | 2 => x.energy.toNat
  | _ => 0

/-- The byte that the MGX reads at the address of a register. -/
def State.mgxByte (s : State) (a : Nat) : Option Byte :=
  if 0x08000000 ≤ a && a < 0x08000000 + 152 * 0x40 then
    some (dwByte (fun w => if w % 8 = 0 then (s.port (w / 8)).word else 0) (a - 0x08000000))
  else if 0x09000000 ≤ a && a < 0x09000000 + 4608 * 0x40 then
    some (dwByte (fun w => (s.tile (w / 8)).powerWord (w % 8)) (a - 0x09000000))
  else if 0x0A000000 ≤ a && a < 0x0A000010 then
    some (dwByte (fun w => if w = 0 then s.pnow * 2 ^ 32 + s.plim * 2 ^ 16 else s.ovhd.toNat) (a - 0x0A000000))
  else none

/-! ### The accesses -/

/-- Whether an address lies in a window of the MGX, which nobody but the MGX may address (R21, R354, R382, R383). -/
def inMgx (a : Nat) : Bool := 0x08000000 ≤ a && a < 0x0A000010

/-- Whether an SVC physical address belongs to the windows of a core (R100, R181, R299, R321). -/
def inSvcWindows (a : Nat) : Bool := 0x2000000000 ≤ a && a < 0x2000301000

/-- The partition of a site. -/
def State.sitePart (s : State) (t : Nat) : Option Nat := (s.parts.find? fun e => e.2.sites.contains t).map Prod.fst

/-- A supervisor core reads a byte of global memory: the byte that its core's L1 holds, as a load of a group through L1 finds it (R16, R194).
Any address but those of its windows is one of its partition's global space (DESIGN CHOICE, log 112). -/
def State.svcLoad (s : State) (core a : Nat) : State × Option Byte :=
  match s.sitePart (core / 4) with
  | none => (s, none)
  | some p =>
    match s.globalCheck (core / 4) p (BitVec.ofNat 64 a) .load with
    | (s, .error _) => (s, none)
    | (s, .ok x) =>
      let key := l1Key p a
      if leafNc x.leaf || (!(s.l1 core key).has (a % 64) 1 && s.lineLeaving core key) then
        match s.homeRd p noCtx (s.seqPa p (leafRep x.leaf) x.pa) 1 0 with
        | (s, some (v, _)) => (s, v.head?)
        | (s, none) => (s, none)
      else
        let r := if (s.l1 core key).has (a % 64) 1 then (s, true) else s.l1Fetch core p noCtx a x.pa (leafTgt x.leaf) (leafRep x.leaf) false 0
        let s := r.1.l1Meet noCtx core key (wordsIn (lineMask (a % 64) 1))
        (s, if r.2 then some (smGet 0 (s.l1 core key).data (a % 64)) else none)

/-- A supervisor core stores a doubleword to global memory, through the L1 that it shares (R16, R194, log 112). -/
def State.svcStore (s : State) (core a : Nat) (data : Word) : State :=
  match s.sitePart (core / 4) with
  | none => s.emit (.accessFault a 0)
  | some p =>
    match s.globalCheck (core / 4) p (BitVec.ofNat 64 a) .store with
    | (s, .error _) => s.emit (.accessFault a 0)
    | (s, .ok x) =>
      let key := l1Key p a
      if leafNc x.leaf || leafTgt x.leaf != 0 then
        if leafTgt x.leaf != 0 then s
        else (s.homeWr p noCtx (wbytes (s.seqPa p (leafRep x.leaf) x.pa) (leBytes 8 data.toNat) []) 0).1
      else
        let s := s.l1Make core key
        s.setL1 core key { ((s.l1 core key).store (a % 64) (leBytes 8 data.toNat) [] false) with
          cls := 0, use := s.time, tgt := leafTgt x.leaf, pa := x.pa / 64 * 64, ctx := noCtx }

/-- A supervisor core fetches an instruction word, from the instruction cache that it shares with the groups (R16, log 112). -/
def State.svcFetch (s : State) (core a : Nat) : State :=
  match s.sitePart (core / 4) with
  | none => s.emit (.accessFault a 0)
  | some p =>
    match s.globalCheck (core / 4) p (BitVec.ofNat 64 a) .fetch with
    | (s, .error _) => s.emit (.accessFault a 0)
    | (s, .ok x) => let r := s.icacheWord core p noCtx (BitVec.ofNat 64 a) x
                    r.1.emit (.data (leBytes 4 r.2.toNat))

/-- Bytes of global memory that a supervisor core reads one after the other. -/
def State.svcLoads (s : State) (core a n : Nat) : State × Option (List Byte) :=
  (List.range n).foldl (fun (r : State × Option (List Byte)) i =>
    match r with
    | (s, none) => (s, none)
    | (s, some v) => let x := s.svcLoad core (a + i)
                     (x.1, x.2.map fun b => v ++ [b])) (s, some [])

/-- A read of `n` bytes by the supervisor core of a core, or by the MGX: the bytes, or an access fault to the monitor (R17, R100), with code
0x09 where a supervisor core addresses a window of the MGX (R21). -/
def State.svcRead (s : State) (core addr n : Nat) : State :=
  if core != mgx && inMgx addr then s.emit (.accessFault addr causePerm)
  else if core != mgx && !inSvcWindows addr then
    match s.svcLoads core addr n with
    | (s, some bs) => s.emit (.data bs)
    | (s, none) => s.emit (.accessFault addr 0)
  else
    let k := 16 * core + (addr - 0x2000000000) / 0x10000
    let s := if 0x2000000000 ≤ addr && addr < 0x2000100000 && (s.grp k).st.halted then s.meetAll k else s
    match (List.range n).mapM fun i => if core = mgx then s.mgxByte (addr + i) else s.svcByte core (addr + i) with
    | some bs => s.emit (.data bs)
    | none => s.emit (.accessFault addr 0)

/-- A read by a tenant policy plug-in of a context on a supervisor core: of its own partition's memory as the core reads it; any other access
is a PLUGIN_ACCESS_FAULT, a window of the MGX with code 0x09, and the core's own windows are for the monitor (R17, R21, R100; log 112). -/
def State.pluginRead (s : State) (c core addr n : Nat) : State :=
  if !inMgx addr && !inSvcWindows addr && s.sitePart (core / 4) = some (s.ctx c).part then
    match s.svcLoads core addr n with
    | (s, some bs) => s.emit (.data bs)
    | (s, none) => (s.mustFault c).emit (.accessFault addr 0)
  else (s.mustFault c).emit (.accessFault addr (if inMgx addr then causePerm else 0))

/-- A write of a doubleword of a core's slot table (R299); the res fields of a record are stored too, and only a record with V = 1 is checked
(DEDUCED, log 119). -/
def State.slotTableWrite (s : State) (core addr : Nat) (data : Word) : State :=
  let k := 16 * core + (addr - 0x2000200000) / 64
  let g := s.grp k
  let set (b : BindRec) : State :=
    if g.st = .free then s.setGrp k { bind := b } else s.modGrp k fun g => { g with err := true }
  match addr % 64 / 8 with
  | 0 => (match execBindRecordWrite k { g.bind with dw0 := data } s with | .next s' => s' | _ => s)
  | 1 => set { g.bind with dw1 := data }
  | 2 => set { g.bind with dw2 := data }
  | 3 => set { g.bind with dw3 := data }
  | 5 =>
    if data = 1 then s.slotResume k else if data = 2 then s.slotKill k else if data = 3 then s.slotHold k
    else if data = 4 then s.slotWithdraw k else s.modGrp k fun g => { g with err := true }
  | _ => s

/-- A write of a doubleword to a register of the MGX: a port's control word, a tile's power control, the wafer power word; the others
are read only (R5, R354, R382, R383). -/
def State.mgxWrite (s : State) (addr : Nat) (data : Word) : State :=
  if 0x08000000 ≤ addr && addr < 0x08000000 + 152 * 0x40 then
    if addr % 64 = 0 then s.modPort ((addr - 0x08000000) / 64) fun p => p.control data s.time (s.portServed ((addr - 0x08000000) / 64)) else s
  else if 0x09000000 ≤ addr && addr < 0x09000000 + 4608 * 0x40 then
    if addr % 64 = 0 then s.modTile ((addr - 0x09000000) / 64) fun x => { x with ctl := data &&& 0xF0F } else s
  else if addr = 0x0A000000 then { s with plim := bits data 16 16 }
  else s

/-- REGISTER_WRITE: a doubleword written by the supervisor core of a core to its slot table (R299), or by the MGX, named by the number
`mgx`, to a register of its own. Writes to the remap table and to read-only registers are ignored (R5, R321); a supervisor core's write to a
window of the MGX raises an access fault to the monitor, with code 0x09 (R21); one to another address stores to global memory (R16). -/
def execRegisterWrite (core addr : Nat) (data : Word) (s : State) : Res :=
  .next (
    if core = mgx then s.mgxWrite addr data
    else if 0x2000200000 ≤ addr && addr < 0x2000200400 && addr % 8 = 0 then s.slotTableWrite core addr data
    else if inMgx addr then s.emit (.accessFault addr causePerm)
    else if inSvcWindows addr || addr % 8 != 0 then s
    else s.svcStore core addr data)

/-! ### BAR0 of a virtual function (R328, R350) -/

/-- The state code of a context (R328). -/
def CtxState.num : CtxState → Nat
  | .destroyed => 0
  | .created => 1
  | .loaded => 2
  | .runnable => 3
  | .running => 4
  | .castling => 5
  | .preempting => 6
  | .saved => 7
  | .faulted => 8
  | .migrating => 9
  | .killed => 10
  | .scrubbing => 11

/-- A byte of a context's status block (R328). -/
def State.blockByte (s : State) (c o : Nat) : Byte :=
  let x := s.ctx c
  let ts := (s.teamsOf c).filter fun e => e.2.present
  if o < 8 then
    let saved := ts.countP fun e => e.2.st = .saved
    natByte (x.st.num + min 255 (ts.countP fun e => e.2.resident) * 2 ^ 8 + saved % 2 ^ 16 * 2 ^ 16) o
  else if o = 8 then x.oldEvents s.time
  else if o < 0x10 then 0
  else if o < 0x30 then natByte ((x.counts[(o - 0x10) / 4]?).getD 0).toNat (o % 4)
  else if o < 0x38 then byteOf x.energy (o - 0x30)
  else 0

/-- The context whose status block stands at an offset of BAR0, with the offset in the block; a context of another partition has none. -/
def State.blockAt (s : State) (vf o : Nat) : Option (Nat × Nat) :=
  if 0x10000 ≤ o && o < 0x10040 then (s.vf vf).ctx.map fun c => (c, o - 0x10000)
  else if 0x20000 ≤ o && o < 0x60000 then
    let c := (o - 0x20000) / 64
    if (s.ctx c).st != .destroyed && (s.ctx c).part = vf then some (c, o % 64) else none
  else none

/-- A byte of BAR0: launch lines, status blocks, the context map; the rest reads 0 (R350). -/
def State.barByte (s : State) (vf o : Nat) : Byte :=
  if o < 0x10000 then smGet 0 (s.line vf (o / 128)).bytes (o % 128)
  else if 0x11000 ≤ o && o < 0x11200 then
    BitVec.ofNat 8 (((List.range 8).map fun j =>
      let c := (o - 0x11000) * 8 + j
      ((s.ctx c).st != .destroyed && (s.ctx c).part = vf).toNat * 2 ^ j).sum)
  else match s.blockAt vf o with
    | some x => s.blockByte x.1 x.2
    | none => 0

/-- A read of `n` bytes in BAR0 of a virtual function by the host: EVENTS is cleared in the same access (R329), and a frozen function
reads all ones (R352). A port that carries no traffic answers nothing (R353). -/
def State.barRead (s : State) (vf off n : Nat) : State :=
  if !s.portUp (s.vf vf).port then s
  else if (s.vf vf).frozen then s.emit (.data (List.replicate n 0xFF))
  else
    let bs := (List.range n).map fun i => s.barByte vf (off + i)
    let cs := ((List.range n).filterMap fun i => s.blockAt vf (off + i)).filter fun x => x.2 = 8
    (cs.foldl (fun s x => s.takeEvents x.1) s).emit (.data bs)

end Sys2Proof.Machine
end

