-- ==== Sys2Proof/Machine/Dispatch.lean ====
section
/-!
DEFINITION. One arm per constructor of `Instr`, each a direct call of its meaning.
-/

namespace Sys2Proof.Machine

open Sys2Proof

/-- The meaning of every instruction form, event and command. -/
def exec (i : Instr) (s : State) : Host.Outcome State Fault Refusal :=
  match i with
  | .sadd f => Sys2Proof.Machine.execSadd f s
  | .saddExt f => Sys2Proof.Machine.execSaddExt f s
  | .iadd f => Sys2Proof.Machine.execIadd f s
  | .iaddExt f => Sys2Proof.Machine.execIaddExt f s
  | .ssub f => Sys2Proof.Machine.execSsub f s
  | .ssubExt f => Sys2Proof.Machine.execSsubExt f s
  | .isub f => Sys2Proof.Machine.execIsub f s
  | .isubExt f => Sys2Proof.Machine.execIsubExt f s
  | .smul f => Sys2Proof.Machine.execSmul f s
  | .smulExt f => Sys2Proof.Machine.execSmulExt f s
  | .imul f => Sys2Proof.Machine.execImul f s
  | .imulExt f => Sys2Proof.Machine.execImulExt f s
  | .smulh f => Sys2Proof.Machine.execSmulh f s
  | .smulhExt f => Sys2Proof.Machine.execSmulhExt f s
  | .imulh f => Sys2Proof.Machine.execImulh f s
  | .imulhExt f => Sys2Proof.Machine.execImulhExt f s
  | .sdiv f => Sys2Proof.Machine.execSdiv f s
  | .sdivExt f => Sys2Proof.Machine.execSdivExt f s
  | .idiv f => Sys2Proof.Machine.execIdiv f s
  | .idivExt f => Sys2Proof.Machine.execIdivExt f s
  | .srem f => Sys2Proof.Machine.execSrem f s
  | .sremExt f => Sys2Proof.Machine.execSremExt f s
  | .irem f => Sys2Proof.Machine.execIrem f s
  | .iremExt f => Sys2Proof.Machine.execIremExt f s
  | .sand f => Sys2Proof.Machine.execSand f s
  | .sandExt f => Sys2Proof.Machine.execSandExt f s
  | .iand f => Sys2Proof.Machine.execIand f s
  | .iandExt f => Sys2Proof.Machine.execIandExt f s
  | .sor f => Sys2Proof.Machine.execSor f s
  | .sorExt f => Sys2Proof.Machine.execSorExt f s
  | .ior f => Sys2Proof.Machine.execIor f s
  | .iorExt f => Sys2Proof.Machine.execIorExt f s
  | .sxor f => Sys2Proof.Machine.execSxor f s
  | .sxorExt f => Sys2Proof.Machine.execSxorExt f s
  | .ixor f => Sys2Proof.Machine.execIxor f s
  | .ixorExt f => Sys2Proof.Machine.execIxorExt f s
  | .sshl f => Sys2Proof.Machine.execSshl f s
  | .sshlExt f => Sys2Proof.Machine.execSshlExt f s
  | .ishl f => Sys2Proof.Machine.execIshl f s
  | .ishlExt f => Sys2Proof.Machine.execIshlExt f s
  | .sshr f => Sys2Proof.Machine.execSshr f s
  | .sshrExt f => Sys2Proof.Machine.execSshrExt f s
  | .ishr f => Sys2Proof.Machine.execIshr f s
  | .ishrExt f => Sys2Proof.Machine.execIshrExt f s
  | .ssar f => Sys2Proof.Machine.execSsar f s
  | .ssarExt f => Sys2Proof.Machine.execSsarExt f s
  | .isar f => Sys2Proof.Machine.execIsar f s
  | .isarExt f => Sys2Proof.Machine.execIsarExt f s
  | .smin f => Sys2Proof.Machine.execSmin f s
  | .sminExt f => Sys2Proof.Machine.execSminExt f s
  | .imin f => Sys2Proof.Machine.execImin f s
  | .iminExt f => Sys2Proof.Machine.execIminExt f s
  | .smax f => Sys2Proof.Machine.execSmax f s
  | .smaxExt f => Sys2Proof.Machine.execSmaxExt f s
  | .imax f => Sys2Proof.Machine.execImax f s
  | .imaxExt f => Sys2Proof.Machine.execImaxExt f s
  | .sclz f => Sys2Proof.Machine.execSclz f s
  | .sclzExt f => Sys2Proof.Machine.execSclzExt f s
  | .iclz f => Sys2Proof.Machine.execIclz f s
  | .iclzExt f => Sys2Proof.Machine.execIclzExt f s
  | .spopc f => Sys2Proof.Machine.execSpopc f s
  | .spopcExt f => Sys2Proof.Machine.execSpopcExt f s
  | .ipopc f => Sys2Proof.Machine.execIpopc f s
  | .ipopcExt f => Sys2Proof.Machine.execIpopcExt f s
  | .sbfx f => Sys2Proof.Machine.execSbfx f s
  | .sbfxExt f => Sys2Proof.Machine.execSbfxExt f s
  | .ibfx f => Sys2Proof.Machine.execIbfx f s
  | .ibfxExt f => Sys2Proof.Machine.execIbfxExt f s
  | .sbfi f => Sys2Proof.Machine.execSbfi f s
  | .sbfiExt f => Sys2Proof.Machine.execSbfiExt f s
  | .ibfi f => Sys2Proof.Machine.execIbfi f s
  | .ibfiExt f => Sys2Proof.Machine.execIbfiExt f s
  | .smov f => Sys2Proof.Machine.execSmov f s
  | .smovExt f => Sys2Proof.Machine.execSmovExt f s
  | .imov f => Sys2Proof.Machine.execImov f s
  | .imovExt f => Sys2Proof.Machine.execImovExt f s
  | .ssel f => Sys2Proof.Machine.execSsel f s
  | .sselExt f => Sys2Proof.Machine.execSselExt f s
  | .isel f => Sys2Proof.Machine.execIsel f s
  | .iselExt f => Sys2Proof.Machine.execIselExt f s
  | .sandn f => Sys2Proof.Machine.execSandn f s
  | .sandnExt f => Sys2Proof.Machine.execSandnExt f s
  | .srot f => Sys2Proof.Machine.execSrot f s
  | .srotExt f => Sys2Proof.Machine.execSrotExt f s
  | .slea f => Sys2Proof.Machine.execSlea f s
  | .sleaExt f => Sys2Proof.Machine.execSleaExt f s
  | .scmp f => Sys2Proof.Machine.execScmp f s
  | .scmpExt f => Sys2Proof.Machine.execScmpExt f s
  | .imad f => Sys2Proof.Machine.execImad f s
  | .imadExt f => Sys2Proof.Machine.execImadExt f s
  | .iabs f => Sys2Proof.Machine.execIabs f s
  | .iabsExt f => Sys2Proof.Machine.execIabsExt f s
  | .ineg f => Sys2Proof.Machine.execIneg f s
  | .inegExt f => Sys2Proof.Machine.execInegExt f s
  | .inot f => Sys2Proof.Machine.execInot f s
  | .inotExt f => Sys2Proof.Machine.execInotExt f s
  | .isad f => Sys2Proof.Machine.execIsad f s
  | .isadExt f => Sys2Proof.Machine.execIsadExt f s
  | .idot4 f => Sys2Proof.Machine.execIdot4 f s
  | .idot4Ext f => Sys2Proof.Machine.execIdot4Ext f s
  | .pseti f => Sys2Proof.Machine.execPseti f s
  | .psetiExt f => Sys2Proof.Machine.execPsetiExt f s
  | .plop f => Sys2Proof.Machine.execPlop f s
  | .plopExt f => Sys2Proof.Machine.execPlopExt f s
  | .pmov f => Sys2Proof.Machine.execPmov f s
  | .pmovExt f => Sys2Proof.Machine.execPmovExt f s
  | .pmovMask f => Sys2Proof.Machine.execPmovMask f s
  | .pmovMaskExt f => Sys2Proof.Machine.execPmovMaskExt f s
  | .vote f => Sys2Proof.Machine.execVote f s
  | .bra f => Sys2Proof.Machine.execBra f s
  | .braExt f => Sys2Proof.Machine.execBraExt f s
  | .brp f => Sys2Proof.Machine.execBrp f s
  | .brpExt f => Sys2Proof.Machine.execBrpExt f s
  | .brx f => Sys2Proof.Machine.execBrx f s
  | .brxExt f => Sys2Proof.Machine.execBrxExt f s
  | .call f => Sys2Proof.Machine.execCall f s
  | .callExt f => Sys2Proof.Machine.execCallExt f s
  | .callx f => Sys2Proof.Machine.execCallx f s
  | .callxExt f => Sys2Proof.Machine.execCallxExt f s
  | .ret f => Sys2Proof.Machine.execRet f s
  | .retExt f => Sys2Proof.Machine.execRetExt f s
  | .loop f => Sys2Proof.Machine.execLoop f s
  | .loopExt f => Sys2Proof.Machine.execLoopExt f s
  | .yield f => Sys2Proof.Machine.execYield f s
  | .yieldExt f => Sys2Proof.Machine.execYieldExt f s
  | .sleep f => Sys2Proof.Machine.execSleep f s
  | .sleepExt f => Sys2Proof.Machine.execSleepExt f s
  | .exit f => Sys2Proof.Machine.execExit f s
  | .exitExt f => Sys2Proof.Machine.execExitExt f s
  | .nop f => Sys2Proof.Machine.execNop f s
  | .nopExt f => Sys2Proof.Machine.execNopExt f s
  | .safept f => Sys2Proof.Machine.execSafept f s
  | .safeptExt f => Sys2Proof.Machine.execSafeptExt f s
  | .pin f => Sys2Proof.Machine.execPin f s
  | .pinExt f => Sys2Proof.Machine.execPinExt f s
  | .unpin f => Sys2Proof.Machine.execUnpin f s
  | .unpinExt f => Sys2Proof.Machine.execUnpinExt f s
  | .trap f => Sys2Proof.Machine.execTrap f s
  | .trapExt f => Sys2Proof.Machine.execTrapExt f s
  | .bkpt f => Sys2Proof.Machine.execBkpt f s
  | .bkptExt f => Sys2Proof.Machine.execBkptExt f s
  | .movsr f => Sys2Proof.Machine.execMovsr f s
  | .movsrExt f => Sys2Proof.Machine.execMovsrExt f s
  | .movrs f => Sys2Proof.Machine.execMovrs f s
  | .movrsExt f => Sys2Proof.Machine.execMovrsExt f s
  | .fadd f => Sys2Proof.Machine.execFadd f s
  | .faddExt f => Sys2Proof.Machine.execFaddExt f s
  | .fsub f => Sys2Proof.Machine.execFsub f s
  | .fsubExt f => Sys2Proof.Machine.execFsubExt f s
  | .fmul f => Sys2Proof.Machine.execFmul f s
  | .fmulExt f => Sys2Proof.Machine.execFmulExt f s
  | .ffma f => Sys2Proof.Machine.execFfma f s
  | .ffmaExt f => Sys2Proof.Machine.execFfmaExt f s
  | .ffms f => Sys2Proof.Machine.execFfms f s
  | .ffmsExt f => Sys2Proof.Machine.execFfmsExt f s
  | .fnfma f => Sys2Proof.Machine.execFnfma f s
  | .fnfmaExt f => Sys2Proof.Machine.execFnfmaExt f s
  | .fnfms f => Sys2Proof.Machine.execFnfms f s
  | .fnfmsExt f => Sys2Proof.Machine.execFnfmsExt f s
  | .fminnum f => Sys2Proof.Machine.execFminnum f s
  | .fminnumExt f => Sys2Proof.Machine.execFminnumExt f s
  | .fmaxnum f => Sys2Proof.Machine.execFmaxnum f s
  | .fmaxnumExt f => Sys2Proof.Machine.execFmaxnumExt f s
  | .fminnan f => Sys2Proof.Machine.execFminnan f s
  | .fminnanExt f => Sys2Proof.Machine.execFminnanExt f s
  | .fmaxnan f => Sys2Proof.Machine.execFmaxnan f s
  | .fmaxnanExt f => Sys2Proof.Machine.execFmaxnanExt f s
  | .fabs f => Sys2Proof.Machine.execFabs f s
  | .fabsExt f => Sys2Proof.Machine.execFabsExt f s
  | .fneg f => Sys2Proof.Machine.execFneg f s
  | .fnegExt f => Sys2Proof.Machine.execFnegExt f s
  | .fcpysgn f => Sys2Proof.Machine.execFcpysgn f s
  | .fcpysgnExt f => Sys2Proof.Machine.execFcpysgnExt f s
  | .fclass f => Sys2Proof.Machine.execFclass f s
  | .fclassExt f => Sys2Proof.Machine.execFclassExt f s
  | .frnd f => Sys2Proof.Machine.execFrnd f s
  | .frndExt f => Sys2Proof.Machine.execFrndExt f s
  | .fscale f => Sys2Proof.Machine.execFscale f s
  | .fscaleExt f => Sys2Proof.Machine.execFscaleExt f s
  | .fdot2 f => Sys2Proof.Machine.execFdot2 f s
  | .fdot2Ext f => Sys2Proof.Machine.execFdot2Ext f s
  | .fhadd f => Sys2Proof.Machine.execFhadd f s
  | .fhaddExt f => Sys2Proof.Machine.execFhaddExt f s
  | .psetf f => Sys2Proof.Machine.execPsetf f s
  | .psetfExt f => Sys2Proof.Machine.execPsetfExt f s
  | .frcp f => Sys2Proof.Machine.execFrcp f s
  | .frsq f => Sys2Proof.Machine.execFrsq f s
  | .fsqrt f => Sys2Proof.Machine.execFsqrt f s
  | .fexp2 f => Sys2Proof.Machine.execFexp2 f s
  | .flog2 f => Sys2Proof.Machine.execFlog2 f s
  | .fsin f => Sys2Proof.Machine.execFsin f s
  | .fcos f => Sys2Proof.Machine.execFcos f s
  | .ftanh f => Sys2Proof.Machine.execFtanh f s
  | .fsigm f => Sys2Proof.Machine.execFsigm f s
  | .cvt f => Sys2Proof.Machine.execCvt f s
  | .cvtExt f => Sys2Proof.Machine.execCvtExt f s
  | .cvti f => Sys2Proof.Machine.execCvti f s
  | .cvtiExt f => Sys2Proof.Machine.execCvtiExt f s
  | .cvtf8 f => Sys2Proof.Machine.execCvtf8 f s
  | .cvtf8Ext f => Sys2Proof.Machine.execCvtf8Ext f s
  | .pack f => Sys2Proof.Machine.execPack f s
  | .packExt f => Sys2Proof.Machine.execPackExt f s
  | .unpack f => Sys2Proof.Machine.execUnpack f s
  | .unpackExt f => Sys2Proof.Machine.execUnpackExt f s
  | .mxsc f => Sys2Proof.Machine.execMxsc f s
  | .mxq f => Sys2Proof.Machine.execMxq f s
  | .mxdq f => Sys2Proof.Machine.execMxdq f s
  | .shfl f => Sys2Proof.Machine.execShfl f s
  | .shflx f => Sys2Proof.Machine.execShflx f s
  | .bcast f => Sys2Proof.Machine.execBcast f s
  | .rscan f => Sys2Proof.Machine.execRscan f s
  | .rred f => Sys2Proof.Machine.execRred f s
  | .perm f => Sys2Proof.Machine.execPerm f s
  | .aalloc f => Sys2Proof.Machine.execAalloc f s
  | .afree f => Sys2Proof.Machine.execAfree f s
  | .azero f => Sys2Proof.Machine.execAzero f s
  | .mma f => Sys2Proof.Machine.execMma f s
  | .mmax f => Sys2Proof.Machine.execMmax f s
  | .ard f => Sys2Proof.Machine.execArd f s
  | .awr f => Sys2Proof.Machine.execAwr f s
  | .aks f => Sys2Proof.Machine.execAks f s
  | .ld f => Sys2Proof.Machine.execLd f s
  | .st f => Sys2Proof.Machine.execSt f s
  | .lds f => Sys2Proof.Machine.execLds f s
  | .sts f => Sys2Proof.Machine.execSts f s
  | .ldb f => Sys2Proof.Machine.execLdb f s
  | .stb f => Sys2Proof.Machine.execStb f s
  | .ldc f => Sys2Proof.Machine.execLdc f s
  | .ldp f => Sys2Proof.Machine.execLdp f s
  | .pref f => Sys2Proof.Machine.execPref f s
  | .cflush f => Sys2Proof.Machine.execCflush f s
  | .cinv f => Sys2Proof.Machine.execCinv f s
  | .cpin f => Sys2Proof.Machine.execCpin f s
  | .cunpin f => Sys2Proof.Machine.execCunpin f s
  | .atom f => Sys2Proof.Machine.execAtom f s
  | .acas f => Sys2Proof.Machine.execAcas f s
  | .atoms f => Sys2Proof.Machine.execAtoms f s
  | .atomb f => Sys2Proof.Machine.execAtomb f s
  | .bred f => Sys2Proof.Machine.execBred f s
  | .bvec f => Sys2Proof.Machine.execBvec f s
  | .phase f => Sys2Proof.Machine.execPhase f s
  | .pwait f => Sys2Proof.Machine.execPwait f s
  | .binit f => Sys2Proof.Machine.execBinit f s
  | .barv f => Sys2Proof.Machine.execBarv f s
  | .bara f => Sys2Proof.Machine.execBara f s
  | .bwait f => Sys2Proof.Machine.execBwait f s
  | .btest f => Sys2Proof.Machine.execBtest f s
  | .cpy f => Sys2Proof.Machine.execCpy f s
  | .cpym f => Sys2Proof.Machine.execCpym f s
  | .cpyf f => Sys2Proof.Machine.execCpyf f s
  | .cseal f => Sys2Proof.Machine.execCseal f s
  | .cwait f => Sys2Proof.Machine.execCwait f s
  | .cbind f => Sys2Proof.Machine.execCbind f s
  | .cstat f => Sys2Proof.Machine.execCstat f s
  | .ralloc f => Sys2Proof.Machine.execRalloc f s
  | .rcommit f => Sys2Proof.Machine.execRcommit f s
  | .rfree f => Sys2Proof.Machine.execRfree f s
  | .rjoin f => Sys2Proof.Machine.execRjoin f s
  | .rpop f => Sys2Proof.Machine.execRpop f s
  | .spawn f => Sys2Proof.Machine.execSpawn f s
  | .qstat f => Sys2Proof.Machine.execQstat f s
  | .xsend f => Sys2Proof.Machine.execXsend f s
  | .resultLanding k => Sys2Proof.Machine.execResultLanding k s
  | .scoreboardCompletion id => Sys2Proof.Machine.execScoreboardCompletion id s
  | .trapEntry k => Sys2Proof.Machine.execTrapEntry k s
  | .groupSyncExecute k => Sys2Proof.Machine.execGroupSyncExecute k s
  | .watchdogExpiry k => Sys2Proof.Machine.execWatchdogExpiry k s
  | .groupOverdue k => Sys2Proof.Machine.execGroupOverdue k s
  | .drainComplete k => Sys2Proof.Machine.execDrainComplete k s
  | .bindRecordWrite k r => Sys2Proof.Machine.execBindRecordWrite k r s
  | .slotResume k => Sys2Proof.Machine.execSlotResume k s
  | .slotKill k => Sys2Proof.Machine.execSlotKill k s
  | .slotHold k => Sys2Proof.Machine.execSlotHold k s
  | .slotWithdraw k => Sys2Proof.Machine.execSlotWithdraw k s
  | .groupSuspend k => Sys2Proof.Machine.execGroupSuspend k s
  | .stateWindowWrite k off data => Sys2Proof.Machine.execStateWindowWrite k off data s
  | .accRecordWrite core n off data => Sys2Proof.Machine.execAccRecordWrite core n off data s
  | .pluginAccessFault ctx => Sys2Proof.Machine.execPluginAccessFault ctx s
  | .registerWrite core addr data => Sys2Proof.Machine.execRegisterWrite core addr data s
  | .kStep core => Sys2Proof.Machine.execKStep core s
  | .mmaComplete core => Sys2Proof.Machine.execMmaComplete core s
  | .accPoisonTrap k => Sys2Proof.Machine.execAccPoisonTrap k s
  | .accDrainComplete core n => Sys2Proof.Machine.execAccDrainComplete core n s
  | .accAllocGrant k => Sys2Proof.Machine.execAccAllocGrant k s
  | .accHoldRelease k => Sys2Proof.Machine.execAccHoldRelease k s
  | .followOnMma id => Sys2Proof.Machine.execFollowOnMma id s
  | .pageWalk site part va => Sys2Proof.Machine.execPageWalk site part va s
  | .homeAccess id lane => Sys2Proof.Machine.execHomeAccess id lane s
  | .memoryResponse id lane => Sys2Proof.Machine.execMemoryResponse id lane s
  | .writebackPerform core line => Sys2Proof.Machine.execWritebackPerform core line s
  | .bankAccess id lane => Sys2Proof.Machine.execBankAccess id lane s
  | .replicaApply part idx rep => Sys2Proof.Machine.execReplicaApply part idx rep s
  | .migrationReplay id lane => Sys2Proof.Machine.execMigrationReplay id lane s
  | .hostAccessError id lane => Sys2Proof.Machine.execHostAccessError id lane s
  | .completionTimeout id lane => Sys2Proof.Machine.execCompletionTimeout id lane s
  | .bredContribution id lane => Sys2Proof.Machine.execBredContribution id lane s
  | .bredResend id lane => Sys2Proof.Machine.execBredResend id lane s
  | .phaseReleaseComplete k tok => Sys2Proof.Machine.execPhaseReleaseComplete k tok s
  | .pwaitResume k => Sys2Proof.Machine.execPwaitResume k s
  | .releaseAtomicPerform id => Sys2Proof.Machine.execReleaseAtomicPerform id s
  | .hostWrite tag pa data => Sys2Proof.Machine.execHostWrite tag pa data s
  | .hostRead tag pa n => Sys2Proof.Machine.execHostRead tag pa n s
  | .barrierArrival k => Sys2Proof.Machine.execBarrierArrival k s
  | .batchArrival k j => Sys2Proof.Machine.execBatchArrival k j s
  | .barrierWaiterRelease k => Sys2Proof.Machine.execBarrierWaiterRelease k s
  | .copyAdmit k => Sys2Proof.Machine.execCopyAdmit k s
  | .copyStart id => Sys2Proof.Machine.execCopyStart id s
  | .copyWrite id n => Sys2Proof.Machine.execCopyWrite id n s
  | .copyComplete id => Sys2Proof.Machine.execCopyComplete id s
  | .cwaitResume k => Sys2Proof.Machine.execCwaitResume k s
  | .multicastShare id r => Sys2Proof.Machine.execMulticastShare id r s
  | .rangeHoldRelease k => Sys2Proof.Machine.execRangeHoldRelease k s
  | .queueHomeCheck id home => Sys2Proof.Machine.execQueueHomeCheck id home s
  | .queueApply id => Sys2Proof.Machine.execQueueApply id s
  | .queueTimerExpiry ctx kern node => Sys2Proof.Machine.execQueueTimerExpiry ctx kern node s
  | .teamLaunch ctx kern node => Sys2Proof.Machine.execTeamLaunch ctx kern node s
  | .rpopDelivery k => Sys2Proof.Machine.execRpopDelivery k s
  | .queueReopen ctx kern node => Sys2Proof.Machine.execQueueReopen ctx kern node s
  | .wakeEvent team => Sys2Proof.Machine.execWakeEvent team s
  | .sleepTimeout k => Sys2Proof.Machine.execSleepTimeout k s
  | .teamStart team => Sys2Proof.Machine.execTeamStart team s
  | .gridCounterFetch ctx grid site => Sys2Proof.Machine.execGridCounterFetch ctx grid site s
  | .gridTeamLaunch ctx grid site => Sys2Proof.Machine.execGridTeamLaunch ctx grid site s
  | .run vf line => Sys2Proof.Machine.execRun vf line s
  | .append vf line => Sys2Proof.Machine.execAppend vf line s
  | .endRun vf line => Sys2Proof.Machine.execEndRun vf line s
  | .runEnd ctx grid => Sys2Proof.Machine.execRunEnd ctx grid s
  | .castlingInterval part => Sys2Proof.Machine.execCastlingInterval part s
  | .teamStop team => Sys2Proof.Machine.execTeamStop team s
  | .castlingMove part ring => Sys2Proof.Machine.execCastlingMove part ring s
  | .castlingResume team => Sys2Proof.Machine.execCastlingResume team s
  | .pinLimit team => Sys2Proof.Machine.execPinLimit team s
  | .preemptBudgetExpiry ctx => Sys2Proof.Machine.execPreemptBudgetExpiry ctx s
  | .teamRestore ctx slot => Sys2Proof.Machine.execTeamRestore ctx slot s
  | .contextKillComplete ctx => Sys2Proof.Machine.execContextKillComplete ctx s
  | .contextScrubComplete ctx => Sys2Proof.Machine.execContextScrubComplete ctx s
  | .clear ctx mask => Sys2Proof.Machine.execClear ctx mask s
  | .eventsRead ctx => Sys2Proof.Machine.execEventsRead ctx s
  | .energyAccounting samples => Sys2Proof.Machine.execEnergyAccounting samples s
  | .flitArrival flit => Sys2Proof.Machine.execFlitArrival flit s
  | .siteFailure site routerOk => Sys2Proof.Machine.execSiteFailure site routerOk s
  | .routeRepair part table routes plan => Sys2Proof.Machine.execRouteRepair part table routes plan s
  | .lostAccessTimeout id lane => Sys2Proof.Machine.execLostAccessTimeout id lane s
  | .teamLocationLookup id => Sys2Proof.Machine.execTeamLocationLookup id s
  | .xsendDelivery id => Sys2Proof.Machine.execXsendDelivery id s
  | .xsendAcknowledgement id => Sys2Proof.Machine.execXsendAcknowledgement id s
  | .etselRead p => Sys2Proof.Machine.execEtselRead p s
  | .etselWrite p => Sys2Proof.Machine.execEtselWrite p s
  | .etselAtomic p => Sys2Proof.Machine.execEtselAtomic p s
  | .etselReadData p => Sys2Proof.Machine.execEtselReadData p s
  | .etselWriteAcknowledgement p => Sys2Proof.Machine.execEtselWriteAcknowledgement p s
  | .etselXsend p => Sys2Proof.Machine.execEtselXsend p s
  | .etselError p => Sys2Proof.Machine.execEtselError p s
  | .etselXsendAcknowledgement p => Sys2Proof.Machine.execEtselXsendAcknowledgement p s
  | .etselManagement p => Sys2Proof.Machine.execEtselManagement p s
  | .flitCrcFailure port => Sys2Proof.Machine.execFlitCrcFailure port s
  | .xoff port vl => Sys2Proof.Machine.execXoff port vl s
  | .xon port vl => Sys2Proof.Machine.execXon port vl s
  | .lossOfSignal port => Sys2Proof.Machine.execLossOfSignal port s
  | .laneFailure port => Sys2Proof.Machine.execLaneFailure port s
  | .trainingComplete port width full found => Sys2Proof.Machine.execTrainingComplete port width full found s
  | .trainingTimeout port => Sys2Proof.Machine.execTrainingTimeout port s
  | .hostCompletionTimeout port vf => Sys2Proof.Machine.execHostCompletionTimeout port vf s
  | .portIsolate port => Sys2Proof.Machine.execPortIsolate port s
  | .portFreeze port => Sys2Proof.Machine.execPortFreeze port s
  | .en port on => Sys2Proof.Machine.execEn port on s
  | .retrain port => Sys2Proof.Machine.execRetrain port s
  | .unfreeze port => Sys2Proof.Machine.execUnfreeze port s
  | .functionLevelReset vf => Sys2Proof.Machine.execFunctionLevelReset vf s
  | .spdmRequest req => Sys2Proof.Machine.execSpdmRequest req s
  | .lockInterface vf => Sys2Proof.Machine.execLockInterface vf s
  | .partCarve sites chans desc table port root => Sys2Proof.Machine.execPartCarve sites chans desc table port root s
  | .partGrow part sites chans table force => Sys2Proof.Machine.execPartGrow part sites chans table force s
  | .partShrink part sites chans force => Sys2Proof.Machine.execPartShrink part sites chans force s
  | .partCompact part map table plan force => Sys2Proof.Machine.execPartCompact part map table plan force s
  | .partQuota part desc force => Sys2Proof.Machine.execPartQuota part desc force s
  | .partQuiesce part => Sys2Proof.Machine.execPartQuiesce part s
  | .quiesceComplete part => Sys2Proof.Machine.execQuiesceComplete part s
  | .partExport part dest threshold force => Sys2Proof.Machine.execPartExport part dest threshold force s
  | .precopyRound part order => Sys2Proof.Machine.execPrecopyRound part order s
  | .partImport sites chans desc table => Sys2Proof.Machine.execPartImport sites chans desc table s
  | .exportRecord part r => Sys2Proof.Machine.execExportRecord part r s
  | .partExportDone part => Sys2Proof.Machine.execPartExportDone part s
  | .partAbort part => Sys2Proof.Machine.execPartAbort part s
  | .partDestroy part => Sys2Proof.Machine.execPartDestroy part s
  | .partitionScrubComplete part failed => Sys2Proof.Machine.execPartitionScrubComplete part failed s
  | .routesSet part routes => Sys2Proof.Machine.execRoutesSet part routes s
  | .castleSet part plan => Sys2Proof.Machine.execCastleSet part plan s
  | .ptInval part addr len => Sys2Proof.Machine.execPtInval part addr len s
  | .replicaSet part idx chans => Sys2Proof.Machine.execReplicaSet part idx chans s
  | .pinRelease part addr len => Sys2Proof.Machine.execPinRelease part addr len s
  | .pageRetire part frame into => Sys2Proof.Machine.execPageRetire part frame into s
  | .peerSet part entry peer => Sys2Proof.Machine.execPeerSet part entry peer s
  | .keySet part peer port key => Sys2Proof.Machine.execKeySet part peer port key s
  | .vfBind part port ctx force => Sys2Proof.Machine.execVfBind part port ctx force s
  | .ctxCreate part desc => Sys2Proof.Machine.execCtxCreate part desc s
  | .ctxDesc ctx desc => Sys2Proof.Machine.execCtxDesc ctx desc s
  | .ctxKill ctx => Sys2Proof.Machine.execCtxKill ctx s
  | .ctxPreempt ctx => Sys2Proof.Machine.execCtxPreempt ctx s
  | .ctxResume ctx => Sys2Proof.Machine.execCtxResume ctx s
  | .ctxFault ctx => Sys2Proof.Machine.execCtxFault ctx s
  | .kernLoad ctx image sizes plan => Sys2Proof.Machine.execKernLoad ctx image sizes plan s
  | .kernUnload ctx kern => Sys2Proof.Machine.execKernUnload ctx kern s
  | .planSet ctx kern plan => Sys2Proof.Machine.execPlanSet ctx kern plan s
  | .portCtl port value => Sys2Proof.Machine.execPortCtl port value s
  | .status part => Sys2Proof.Machine.execStatus part s
  | .logRead site => Sys2Proof.Machine.execLogRead site s
  | .wrecRead => Sys2Proof.Machine.execWrecRead s
  | .moduleReset => Sys2Proof.Machine.execModuleReset s
  | .controlInterval pnow avg samples => Sys2Proof.Machine.execControlInterval pnow avg samples s
  | .fastLimiterSample watts => Sys2Proof.Machine.execFastLimiterSample watts s
  | .powerControlWrite site value => Sys2Proof.Machine.execPowerControlWrite site value s
  | .readGrant core => Sys2Proof.Machine.execReadGrant core s
  | .stallCountExpiry k => Sys2Proof.Machine.execStallCountExpiry k s
  | .reservedMajorOpcode w => Sys2Proof.Machine.execReservedMajorOpcode w s
  | .launchLineWrite vf off data => Sys2Proof.Machine.execLaunchLineWrite vf off data s
  | .commandLineWrite port off data => Sys2Proof.Machine.execCommandLineWrite port off data s
  | .hostPortCompletion id lane => Sys2Proof.Machine.execHostPortCompletion id lane s
  | .startInterface vf => Sys2Proof.Machine.execStartInterface vf s
  | .stopInterface vf => Sys2Proof.Machine.execStopInterface vf s

end Sys2Proof.Machine
end

