-- ==== Sys2Proof/Machine/Schedule.lean ====
section
/-!
DEFINITION. What happens in one FCLK (log 1): the events that reach it, the issues that the cores choose (R308), and
what falls at its end (R272, R274).
-/

namespace Sys2Proof.Machine

/-- An outcome's state, or `s` where there is none. -/
def Res.getD (r : Res) (s : State) : State :=
  match r with
  | .next s' => s'
  | _ => s

/-- Whether an instruction is an event or command, which is no group's to issue. -/
def isEvent (i : Instr) : Bool :=
  match i with
  | .reservedMajorOpcode _ => false
  | i => (opOf i).isNone

/-! ### One issue (R25, R40, R86, R87, R89) -/

/-- The instruction at the issue address of the group whose turn it is, or what happens in its place. -/
noncomputable def issueFetched (s : State) : Res :=
  match s.fetchIssue s.cur with
  | (s, .idle) => .next s
  | (s, .walks ns) => .next (s.fetchWait s.cur ns)
  | (s, .trap c a) => .next (s.trapIssue c (some a))
  | (s, .reserved w) => exec (.reservedMajorOpcode w) s
  | (s, .form maj f) =>
    match mkInstr maj f with
    | some i => exec i (s.readRegs maj f)
    | none => .next (s.trapIssue causeIllegal none)

/-- The issue of a chosen group: a trap, hold or stop at the boundary comes first (R87); with it the team has begun
(R275). -/
noncomputable def issueTurn (k : Nat) (s : State) : Res :=
  match s.boundary k with
  | (s, false) => .next s
  | (s, true) => issueFetched { (s.modTeam (s.grp k).team fun t => { t with begun := true }) with cur := k }

/-! ### Ready or held (R86) -/

/-- The group's issue address tried now, as if an issue slot chose it: what its state would be. -/
noncomputable def State.tried (s : State) (k : Nat) : State :=
  (issueTurn k (s.modGrp k fun g => { g with st := .ready, hold := .none, lastIssue := s.time - 1 })).getD s

/-- Whether a group waits for its translations or for a return address: it goes on by itself while it waits (R97, R191). -/
def Group.fetches (g : Group) : Bool := g.st = .held && g.hold = .access

/-- A group at the start of the issues of an FCLK: what comes at its boundary (R87), or ready or held as R86 gives; it enters
ready when every hold before its instruction has ended, and one that waits for translations asks for those that it still lacks. -/
noncomputable def State.gate (s : State) (k : Nat) : State :=
  let g := s.grp k
  if !(g.st = .ready || g.fetches || (g.st = .held && g.hold.before)) || (s.team g.team).st = .starting then s
  else
    match s.boundary k with
    | (s, false) => s
    | (s, true) =>
      if !(s.grp k).mayIssue s.time || (s.grp k).select.isNone then s
      else
        let s' := s.tried k
        let g' := s'.grp k
        if g'.fetches && g.fetches then s'
        else if g'.st = .held && g'.hold.before && g'.lastIssue != s.time then s.modGrp k fun g => { g with st := .held, hold := g'.hold }
        else if g.st = .ready then s
        else s.modGrp k fun g => { g with st := .ready, hold := .none, lastReady := s.time }

/-- The cores that hold a group, in ascending order. -/
def State.busyCores (s : State) : List Nat := (s.groups.map fun e => coreOf e.1).eraseDups

/-- The issue stage opens: on each core that is not in lane wait the groups are ready or held, and the issue slots choose
(R86, R308, R380). -/
noncomputable def State.openIssues (s : State) : State :=
  (s.busyCores.filter fun c => !(s.core c).wait).foldl (fun s c =>
    ((((List.range 16).map fun i => 16 * c + i).foldl State.gate s).markOldest c).choose c) { s.releaseWaiters with stage := .issues }

/-! ### Events -/

/-- Where the spec orders events of one FCLK: a class, and a place in it. Batch arrivals come as their batches completed (R241); kill,
fault, quiesce, pre-emption, resume (R306, R324), among which a port's events come as R353 orders them; held accesses replay as they were
held (R203); a control interval comes before the LCLK edges that it sets (R378). -/
def State.rank (s : State) (e : Instr) : Option (Nat × Nat) :=
  match e with
  | .batchArrival k j => some (0, ((s.grp k).batch.slot j).order)
  | .ctxKill _ | .partDestroy _ => some (1, 0)
  | .lossOfSignal _ => some (1, 1)
  | .ctxFault _ | .pluginAccessFault _ | .siteFailure _ _ | .portIsolate _ | .hostCompletionTimeout _ _ => some (1, 2)
  | .portFreeze _ => some (1, 3)
  | .laneFailure _ => some (1, 4)
  | .partQuiesce _ | .partExport _ _ _ _ | .precopyRound _ _ | .quiesceComplete _ => some (1, 5)
  | .ctxPreempt _ | .preemptBudgetExpiry _ => some (1, 6)
  | .ctxResume _ => some (1, 7)
  | .migrationReplay id l => (s.op? id).bind fun o => (o.lanes.find? fun x => x.lane = l).map fun x => (3, x.held)
  | .controlInterval _ _ _ => some (5, 0)
  | .readGrant _ | .kStep _ => some (5, 1)
  | _ => none

/-- The place of a turn. -/
def State.turnRank (s : State) (t : Turn) : Option (Nat × Nat) :=
  match t with
  | .event _ e => s.rank e
  | _ => none

/-- Events that take their place among the issues of the FCLK, by the slot that they come from: an arrival at a barrier is an effect of its
instruction (R241), and a queue operation reaches its home in order of site, core and slot (R268), a host's by the site of its port. -/
def State.issuePlace (s : State) (t : Turn) : Option Nat :=
  match t with
  | .event _ (.barrierArrival k) => some k
  | .event _ (.queueHomeCheck id _) | .event _ (.queueApply id) => (s.op? id).map fun o => o.k
  | .event _ (.append vf _) => some (64 * (hostSites (s.vf vf).port).headD 0)
  | _ => none

/-- The delay of a turn. -/
def Turn.dt : Turn → Nat
  | .event dt _ | .evict dt _ _ | .svcRead dt _ _ _ | .svcFetch dt _ _ | .plugin dt _ _ _ _ | .barRead dt _ _ _ => dt

/-- A turn with its delay replaced. -/
def Turn.after (dt : Nat) : Turn → Turn
  | .event _ e => .event dt e
  | .evict _ c n => .evict dt c n
  | .svcRead _ c a n => .svcRead dt c a n
  | .svcFetch _ c a => .svcFetch dt c a
  | .plugin _ x c a n => .plugin dt x c a n
  | .barRead _ v o n => .barRead dt v o n

/-- The turns of this FCLK with their places in the schedule. -/
def State.turnsNow (s : State) : List (Turn × Nat) := (s.agenda.takeWhile fun t => t.dt = 0).zipIdx

/-- Of these turns the one to take: the first, or the least of those that the spec orders with it. -/
def State.firstTurn (s : State) : List (Turn × Nat) → Option (Turn × Nat)
  | [] => none
  | t :: r =>
    match s.turnRank t.1 with
    | none => some t
    | some (c, n) =>
      some (r.foldl (fun (b : Nat × Turn × Nat) x =>
        match s.turnRank x.1 with
        | some (c', n') => if c' = c && n' < b.1 then (n', x) else b
        | none => b) (n, t)).2

/-- Of these turns the one with the least place among the issues. -/
def State.leastTurn (s : State) (ts : List (Turn × Nat)) : Option (Turn × Nat) :=
  (ts.foldl (fun (b : Option (Nat × Turn × Nat)) x =>
    match s.issuePlace x.1, b with
    | none, _ => b
    | some n, none => some (n, x)
    | some n, some y => if n < y.1 then some (n, x) else b) none).map Prod.snd

/-- The turn of this FCLK that is taken next, with the schedule after it: among the events those that have no place among the issues, then
those whose place is before the next issue, and at the end of the FCLK in the order of the schedule. -/
def State.nextTurn (s : State) : Option (Turn × List Turn) :=
  (match s.stage with
    | .events => s.firstTurn (s.turnsNow.filter fun t => (s.issuePlace t.1).isNone)
    | .issues => s.leastTurn (s.turnsNow.filter fun t => (s.issuePlace t.1).any fun n => s.turns.head?.all (n < ·))
    | .closing => s.turnsNow.head?).map fun (t : Turn × Nat) => (t.1, s.agenda.eraseIdx t.2)

/-- One turn: an event happens, a line leaves an L1 (R220), or a register or window is read (R100, R350). -/
noncomputable def runTurn (t : Turn) (s : State) : Res :=
  match t with
  | .event _ e => if isEvent e then exec e s else .next s
  | .evict _ c n => .next (s.l1Evict c n)
  | .svcRead _ c a n => .next (s.svcRead c a n)
  | .svcFetch _ c a => .next (s.svcFetch c a)
  | .plugin _ x c a n => .next (s.pluginRead x c a n)
  | .barRead _ v o n => .next (s.barRead v o n)

/-- Whether an event does anything. -/
noncomputable def acts (s : State) (e : Instr) : Bool :=
  match exec e s with
  | .next s' => decide (s' ≠ s)
  | _ => true

/-- Events that an operation in flight waits for. -/
noncomputable def opEvents (s : State) (o : Op) : List Instr :=
  (o.lanes.flatMap fun l =>
      [Instr.homeAccess o.id l.lane, Instr.bankAccess o.id l.lane, Instr.bredContribution o.id l.lane, Instr.bredResend o.id l.lane,
        Instr.memoryResponse o.id l.lane, Instr.migrationReplay o.id l.lane])
    ++ (o.qlanes.map fun x => Instr.queueHomeCheck o.id (s.qhome o x))
    ++ [Instr.queueApply o.id, Instr.releaseAtomicPerform o.id, Instr.scoreboardCompletion o.id]

/-- Events of a copy or message. -/
noncomputable def copyEvents (c : Copy) : List Instr :=
  [Instr.copyStart c.id, Instr.teamLocationLookup c.id, Instr.xsendDelivery c.id, Instr.xsendAcknowledgement c.id, Instr.followOnMma c.id,
      Instr.copyComplete c.id]
    ++ (((List.range c.total).find? fun n => !c.doneEl.contains n).toList.map fun n => Instr.copyWrite c.id n)
    ++ (List.range c.recv.length).map fun r => Instr.multicastShare c.id r

/-- Events of a group. -/
noncomputable def groupEvents (k : Nat) : List Instr :=
  [Instr.accPoisonTrap k, Instr.barrierArrival k, Instr.barrierWaiterRelease k, Instr.trapEntry k, Instr.groupSuspend k, Instr.pwaitResume k,
    Instr.cwaitResume k, Instr.accHoldRelease k, Instr.copyAdmit k, Instr.rangeHoldRelease k, Instr.drainComplete k]
    ++ ((List.range 8).map fun t => Instr.phaseReleaseComplete k t) ++ (List.range 8).map fun j => Instr.batchArrival k j

/-- Events of a context. -/
noncomputable def ctxEvents (s : State) (c : Nat) (x : Ctx) : List Instr :=
  (x.runs.flatMap fun r =>
      (s.part x.part).sites.flatMap fun t => [Instr.gridTeamLaunch c r.grid.toNat t, Instr.gridCounterFetch c r.grid.toNat t])
    ++ ((s.teamsOf c).flatMap fun e => e.2.image.toList.map fun im => Instr.teamRestore c im.slot)
    ++ (x.runs.map fun r => Instr.runEnd c r.grid.toNat) ++ [Instr.contextKillComplete c, Instr.contextScrubComplete c]

/-- The write-backs that releases wait for (R222). -/
noncomputable def relEvents (s : State) : List Instr :=
  let ls := (s.groups.flatMap fun e => (e.2.tok.toList.flatMap fun t => t.lines) ++ e.2.arrive.toList.flatMap fun a => a.rel.lines)
    ++ (s.teams.flatMap fun e => e.2.rel.toList.flatMap fun r => r.lines) ++ s.ops.flatMap fun o => o.rel.toList.flatMap fun r => r.lines
  ls.eraseDups.map fun n => Instr.writebackPerform (lineCore n) (lineKey n)

/-- The events of the module itself that can be due and whose time the spec leaves open; what other parties do is not among
them. -/
noncomputable def dueEvents (s : State) : List Instr :=
  relEvents s ++ s.ops.flatMap (opEvents s) ++ s.copies.flatMap copyEvents ++ (s.groups.flatMap fun e => groupEvents e.1)
    ++ (s.cores.flatMap fun e => (List.range 8).map fun n => Instr.accDrainComplete e.1 n)
    ++ (s.tiles.flatMap fun e => (e.2.walks.find? fun m => !m.none).toList.map fun m =>
          Instr.pageWalk e.1 m.part (BitVec.ofNat 64 (65536 * m.page)))
    ++ s.wakes.map Instr.wakeEvent ++ s.flits.map Instr.flitArrival
    ++ (s.teams.flatMap fun e => [Instr.teamStart e.1, Instr.teamStop e.1])
    ++ (s.vfs.flatMap fun e => e.2.order.take 1 |>.flatMap fun n => [Instr.run e.1 n.2, Instr.append e.1 n.2, Instr.endRun e.1 n.2])
    ++ (s.ctxs.flatMap fun e => ctxEvents s e.1 e.2)
    ++ (s.repLog.map fun e => Instr.replicaApply (e.1 / 2 ^ 16) (e.1 / 8 % 2 ^ 13) (e.1 % 8))
    ++ (s.parts.flatMap fun e => [Instr.quiesceComplete e.1, Instr.precopyRound e.1 [], Instr.partitionScrubComplete e.1 []]
          ++ (List.range e.2.moving.length).map fun r => Instr.castlingMove e.1 r)

/-- The events whose time the spec gives: they happen in their FCLK whatever else is scheduled (R36, R37, R123, R126, R156, R175,
R315, R319, R333, R348). -/
noncomputable def timedEvents (s : State) : List Instr :=
  (s.groups.flatMap fun e => [Instr.resultLanding e.1, Instr.stallCountExpiry e.1, Instr.sleepTimeout e.1])
    ++ (s.cores.map fun e => Instr.mmaComplete e.1)
    ++ (s.copies.filter fun c => c.landAt.isSome && !c.followIn).map (fun c => Instr.followOnMma c.id)
    ++ (s.teams.flatMap fun e => [Instr.pinLimit e.1, Instr.castlingResume e.1]) ++ (s.ctxs.map fun e => Instr.preemptBudgetExpiry e.1)
    ++ (s.ops.flatMap fun o => o.lanes.flatMap fun l => [Instr.lostAccessTimeout o.id l.lane, Instr.completionTimeout o.id l.lane])
    ++ (s.copies.filter fun c => c.kind = .message && c.sent).map (fun c => Instr.completionTimeout c.id 0)
    ++ s.ports.map (fun e => Instr.trainingTimeout e.1)

/-- The LCLK edges of this FCLK: at each of a core the reads are granted, and a k-step may start (R175, R378, R379). -/
noncomputable def edgeEvents (s : State) : List Instr :=
  (s.cores.filter fun e => e.2.clocked).flatMap fun e =>
    (List.replicate 2 [Instr.readGrant e.1, Instr.kStep e.1]).flatten

/-- What falls at the end of an FCLK: watchdogs expire (R87, R95), waiting RPOPs and AALLOCs are served, timers expire, each queue is
examined (R162, R272, R274, R283), and castling stops are requested: a PIN that has issued in the FCLK defers them (R126). -/
noncomputable def closingEvents (s : State) : List Instr :=
  let held (h : Hold) : List Nat := (s.groups.filter fun e => e.2.st = .held && e.2.hold = h).map Prod.fst
  let queues (p : Queue → Bool) : List (Nat × Nat × Nat) := s.ctxs.flatMap fun e => e.2.kerns.flatMap fun k =>
    (k.2.queues.zipIdx.filter fun q => p q.1).map fun q => (e.1, k.1, q.2)
  (s.groups.map fun e => Instr.watchdogExpiry e.1) ++ ((held .rpop).map Instr.rpopDelivery) ++ ((held .aalloc).map Instr.accAllocGrant)
    ++ ((queues fun q => q.timer.isSome).map fun x => Instr.queueTimerExpiry x.1 x.2.1 x.2.2)
    ++ ((queues fun q => q.nelig != 0).map fun x => Instr.teamLaunch x.1 x.2.1 x.2.2)
    ++ s.parts.map fun e => Instr.castlingInterval e.1

/-- The issues of the FCLK are over: groups whose wait at a barrier has ended go on (R241), the receive buffers of the ports are served
(R345), growths end (R361), and what falls at the end of the FCLK comes next. -/
noncomputable def State.close (s : State) : State :=
  let s := { s.releaseWaiters.drainPorts.growAll with stage := .closing, turns := [] }
  { s with agenda := ((closingEvents s).map (Turn.event 0)) ++ s.agenda }

/-- What BTEST and QSTAT of this FCLK read: barriers and queues as every earlier operation has left them (R244, R284). -/
def State.snapshot (s : State) : State :=
  { s with
    teams := s.teams.map fun e => (e.1, { e.2 with shown := e.2.bars })
    ctxs := s.ctxs.map fun e => (e.1, { e.2 with kerns := e.2.kerns.map fun k => (k.1, { k.2 with
      queues := k.2.queues.zipIdx.map fun q => { q.1 with shown := BitVec.ofNat 64 (q.1.status (k.2.node q.2)) } }) }) }

/-- The next FCLK starts: the timed events that are due come first, then the LCLK edges and the schedule; where that is empty the model
takes every event that can happen, each once (log 1). -/
noncomputable def State.tick (s : State) : State :=
  let s := { s.snapshot.pass 1 with stage := .events, turns := [] }
  let timed := (timedEvents s).filter (acts s) ++ edgeEvents s
  match s.agenda with
  | [] => { s with agenda := (timed ++ (dueEvents s).filter (acts s)).map (Turn.event 0) }
  | t :: r => { s with agenda := timed.map (Turn.event 0) ++ t.after (t.dt - 1) :: r }

end Sys2Proof.Machine
end

