-- ==== Sys2Proof/Machine/Step.lean ====
section
/-!
DEFINITION. One step of the module: the next event of its FCLK, or the next issue, or the end of the FCLK and the start of
the next. `State.withFetchWord` places an instruction where the next step issues it.
-/

namespace Sys2Proof.Machine

/-- The next issue of this FCLK (R308), or what falls at its end. -/
noncomputable def issueNext (s : State) : Res :=
  match s.turns with
  | [] => .next s.close
  | k :: r =>
    if (s.grp k).allParked then exec (.groupSyncExecute k) s else issueTurn k { s with turns := r }

/-- One step: the events of the FCLK one after the other, then the issues that the cores choose, one after the other, then
what falls at its end, and the next FCLK. -/
noncomputable def step (s : State) : Host.Outcome State Fault Refusal :=
  match s.nextTurn with
  | some (t, r) => runTurn t { s with agenda := r }
  | none =>
    match s.stage with
    | .events => issueNext s.openIssues
    | .issues => issueNext s
    | .closing => .next s.tick

/-! ### Placing an instruction -/

/-- The address at which `State.withFetchWord` places an instruction. -/
def bootVa : Nat := 0x10000

/-- A group as at a launch, all lanes at `bootVa`, with every register in its budget. -/
def bootGroup : Group where
  st := .ready
  regs := 128
  copyr := true
  lane := Vector.replicate 32 { pcv := BitVec.ofNat 64 bootVa, st := .live }

/-- `s` with an instruction where the next step issues it: group slot 0 as at a launch, its team and partition,
a page of frame 0 for execution in the TLB of site 0, and the group's turn next (log 26). -/
def State.withFetchWord (s : State) (nbits w : Nat) : State :=
  { s with
    agenda := []
    stage := .issues
    turns := [0]
    ops := s.ops.filter fun o => o.k != 0
    cores := smSet {} s.cores 0 {}
    groups := smSet {} s.groups 0 bootGroup
    teams := smSet {} s.teams 0 { st := .resident, nbars := 16, wsize := 65536, slots := [0] }
    ctxs := smSet {} s.ctxs 0 { st := .running }
    parts := smSet {} s.parts 0 { st := .active, sites := [0], chans := [0], desc := { bmunits := 1 } }
    owner := smSet 0 s.owner 0 1
    tiles := smMod {} s.tiles 0 fun t => { t with
      tlb := { part := 0, base := bootVa, size := 65536, leaf := BitVec.ofNat 64 (2 ^ 63 + 2 ^ 62 + 2 ^ 57) } :: t.tlb }
    mem := memWrite s.mem 0 (bytesOfWords (tableWords nbits w)) }

end Sys2Proof.Machine
end

