-- ==== Sys2Proof/Safety.lean ====
section
/-!
DEFINITION. What claims about the machine say: a safe step, an issue, its completion and its frame, and the invariant of
the memories.
-/

namespace Sys2Proof

open Machine

/-- One step goes on: it neither faults nor is refused. -/
def Safe (s : State) : Prop := ∃ t, step s = .next t

/-- Every memory is in its canonical form. -/
def MemoriesWf (s : State) : Prop := Memory.wf s.mem = true ∧ Memory.wf s.spad = true ∧ Memory.wf s.bank = true

/-! ### Issues -/

/-- The state in which the group whose turn it is issues: what landed before this FCLK is in place (R37, R123). -/
def turn (s : State) : State := s.modGrp s.cur fun g => g.tick s.time

/-- The instruction `i` issues for the group whose turn it is: it is the instruction of its fields, the checks of R40 pass,
nothing holds it (R37 to R39, R176), and `env` names the group, the path and the lanes of it whose guard is true, at least
one. -/
structure Issues (i : Instr) (s : State) (env : Env) : Prop where
  op   : opOf i = some (env.maj, env.f)
  form : mkInstr env.maj env.f = some i
  go   : begin env.maj env.f (turn s) s.cur = .go env false
  some : env.e ≠ 0

/-- A group-synchronous instruction executes: with its path parked every live lane stands at it (R94), and `env` has all of
them as its path and its executing lanes. -/
structure IssuesSync (i : Instr) (s : State) (env : Env) : Prop where
  op     : opOf i = some (env.maj, env.f)
  form   : mkInstr env.maj env.f = some i
  go     : ∃ env0 sync, begin env.maj env.f (turn s) s.cur = .go env0 sync ∧ env0.k = env.k
             ∧ (let s1 := if sync then turn s else (turn s).modGrp env.k fun g => g.park env0.path
                (s1.grp env.k).select = some { pc := env.pc, path := env.path, sync := true })
             ∧ env = { env0 with path := env.path, e := env.path }

/-- The answer of an instruction is a next state of which `P` holds. -/
def Completes (i : Instr) (s : State) (P : State → Prop) : Prop := ∃ t, exec i s = .next t ∧ P t

/-- The lanes of the path stand at the next instruction (R89). -/
def Advances (env : Env) (t : State) : Prop :=
  ∀ l : LaneId, env.path.getLsbD l = true → (t.grp env.k).lane[l].pcv = env.nxt

/-- sr.ctl.pt of the group whose turn it is is 0: poison does not trap (R84, R106). -/
def NoPoisonTrap (s : State) : Prop := ((turn s).grp s.cur).pt = false

/-- The answer is a next state in which group `k` has taken a trap (R98): it is trapped with the cause and the address, or it
is held until what it issued before has completed, with both kept. -/
def Traps (i : Instr) (s : State) (k cause : Nat) (addr : Word) : Prop :=
  Completes i s fun t =>
    let g := t.grp k
    (g.st = .trapped ∧ g.trapcause = BitVec.ofNat 6 cause ∧ g.trapaddr = addr)
      ∨ (g.st = .held ∧ g.hold = .trapping ∧ ∃ d, g.trapReq = some (BitVec.ofNat 6 cause, addr, d))

/-- The lanes of E go to `target`, the other lanes of the path to the next instruction (R118). -/
def GoesTo (env : Env) (t : State) (target : LaneId → Word) : Prop :=
  ∀ l : LaneId, env.path.getLsbD l = true →
    (t.grp env.k).lane[l].pcv = if env.e.getLsbD l then target l else env.nxt

/-- The target of a branch at a word offset: the address and four times the offset and IMM32, modulo 2^56 (R117). -/
def wordTarget (env : Env) (off : Int) : Word :=
  BitVec.ofNat 64 (BitVec.ofInt 56 (env.pc.toNat + 4 * (off + env.f.imm.toInt))).toNat

/-- F18 and F12 of word 0, signed (R117). -/
def offset18 (f : Fields) : Int := (BitVec.ofNat 18 (bits f.b 0 6 * 2 ^ 12 + bits f.a 0 6 * 2 ^ 6 + bits f.d 0 6)).toInt
/-- F12 of word 0, signed (R117). -/
def offset12 (f : Fields) : Int := (BitVec.ofNat 12 (bits f.b 0 6 * 2 ^ 6 + bits f.a 0 6)).toInt

/-- An instruction enters flight (R39, R207), as `P` says of its operation, with an access for each lane of a list in order, as
`Q` says of a lane's access. -/
def Starts (i : Instr) (s : State) (env : Env) (kind : OpKind) (ls : List LaneId) (P : Op → Prop) (Q : LaneId → LaneOp → Prop) :
    Prop :=
  Completes i s fun t => Advances env t ∧ ∃ op, t.ops = s.ops ++ [op] ∧ op.k = env.k ∧ op.kind = kind
    ∧ op.wr = regWrites env.sh env.f ∧ op.sbs = env.f.slot ∧ P op ∧ op.lanes.map (fun x => x.lane) = ls.map (fun l => l.val)
    ∧ ∀ (n : Nat) (l : LaneId) (x : LaneOp), ls[n]? = some l → op.lanes[n]? = some x → Q l x

/-- The address of a lane (R205). -/
def addrOf (env : Env) (g : Group) (disp : Int) (l : LaneId) : Word :=
  (g.rdS env.f.a.toNat).val + (env.srcB g l).val + BitVec.ofInt 64 disp

/-- The registers of a lane's address are without poison. -/
def AddrClean (env : Env) (g : Group) (l : LaneId) : Prop := (g.rdS env.f.a.toNat).poi = 0 ∧ (env.srcB g l).poi = 0

/-- The TLB of a group's tile translates an address for an access that its leaf permits (R189 to R191). -/
def Maps (s : State) (k : Nat) (a : Word) (acc : Acc1) (e : TlbEnt) : Prop :=
  a.toNat < 2 ^ 56 ∧ s.tlbFind (siteOf k) (s.ctx (s.grp k).ctx).part a.toNat = some e ∧ leafFault e.leaf.toNat acc = none

/-- The bytes of consecutive v registers of a lane. -/
def vBytes (g : Group) (r n : Nat) (l : LaneId) : List Byte :=
  (List.range n).map fun j => BitVec.ofNat 8 (elem (g.rdV (r + j / 8) l) 8 (j % 8))

/-- The lane's access to a team's window or to bank memory is aligned, in the space, and held by no range (R186, R187, R209,
R210, R255). -/
def Local (s : State) (k : Nat) (sp : Space) (a : Word) (size align room : Nat) (wr : Bool) : Prop :=
  align ∣ a.toNat ∧ match sp with
    | .spad => a.toNat + size ≤ (s.team (s.grp k).team).wsize
        ∧ s.rangeHeld (siteOf k) (s.grp k).team a.toNat size wr = false
    | _ => a.toNat + room ≤ s.bmSize (s.ctx (s.grp k).ctx).part

/-! ### Frames -/

/-- No byte of any memory differs, nor its poison. -/
def SameMemory (s t : State) : Prop :=
  (∀ a, memGet t.mem a = memGet s.mem a) ∧ (∀ a, memGet t.spad a = memGet s.spad a) ∧ (∀ a, memGet t.bank a = memGet s.bank a)
    ∧ t.mpoi = s.mpoi ∧ t.spoi = s.spoi ∧ t.bpoi = s.bpoi

/-- Groups other than `k` are the same, and the accumulators of every core. -/
def SameElsewhere (s t : State) (k : Nat) : Prop :=
  (∀ j, j ≠ k → t.grp j = s.grp j) ∧ ∀ c, (t.core c).accs = (s.core c).accs

/-- The special registers of a group that an issue may not write unless its rule says so: flags, trap registers, sr.ctl,
sr.srseed, accumulator names, barrier and batch state (R83). -/
def SameSpecials (g h : Group) : Prop :=
  g.fflags = h.fflags ∧ g.trapcause = h.trapcause ∧ g.trapaddr = h.trapaddr ∧ g.ctl = h.ctl ∧ g.srseed = h.srseed
    ∧ g.acc = h.acc ∧ g.bind = h.bind ∧ g.batch = h.batch ∧ g.tok = h.tok ∧ g.period = h.period ∧ g.moved = h.moved

/-- Every v, s and predicate register keeps its value but those named. -/
def SameBut (rs : List RegId) (g h : Group) : Prop :=
  (∀ n, RegId.v n ∉ rs → ∀ l, g.rdV n l = h.rdV n l) ∧ (∀ n, RegId.s n ∉ rs → g.rdS n = h.rdS n)
    ∧ ∀ n, RegId.p n ∉ rs → g.rdP n = h.rdP n

/-- Major opcodes and functions whose instructions only write registers and move their path: arithmetic, comparisons,
conversions, cross-lane instructions, BRA, BRP, LOOP, YIELD, NOP and the safe-point and pin instructions (R41, R42). -/
def RegisterOnly (maj : BitVec 7) (fn : BitVec 2) : Prop :=
  maj ≤ 0x1E ∨ (maj = 0x20 ∧ fn ≠ 2) ∨ maj = 0x23 ∨ (maj = 0x24 ∧ fn = 0) ∨ maj = 0x26 ∨ (0x30 ≤ maj ∧ maj ≤ 0x57)

/-! ### Integer results (R66, R108) -/

/-- An exact integer result as an element of width `w`: modulo 2^w, or clamped with SAT (R66). -/
def narrow (w : Nat) (uns sat : Bool) (t : Int) : Nat :=
  let t := if !sat then t
           else if uns then max 0 (min (2 ^ w - 1) t) else max (-2 ^ (w - 1)) (min (2 ^ (w - 1) - 1) t)
  (t % 2 ^ w).toNat

/-- The reading of an element of width `w`: unsigned, or two's complement (R66). -/
def reading (w : Nat) (uns : Bool) (e : Nat) : Int := if uns || e < 2 ^ (w - 1) then (e : Int) else (e : Int) - 2 ^ w

/-- The elements `j` of three registers as the arguments of an integer operation. -/
def argsAt (w : Nat) (uns : Bool) (a b c : Reg) (j : Nat) : IArgs :=
  { w, a := elem a w j, b := elem b w j, c := elem c w j, x := reading w uns (elem a w j), y := reading w uns (elem b w j),
    z := reading w uns (elem c w j) }

/-- Sources without poison. -/
def Clean (a b c : Reg) : Prop := a.poi = 0 ∧ b.poi = 0 ∧ c.poi = 0

/-- A lane instruction on elements of width `w`: in each executing lane whose sources satisfy `ok`, element `j` of v[D] is
`f` of the group and the lane, without poison; the path goes on. -/
def LaneElems (i : Instr) (s : State) (env : Env) (w : Nat) (ok : Group → LaneId → Prop) (f : Group → LaneId → Nat → Nat) : Prop :=
  Completes i s fun t => Advances env t ∧ ∀ l : LaneId, env.e.getLsbD l = true → ok ((turn s).grp env.k) l →
    let r := (t.grp env.k).rdV env.f.d.toNat l
    r.poi = 0 ∧ ∀ j, j < 64 / w → elem r w j = f ((turn s).grp env.k) l j

/-- The sources of a lane are without poison. -/
def CleanAt (env : Env) (g : Group) (l : LaneId) : Prop := Clean (env.srcA g l) (env.srcB g l) (env.srcC g l)

/-- The predicate that an instruction writes: in each executing lane it is `f` of the lane, and p0 reads true (R31). -/
def PredResult (i : Instr) (s : State) (env : Env) (ok : Group → LaneId → Prop) (f : Group → LaneId → Bool) : Prop :=
  Completes i s fun t => Advances env t ∧ ∀ l : LaneId, env.e.getLsbD l = true → ok ((turn s).grp env.k) l →
    ((t.grp env.k).rdP env.f.d.toNat).getLsbD l = (decide (env.f.d.toNat = 0) || f ((turn s).grp env.k) l)

/-- A lane instruction whose elements are an exact integer function of the elements at their index, narrowed. -/
def LaneResult (i : Instr) (s : State) (env : Env) (uns : Bool) (f : IArgs → Int) : Prop :=
  Completes i s fun t => Advances env t ∧ ∀ l : LaneId, env.e.getLsbD l = true →
    let g := (turn s).grp env.k
    let r := (t.grp env.k).rdV env.f.d.toNat l
    Clean (env.srcA g l) (env.srcB g l) (env.srcC g l) →
      r.poi = 0 ∧ ∀ j, j < 64 / intWidth env.f →
        elem r (intWidth env.f) j =
          narrow (intWidth env.f) uns env.f.md[2] (f (argsAt (intWidth env.f) uns (env.srcA g l) (env.srcB g l) (env.srcC g l) j))

/-- A scalar instruction whose result is an exact integer function of its sources, narrowed to 64 bits; s0 keeps reading
zero (R31). -/
def ScalarResult (i : Instr) (s : State) (env : Env) (uns : Bool) (f : IArgs → Int) : Prop :=
  Completes i s fun t => Advances env t ∧
    let g := (turn s).grp env.k
    Clean (env.srcA g 0) (env.srcB g 0) (env.srcC g 0) →
      (t.grp env.k).rdS env.f.d.toNat = if env.f.d = 0 then {} else
        .of (BitVec.ofNat 64 (narrow 64 uns env.f.md[2] (f (argsAt 64 uns (env.srcA g 0) (env.srcB g 0) (env.srcC g 0) 0))))

/-- The field of R109: position, and length within the width. -/
def fieldAt (b : Word) (w : Nat) : Nat × Nat :=
  (bits b 0 6, if w ≤ bits b 0 6 then 0 else min (bits b 8 7) (w - bits b 0 6))

/-- A field read by BFX (R109). -/
def fieldRead (uns : Bool) (b : Word) (w a : Nat) : Nat :=
  let p := fieldAt b w
  narrow w uns false (if p.2 = 0 then 0 else reading p.2 uns (a / 2 ^ p.1 % 2 ^ p.2))

/-- A field replaced by BFI (R109): bit `i` of the result is bit `i - pos` of `a` inside the field, and of `c` outside. -/
def fieldWritten (b : Word) (w a c r : Nat) : Prop :=
  let p := fieldAt b w
  ∀ i, i < w → r.testBit i = if p.1 ≤ i ∧ i < p.1 + p.2 then a.testBit (i - p.1) else c.testBit i

/-! ### Floating-point results (R53, R69) -/

/-- A lane instruction whose elements of format `fm` are a function of the codes at their index. -/
def FloatResult (i : Instr) (s : State) (env : Env) (fm : Fmt) (f : Nat → Nat → Nat → Nat × BitVec 6) : Prop :=
  LaneElems i s env fm.w (CleanAt env) fun g l j =>
    (f (elem (env.srcA g l) fm.w j) (elem (env.srcB g l) fm.w j) (elem (env.srcC g l) fm.w j)).1 % 2 ^ fm.w

/-- The flags that wait to land with the result (R75, R76): those of every element of every executing lane. -/
def FloatFlags (i : Instr) (s : State) (env : Env) (fm : Fmt) (f : Nat → Nat → Nat → Nat × BitVec 6) : Prop :=
  Completes i s fun t => (∀ l : LaneId, env.e.getLsbD l = true → CleanAt env ((turn s).grp env.k) l) →
    ∃ p, (t.grp env.k).pend.getLast? = some p ∧ ∀ n, p.flags.getLsbD n = true ↔
      ∃ l : LaneId, env.e.getLsbD l = true ∧ ∃ j, j < 64 / fm.w ∧
        let g := (turn s).grp env.k
        (f (elem (env.srcA g l) fm.w j) (elem (env.srcB g l) fm.w j) (elem (env.srcC g l) fm.w j)).2.getLsbD n = true

/-- The special values of a function: NaN, −∞, −0, +0, +∞, and a negative finite operand where its result is fixed, each a
code with its flags (R139). -/
def SpecialRow (fn : Fmt → Nat → Nat × BitVec 6) (fm : Fmt) (ninf nzero zero inf : Nat × BitVec 6) (neg : Option (Nat × BitVec 6)) :
    Prop :=
  (∀ c, fm.val c = .nan → fn fm c = (fm.canon, 0)) ∧ (∀ c, fm.val c = .inf true → fn fm c = ninf)
    ∧ (∀ c e, fm.val c = .fin true 0 e → fn fm c = nzero) ∧ (∀ c e, fm.val c = .fin false 0 e → fn fm c = zero)
    ∧ (∀ c, fm.val c = .inf false → fn fm c = inf)
    ∧ ∀ r, neg = some r → ∀ c m e, fm.val c = .fin true m e → m ≠ 0 → fn fm c = r

/-- A conversion from elements of width `ws` to elements of width `wd`: those of part XF are converted, each with its draw,
and where it narrows the other elements are those of C (R141). -/
def ConvResult (i : Instr) (s : State) (env : Env) (ws wd : Nat) (one : Nat → Nat → Nat) : Prop :=
  Completes i s fun t => Advances env t ∧ ∀ l : LaneId, env.e.getLsbD l = true → CleanAt env ((turn s).grp env.k) l →
    let g := (turn s).grp env.k
    let r := (t.grp env.k).rdV env.f.d.toNat l
    let m := 64 / max ws wd
    let q := env.f.xf.toNat * m
    let pl (n : Nat) : Nat := if wd < ws then q + n else n
    r.poi = 0 ∧ (∀ n, n < m →
        elem r wd (pl n) = one (env.draw (turn s) l (pl n)) (elem (env.srcA g l) ws (if ws < wd then q + n else n)) % 2 ^ wd)
      ∧ (wd < ws → ∀ j, j < 64 / wd → (j < q ∨ q + m ≤ j) → elem r wd j = elem (env.srcC g l) wd j)

/-! ### Events and commands -/

/-- The held group `k` takes up its instruction `i` again: it waits for one of `hs`, nothing comes first at its boundary,
and `i` is what its issue address holds. `s2` is the state in which `i` issues (R86, R87). -/
def TakesUp (i : Instr) (k : Nat) (hs : List Hold) (s s2 : State) : Prop :=
  (s.grp k).st = .held ∧ (s.grp k).hold ∈ hs ∧ ∃ s1 maj f, s.boundary k = (s1, true)
    ∧ ({ (s1.modGrp k fun g => { g with hold := .none }) with cur := k } : State).fetchInstr k = (s2, .form maj f) ∧ mkInstr maj f = some i

/-- A context's event is raised and has not been read (R329). -/
def Raised (x : Ctx) (n : Nat) : Prop := (x.events ||| x.evNew).getLsbD n = true

/-- A Roith command with its FORCE, where it has one, and its arguments is admitted: where its turn has come it reports STATUS 0 with a
value, and `Q` holds afterwards; where its buffers cannot be read it reports code 5. Before its turn nothing happens (R359, R375, R376). -/
def Admitted (i : Instr) (s : State) (op : Nat) (force : Option Bool) (args : List Nat) (value : Nat) (Q : State → Prop) : Prop :=
  Completes i s fun t =>
    if s.cmdTurn op force args = false then t = s
    else if s.bufferLost op then t.out.getLast? = some (.status op 5 0)
    else t.out.getLast? = some (.status op 0 value) ∧ Q t

/-- A Roith command whose turn has come is refused with a code, 5 where its buffers cannot be read: it reports the code, and what it names is
as before (R375, R376). -/
def Declined (i : Instr) (s : State) (op : Nat) (force : Option Bool) (args : List Nat) (code : Nat) : Prop :=
  Completes i s fun t =>
    if s.cmdTurn op force args = false then t = s
    else t.out.getLast? = some (.status op (if s.bufferLost op then 5 else code) 0)
      ∧ t.parts = s.parts ∧ t.ctxs = s.ctxs ∧ t.groups = s.groups ∧ SameMemory s t

/-- Lane `l` of operation `id` has come to phase `ph`, with a value. -/
def LaneAt (t : State) (id l : Nat) (ph : Phase) (val : List Byte) : Prop :=
  ∃ o x, t.op? id = some o ∧ o.lane? l = some x ∧ x.phase = ph ∧ x.val = val

/-- The bytes from `a` of one memory are `bs` now, and its other bytes as before. -/
def Stored (m m' : Memory) (a : Nat) (bs : List Byte) : Prop :=
  (∀ j b, bs[j]? = some b → memGet m' (a + j) = b) ∧ ∀ x, x < a ∨ a + bs.length ≤ x → memGet m' x = memGet m x

/-- The line of a function whose turn it is, triggered in an earlier FCLK, of a type and well formed, for context `c` and kernel `kn` (R294,
R295). -/
def LineReady (s : State) (vf n ty c kn : Nat) : Prop :=
  (∃ time, (s.vf vf).order.head? = some (time, n) ∧ time < s.time.toNat) ∧ (s.line vf n).nat 0 1 = ty ∧ (s.line vf n).formed = true ∧ (s.vf vf).ctx = some c
    ∧ (s.line vf n).nat 1 1 = kn

/-- A line has been handled: STATUS holds code and value, GO is 0 and the line is free (R295). -/
def LineDone (t : State) (vf n code value : Nat) : Prop :=
  (t.line vf n).nat 0x70 4 = code ∧ (t.line vf n).nat 0x74 4 = value ∧ (t.line vf n).nat 0x7F 1 = 0 ∧ (t.line vf n).busy = false
    ∧ ∀ e ∈ (t.vf vf).order, e.2 ≠ n

/-- A packet that the module takes: its port is up, it is for this module, on an open stream, with a good tag (R344, R346). -/
def Takes (s : State) (p : Etsel) : Prop :=
  p.port < 144 ∧ s.portUp p.port = true ∧ p.hdr.dmod = s.flash.module ∧ p.tagOk = true
    ∧ (s.part p.hdr.dpart).closedTo p.hdr.smod p.hdr.spart = false

end Sys2Proof
end

