-- ==== Sys2Proof/WellFormed.lean ====
section
/-!
DEFINITION. Well-formed instructions: an instruction form whose fields pass the checks of R28 to R35 and
are those of the form's words, and an event whose numbers lie in the machine's ranges.
-/

namespace Sys2Proof

/-- Tile sites of a module: 48 by 96 (R9). -/
abbrev siteCount : Nat := 4608
/-- Group slots of a module: 64 per site (R14, R16). -/
abbrev groupCount : Nat := 64 * siteCount

/-- Fields that a form has no word for are 0 (R29). -/
def Fields.canonical (f : Fields) : Bool :=
  (f.ext || (f.word1 == 0 && f.imm == 0)) && (f.hasLit || f.lit == 0)

/-- The numbers of an event lie in range; an instruction form has none. -/
def eventOk : Instr → Bool
  | .resultLanding k => decide (k < groupCount)
  | .scoreboardCompletion _ => true
  | .trapEntry k => decide (k < groupCount)
  | .groupSyncExecute k => decide (k < groupCount)
  | .watchdogExpiry k => decide (k < groupCount)
  | .groupOverdue k => decide (k < groupCount)
  | .drainComplete k => decide (k < groupCount)
  | .bindRecordWrite k _ => decide (k < groupCount)
  | .slotResume k => decide (k < groupCount)
  | .slotKill k => decide (k < groupCount)
  | .slotHold k => decide (k < groupCount)
  | .slotWithdraw k => decide (k < groupCount)
  | .groupSuspend k => decide (k < groupCount)
  | .stateWindowWrite k _ _ => decide (k < groupCount)
  | .accRecordWrite core n _ _ => decide (core < 4 * siteCount) && decide (n < 8)
  | .pluginAccessFault ctx => decide (ctx < 4096)
  | .registerWrite core _ _ => decide (core < 4 * siteCount)
  | .kStep core => decide (core < 4 * siteCount)
  | .mmaComplete core => decide (core < 4 * siteCount)
  | .accPoisonTrap k => decide (k < groupCount)
  | .accDrainComplete core n => decide (core < 4 * siteCount) && decide (n < 8)
  | .accAllocGrant k => decide (k < groupCount)
  | .accHoldRelease k => decide (k < groupCount)
  | .followOnMma _ => true
  | .pageWalk site part _ => decide (site < siteCount) && decide (part < 128)
  | .homeAccess _ lane => decide (lane < 32)
  | .memoryResponse _ lane => decide (lane < 32)
  | .writebackPerform core _ => decide (core < 4 * siteCount)
  | .bankAccess _ lane => decide (lane < 32)
  | .replicaApply part idx rep => decide (part < 128) && decide (idx < 8192) && decide (rep < 8)
  | .migrationReplay _ lane => decide (lane < 32)
  | .hostAccessError _ lane => decide (lane < 32)
  | .completionTimeout _ lane => decide (lane < 32)
  | .bredContribution _ lane => decide (lane < 32)
  | .bredResend _ lane => decide (lane < 32)
  | .phaseReleaseComplete k tok => decide (k < groupCount) && decide (tok < 8)
  | .pwaitResume k => decide (k < groupCount)
  | .releaseAtomicPerform _ => true
  | .hostWrite tag _ _ => decide (tag < 128)
  | .hostRead tag _ _ => decide (tag < 128)
  | .barrierArrival k => decide (k < groupCount)
  | .batchArrival k j => decide (k < groupCount) && decide (j < 8)
  | .barrierWaiterRelease k => decide (k < groupCount)
  | .copyAdmit k => decide (k < groupCount)
  | .copyStart _ => true
  | .copyWrite _ _ => true
  | .copyComplete _ => true
  | .cwaitResume k => decide (k < groupCount)
  | .multicastShare _ _ => true
  | .rangeHoldRelease k => decide (k < groupCount)
  | .queueHomeCheck _ home => decide (home < siteCount)
  | .queueApply _ => true
  | .queueTimerExpiry ctx kern node => decide (ctx < 4096) && decide (kern < 256) && decide (node < 64)
  | .teamLaunch ctx kern node => decide (ctx < 4096) && decide (kern < 256) && decide (node < 64)
  | .rpopDelivery k => decide (k < groupCount)
  | .queueReopen ctx kern node => decide (ctx < 4096) && decide (kern < 256) && decide (node < 64)
  | .wakeEvent _ => true
  | .sleepTimeout k => decide (k < groupCount)
  | .teamStart _ => true
  | .gridCounterFetch ctx _ site => decide (ctx < 4096) && decide (site < siteCount)
  | .gridTeamLaunch ctx _ site => decide (ctx < 4096) && decide (site < siteCount)
  | .run vf line => decide (vf < 128) && decide (line < 512)
  | .append vf line => decide (vf < 128) && decide (line < 512)
  | .endRun vf line => decide (vf < 128) && decide (line < 512)
  | .runEnd ctx _ => decide (ctx < 4096)
  | .castlingInterval part => decide (part < 128)
  | .teamStop _ => true
  | .castlingMove part _ => decide (part < 128)
  | .castlingResume _ => true
  | .pinLimit _ => true
  | .preemptBudgetExpiry ctx => decide (ctx < 4096)
  | .teamRestore ctx _ => decide (ctx < 4096)
  | .contextKillComplete ctx => decide (ctx < 4096)
  | .contextScrubComplete ctx => decide (ctx < 4096)
  | .clear ctx _ => decide (ctx < 4096)
  | .eventsRead ctx => decide (ctx < 4096)
  | .energyAccounting _ => true
  | .flitArrival _ => true
  | .siteFailure site _ => decide (site < siteCount)
  | .routeRepair part _ _ _ => decide (part < 128)
  | .lostAccessTimeout _ lane => decide (lane < 32)
  | .teamLocationLookup _ => true
  | .xsendDelivery _ => true
  | .xsendAcknowledgement _ => true
  | .etselRead _ => true
  | .etselWrite _ => true
  | .etselAtomic _ => true
  | .etselReadData _ => true
  | .etselWriteAcknowledgement _ => true
  | .etselXsend _ => true
  | .etselError _ => true
  | .etselXsendAcknowledgement _ => true
  | .etselManagement _ => true
  | .flitCrcFailure port => decide (port < 152)
  | .xoff port vl => decide (port < 152) && decide (vl < 4)
  | .xon port vl => decide (port < 152) && decide (vl < 4)
  | .lossOfSignal port => decide (port < 152)
  | .laneFailure port => decide (port < 152)
  | .trainingComplete port _ _ _ => decide (port < 152)
  | .trainingTimeout port => decide (port < 152)
  | .hostCompletionTimeout port vf => decide (port < 152) && decide (vf < 128)
  | .portIsolate port => decide (port < 152)
  | .portFreeze port => decide (port < 152)
  | .en port _ => decide (port < 152)
  | .retrain port => decide (port < 152)
  | .unfreeze port => decide (port < 152)
  | .functionLevelReset vf => decide (vf < 128)
  | .spdmRequest _ => true
  | .lockInterface vf => decide (vf < 128)
  | .partCarve _ _ _ _ port _ => decide (port < 152)
  | .partGrow part _ _ _ _ => decide (part < 128)
  | .partShrink part _ _ _ => decide (part < 128)
  | .partCompact part _ _ _ _ => decide (part < 128)
  | .partQuota part _ _ => decide (part < 128)
  | .partQuiesce part => decide (part < 128)
  | .quiesceComplete part => decide (part < 128)
  | .partExport part _ _ _ => decide (part < 128)
  | .precopyRound part _ => decide (part < 128)
  | .partImport _ _ _ _ => true
  | .exportRecord part _ => decide (part < 128)
  | .partExportDone part => decide (part < 128)
  | .partAbort part => decide (part < 128)
  | .partDestroy part => decide (part < 128)
  | .partitionScrubComplete part _ => decide (part < 128)
  | .routesSet part _ => decide (part < 128)
  | .castleSet part _ => decide (part < 128)
  | .ptInval part _ _ => decide (part < 128)
  | .replicaSet part idx _ => decide (part < 128) && decide (idx < 8192)
  | .pinRelease part _ _ => decide (part < 128)
  | .pageRetire part _ _ => decide (part < 128)
  | .peerSet part _ _ => decide (part < 128)
  | .keySet part _ port _ => decide (part < 128) && decide (port < 152)
  | .vfBind part port ctx _ => decide (part < 128) && decide (port < 152) && decide (ctx < 4096)
  | .ctxCreate part _ => decide (part < 128)
  | .ctxDesc ctx _ => decide (ctx < 4096)
  | .ctxKill ctx => decide (ctx < 4096)
  | .ctxPreempt ctx => decide (ctx < 4096)
  | .ctxResume ctx => decide (ctx < 4096)
  | .ctxFault ctx => decide (ctx < 4096)
  | .kernLoad ctx _ _ _ => decide (ctx < 4096)
  | .kernUnload ctx kern => decide (ctx < 4096) && decide (kern < 256)
  | .planSet ctx kern _ => decide (ctx < 4096) && decide (kern < 256)
  | .portCtl port _ => decide (port < 152)
  | .status part => decide (part < 128)
  | .logRead site => decide (site < siteCount)
  | .wrecRead => true
  | .moduleReset => true
  | .controlInterval _ _ _ => true
  | .fastLimiterSample _ => true
  | .powerControlWrite site _ => decide (site < siteCount)
  | .readGrant core => decide (core < 4 * siteCount)
  | .stallCountExpiry k => decide (k < groupCount)
  | .reservedMajorOpcode _ => true
  | .launchLineWrite vf _ _ => decide (vf < 128)
  | .commandLineWrite port _ _ => decide (port < 152)
  | .hostPortCompletion _ lane => decide (lane < 32)
  | .startInterface vf => decide (vf < 128)
  | .stopInterface vf => decide (vf < 128)
  | _ => true

/-- A well-formed instruction. -/
noncomputable def wellFormed (i : Instr) : Bool :=
  match opOf i with
  | some (m, f) => decide (checkFields m f = .ok ()) && f.canonical && decide (mkInstr m f = some i)
  | none => eventOk i

end Sys2Proof
end

