-- ==== Sys2Proof/Certificates/Slice0/Obligations.lean ====
section
/-!
DEFINITION. The statements about this model, for the provers. A statement about an instruction supposes that it issues
(`Issues`, `IssuesSync`): the checks of R40 pass and nothing holds it, for at least one lane whose guard is true.
-/

open Sys2Proof Sys2Proof.Machine

/-! ### Integer instructions (R66, R67, R108 to R115) -/

/-- Every scalar integer form writes its exact result, narrowed to 64 bits (R66, R108, R110). -/
def Obligations.ScalarIntegerResults : Prop :=
  ∀ e ∈ ([(.sadd, .saddExt, fun t => t.x + t.y), (.ssub, .ssubExt, fun t => t.x - t.y), (.smul, .smulExt, fun t => t.x * t.y),
      (.smulh, .smulhExt, fun t => t.x * t.y / 2 ^ t.w), (.sand, .sandExt, fun t => ((t.a &&& t.b : Nat) : Int)),
      (.sor, .sorExt, fun t => ((t.a ||| t.b : Nat) : Int)), (.sxor, .sxorExt, fun t => ((t.a ^^^ t.b : Nat) : Int)),
      (.sshl, .sshlExt, fun t => t.x * 2 ^ t.b), (.sshr, .sshrExt, fun t => ((t.a / 2 ^ t.b : Nat) : Int)),
      (.ssar, .ssarExt, fun t => reading t.w false t.a / 2 ^ t.b), (.smin, .sminExt, fun t => min t.x t.y),
      (.smax, .smaxExt, fun t => max t.x t.y), (.sclz, .sclzExt, fun t => if t.a = 0 then t.w else t.w - 1 - Nat.log2 t.a),
      (.spopc, .spopcExt, fun t => ((List.range t.w).countP fun i => t.a.testBit i : Nat)), (.smov, .smovExt, fun t => t.b)] :
      List ((Fields → Instr) × (Fields → Instr) × (IArgs → Int))),
    ∀ i ∈ [e.1, e.2.1], ∀ (f : Fields) (s : State) (env : Env), Issues (i f) s env → NoPoisonTrap s →
      f.fn.getLsbD 1 = true → ScalarResult (i f) s env (f.fn.getLsbD 0) e.2.2

/-- The scalar-only integer forms (R111). The lane-only integer forms of 0x18 to 0x1A (R112). IDOT4 adds four products of bytes
to each 32-bit half, exactly, modulo 2^32 (R112). -/
def Obligations.ScalarAndLaneOnlyResults : Prop :=
  (
    ∀ (f : Fields) (s : State) (env : Env), NoPoisonTrap s → f.md[2] = false →
      (∀ i ∈ [Instr.sandn, .sandnExt], Issues (i f) s env →
        ScalarResult (i f) s env false fun t => ((t.a &&& (2 ^ 64 - 1 - t.b) : Nat) : Int))
      ∧ (∀ i ∈ [Instr.srot, .srotExt], Issues (i f) s env →
        ScalarResult (i f) s env true fun t => (((BitVec.ofNat 64 t.a).rotateLeft (t.b % 64)).toNat : Int))
      ∧ (∀ i ∈ [Instr.slea, .sleaExt], Issues (i f) s env →
        ScalarResult (i f) s env true fun t => t.x + t.y * 2 ^ (if f.xf = 0 then 0 else f.xf.toNat + 1) + f.imm.toInt)
      ∧ ∀ i ∈ [Instr.scmp, .scmpExt], Issues (i f) s env →
        ScalarResult (i f) s env (f.fn.getLsbD 0) fun t => if t.y < t.x then 1 else if t.x = t.y then 0 else -1)
  ∧ (
    ∀ (f : Fields) (s : State) (env : Env), NoPoisonTrap s →
      (∀ i ∈ [Instr.imad, .imadExt], Issues (i f) s env → LaneResult (i f) s env (f.fn.getLsbD 0) fun t => t.x * t.y + t.z)
      ∧ (∀ i ∈ [Instr.isad, .isadExt], Issues (i f) s env → LaneResult (i f) s env (f.fn.getLsbD 0) fun t => t.z + |t.x - t.y|)
      ∧ (∀ i ∈ [Instr.iabs, .iabsExt], Issues (i f) s env → LaneResult (i f) s env false fun t => |t.x|)
      ∧ (∀ i ∈ [Instr.ineg, .inegExt], Issues (i f) s env → LaneResult (i f) s env false fun t => -t.x)
      ∧ ∀ i ∈ [Instr.inot, .inotExt], Issues (i f) s env → LaneResult (i f) s env false fun t => ((2 ^ t.w - 1 - t.a : Nat) : Int))
  ∧ (
    ∀ i ∈ [Instr.idot4, .idot4Ext], ∀ (f : Fields) (s : State) (env : Env), Issues (i f) s env → NoPoisonTrap s →
      LaneElems (i f) s env 32 (CleanAt env) fun g l j =>
        let a (k : Nat) : Int := reading 8 (decide (f.fn = 1)) (elem (env.srcA g l) 8 (4 * j + k))
        let b (k : Nat) : Int := reading 8 (decide (f.fn ≠ 0)) (elem (env.srcB g l) 8 (4 * j + k))
        narrow 32 false false (reading 32 false (elem (env.srcC g l) 32 j) + a 0 * b 0 + a 1 * b 1 + a 2 * b 2 + a 3 * b 3))

/-- Every lane integer form writes, in each executing lane, each element's exact result, narrowed to the element width (R66,
R108, R110, R112). -/
def Obligations.LaneIntegerResults : Prop :=
  ∀ e ∈ ([(.iadd, .iaddExt, fun t => t.x + t.y), (.isub, .isubExt, fun t => t.x - t.y), (.imul, .imulExt, fun t => t.x * t.y),
      (.imulh, .imulhExt, fun t => t.x * t.y / 2 ^ t.w), (.iand, .iandExt, fun t => ((t.a &&& t.b : Nat) : Int)),
      (.ior, .iorExt, fun t => ((t.a ||| t.b : Nat) : Int)), (.ixor, .ixorExt, fun t => ((t.a ^^^ t.b : Nat) : Int)),
      (.ishl, .ishlExt, fun t => t.x * 2 ^ t.b), (.ishr, .ishrExt, fun t => ((t.a / 2 ^ t.b : Nat) : Int)),
      (.isar, .isarExt, fun t => reading t.w false t.a / 2 ^ t.b), (.imin, .iminExt, fun t => min t.x t.y),
      (.imax, .imaxExt, fun t => max t.x t.y), (.iclz, .iclzExt, fun t => if t.a = 0 then t.w else t.w - 1 - Nat.log2 t.a),
      (.ipopc, .ipopcExt, fun t => ((List.range t.w).countP fun i => t.a.testBit i : Nat)), (.imov, .imovExt, fun t => t.b)] :
      List ((Fields → Instr) × (Fields → Instr) × (IArgs → Int))),
    ∀ i ∈ [e.1, e.2.1], ∀ (f : Fields) (s : State) (env : Env), Issues (i f) s env → NoPoisonTrap s →
      f.fn.getLsbD 1 = false → LaneResult (i f) s env (f.fn.getLsbD 0) e.2.2

/-- Quotients round toward zero, remainders take the sign of the dividend, a divisor of 0 gives all ones and the dividend, and
the overflowing quotient its dividend and 0; none traps or sets a flag (R67). -/
def Obligations.DivisionRoundsTowardZero : Prop :=
  let quo : IArgs → Int := fun t => if t.y = 0 then -1 else t.x.tdiv t.y
  let rem : IArgs → Int := fun t => if t.y = 0 then t.x else t.x.tmod t.y
  (∀ (f : Fields) (s : State) (env : Env), NoPoisonTrap s →
    (f.fn.getLsbD 1 = true →
      (∀ i ∈ [Instr.sdiv, .sdivExt], Issues (i f) s env → ScalarResult (i f) s env (f.fn.getLsbD 0) quo)
      ∧ ∀ i ∈ [Instr.srem, .sremExt], Issues (i f) s env → ScalarResult (i f) s env (f.fn.getLsbD 0) rem)
    ∧ (f.fn.getLsbD 1 = false →
      (∀ i ∈ [Instr.idiv, .idivExt], Issues (i f) s env → LaneResult (i f) s env (f.fn.getLsbD 0) quo)
      ∧ ∀ i ∈ [Instr.irem, .iremExt], Issues (i f) s env → LaneResult (i f) s env (f.fn.getLsbD 0) rem))
  ∧ (∀ i ∈ [Instr.sdiv, .sdivExt, .srem, .sremExt, .idiv, .idivExt, .irem, .iremExt], ∀ (f : Fields) (s : State) (env : Env),
      Issues (i f) s env → NoPoisonTrap s → Completes (i f) s fun t =>
        let g := (turn s).grp env.k
        (t.grp env.k).fflags = g.fflags ∧ (∀ p ∈ (t.grp env.k).pend, p.flags = 0 ∨ ∃ q ∈ g.pend, q.flags = p.flags)
          ∧ ∀ o ∈ t.ops, o.flags = 0 ∨ ∃ x ∈ s.ops, x.flags = o.flags)
  ∧ ∀ w ∈ [8, 16, 32, 64], narrow w true false (-1) = 2 ^ w - 1
      ∧ narrow w false false ((-2 ^ (w - 1) : Int).tdiv (-1)) = 2 ^ (w - 1) ∧ (-2 ^ (w - 1) : Int).tmod (-1) = 0

/-- BFX reads the field of each element, and BFI replaces it (R109). A select takes the source its condition chooses, and only
that source's poison (R110). -/
def Obligations.BitFieldAndSelectResults : Prop :=
  (
    ∀ (f : Fields) (s : State) (env : Env), NoPoisonTrap s →
      (f.fn.getLsbD 1 = true → CleanAt env ((turn s).grp env.k) 0 →
        (∀ i ∈ [Instr.sbfx, .sbfxExt], Issues (i f) s env → Completes (i f) s fun t => Advances env t ∧
          (t.grp env.k).rdS env.f.d.toNat = if env.f.d = 0 then {} else
            .of (BitVec.ofNat 64 (fieldRead (f.fn.getLsbD 0) (env.srcB ((turn s).grp env.k) 0).val 64
              (elem (env.srcA ((turn s).grp env.k) 0) 64 0))))
        ∧ ∀ i ∈ [Instr.sbfi, .sbfiExt], Issues (i f) s env → Completes (i f) s fun t => Advances env t ∧
          if env.f.d = 0 then (t.grp env.k).rdS env.f.d.toNat = {} else
            fieldWritten (env.srcB ((turn s).grp env.k) 0).val 64 (elem (env.srcA ((turn s).grp env.k) 0) 64 0)
              (elem (env.srcC ((turn s).grp env.k) 0) 64 0) ((t.grp env.k).rdS env.f.d.toNat).val.toNat)
      ∧ (f.fn.getLsbD 1 = false →
        (∀ i ∈ [Instr.ibfx, .ibfxExt], Issues (i f) s env → LaneElems (i f) s env (intWidth env.f) (CleanAt env) fun g l j =>
          fieldRead (f.fn.getLsbD 0) (env.srcB g l).val (intWidth env.f) (elem (env.srcA g l) (intWidth env.f) j))
        ∧ ∀ i ∈ [Instr.ibfi, .ibfiExt], Issues (i f) s env → Completes (i f) s fun t => Advances env t ∧
          ∀ l : LaneId, env.e.getLsbD l = true → CleanAt env ((turn s).grp env.k) l → ∀ j, j < 64 / intWidth env.f →
            fieldWritten (env.srcB ((turn s).grp env.k) l).val (intWidth env.f) (elem (env.srcA ((turn s).grp env.k) l) (intWidth env.f) j)
              (elem (env.srcC ((turn s).grp env.k) l) (intWidth env.f) j) (elem ((t.grp env.k).rdV env.f.d.toNat l) (intWidth env.f) j)))
  ∧ (
    ∀ (f : Fields) (s : State) (env : Env), NoPoisonTrap s →
      (∀ i ∈ [Instr.ssel, .sselExt], Issues (i f) s env →
        let g := (turn s).grp env.k
        let r := if (env.srcC g 0).val ≠ 0 then env.srcA g 0 else env.srcB g 0
        Completes (i f) s fun t => Advances env t ∧
          ((env.srcC g 0).poi = 0 → r.poi = 0 → (t.grp env.k).rdS env.f.d.toNat = if env.f.d = 0 then {} else .of r.val)
          ∧ ((env.srcC g 0).poi ≠ 0 ∨ r.poi ≠ 0 → (t.grp env.k).rdS env.f.d.toNat = if env.f.d = 0 then {} else .poisoned))
      ∧ ∀ i ∈ [Instr.isel, .iselExt], Issues (i f) s env →
          let chosen (g : Group) (l : LaneId) : Reg := if (g.rdP env.f.c.toNat).getLsbD l then env.srcA g l else env.srcB g l
          LaneElems (i f) s env (intWidth env.f) (fun g l => (chosen g l).poi = 0) fun g l j => elem (chosen g l) (intWidth env.f) j)

/-- Predicates from comparisons, from two predicates, and from a predicate or a mask (R113 to R115). -/
def Obligations.PredicateResults : Prop :=
  ∀ (f : Fields) (s : State) (env : Env), NoPoisonTrap s →
    (∀ i ∈ [Instr.pseti, .psetiExt], Issues (i f) s env → PredResult (i f) s env (CleanAt env) fun g l =>
      let w := if f.md.getLsbD 0 then 64 else 32
      let x := reading w (f.fn.getLsbD 0) (elem (env.srcA g l) w 0)
      let y := reading w (f.fn.getLsbD 0) (elem (env.srcB g l) w 0)
      match bits f.md 1 3 with
      | 0 => decide (x = y)
      | 1 => decide (x ≠ y)
      | 2 => decide (x < y)
      | 3 => decide (x ≤ y)
      | 4 => decide (y < x)
      | _ => decide (y ≤ x))
    ∧ (∀ i ∈ [Instr.plop, .plopExt], Issues (i f) s env → PredResult (i f) s env (fun _ _ => True) fun g l =>
        f.md.getLsbD (2 * ((g.rdP f.a.toNat).getLsbD l).toNat + ((g.rdP f.b.toNat).getLsbD l).toNat))
    ∧ (∀ i ∈ [Instr.pmov, .pmovExt], Issues (i f) s env → PredResult (i f) s env (fun _ _ => True) fun g l =>
        (g.rdP f.b.toNat).getLsbD l)
    ∧ ∀ i ∈ [Instr.pmovMask, .pmovMaskExt], Issues (i f) s env →
        PredResult (i f) s env (fun g _ => (env.srcB g 0).poi = 0) fun g l => (env.srcB g 0).val.getLsbD l

/-! ### Floating point (R69 to R76, R133 to R140) -/

/-- FADD to FNFMS: the exact sum or product-and-sum of R133, rounded once, with the flags of R134 that land with it. The
selection and sign instructions return operands bit for bit, canonical NaNs apart, and set no flag (R135). -/
def Obligations.FloatArithmeticResults : Prop :=
  (
    ∀ e ∈ ([(.fadd, .faddExt, fun fm rn a b _ => fm.dotRound rn [] [fm.val a, fm.val b]),
        (.fsub, .fsubExt, fun fm rn a b _ => fm.dotRound rn [] [fm.val a, (fm.val b).flip true]),
        (.fmul, .fmulExt, fun fm rn a b _ => fm.dotRound rn [(fm.val a, fm.val b)] []),
        (.ffma, .ffmaExt, fun fm rn a b c => fm.dotRound rn [(fm.val a, fm.val b)] [fm.val c]),
        (.ffms, .ffmsExt, fun fm rn a b c => fm.dotRound rn [(fm.val a, fm.val b)] [(fm.val c).flip true]),
        (.fnfma, .fnfmaExt, fun fm rn a b c => fm.dotRound rn [((fm.val a).flip true, fm.val b)] [fm.val c]),
        (.fnfms, .fnfmsExt, fun fm rn a b c => fm.dotRound rn [((fm.val a).flip true, fm.val b)] [(fm.val c).flip true])] :
        List ((Fields → Instr) × (Fields → Instr) × (Fmt → Nat → Nat → Nat → Nat → Nat × BitVec 6))),
      ∀ i ∈ [e.1, e.2.1], ∀ (f : Fields) (s : State) (env : Env), Issues (i f) s env → NoPoisonTrap s →
        FloatResult (i f) s env (fnFmt f) (e.2.2 (fnFmt f) f.rn) ∧ FloatFlags (i f) s env (fnFmt f) (e.2.2 (fnFmt f) f.rn))
  ∧ (
    let pick (fm : Fmt) (big : Bool) (a b : Nat) : Nat := if (fm.key a ≤ fm.key b) = (big = false) then a else b
    let num (big : Bool) (fm : Fmt) (a b : Nat) : Nat :=
      if fm.isNan a ∧ fm.isNan b then fm.canon else if fm.isNan a then b else if fm.isNan b then a else pick fm big a b
    let nan (big : Bool) (fm : Fmt) (a b : Nat) : Nat := if fm.isNan a ∨ fm.isNan b then fm.canon else pick fm big a b
    let top (fm : Fmt) (c : Nat) : Nat := c / fm.sgn % 2
    ∀ e ∈ ([(.fminnum, .fminnumExt, num false), (.fmaxnum, .fmaxnumExt, num true), (.fminnan, .fminnanExt, nan false),
        (.fmaxnan, .fmaxnanExt, nan true), (.fabs, .fabsExt, fun fm a _ => if fm.isNan a then fm.canon else a % fm.sgn),
        (.fneg, .fnegExt, fun fm a _ => if fm.isNan a then fm.canon else a % fm.sgn + (1 - top fm a) * fm.sgn),
        (.fcpysgn, .fcpysgnExt, fun fm a b => if fm.isNan a then fm.canon else a % fm.sgn + top fm b * fm.sgn)] :
        List ((Fields → Instr) × (Fields → Instr) × (Fmt → Nat → Nat → Nat))),
      ∀ i ∈ [e.1, e.2.1], ∀ (f : Fields) (s : State) (env : Env), Issues (i f) s env → NoPoisonTrap s →
        FloatResult (i f) s env (fnFmt f) (fun a b _ => (e.2.2 (fnFmt f) a b, 0))
          ∧ FloatFlags (i f) s env (fnFmt f) (fun a b _ => (e.2.2 (fnFmt f) a b, 0)))

/-- FCLASS, FRND and FSCALE (R136). FDOT2 sums the products of each half and its addend with one rounding to FP32; FHADD sums
adjacent elements of A, then of B (R137). -/
def Obligations.FloatUnaryAndDotResults : Prop :=
  (
    ∀ (f : Fields) (s : State) (env : Env), NoPoisonTrap s →
      (∀ i ∈ [Instr.fclass, .fclassExt], Issues (i f) s env → FloatResult (i f) s env (fnFmt f) fun a _ _ =>
        (match (fnFmt f).val a with
          | .nan => 8
          | .inf true => 0
          | .inf false => 7
          | .fin neg m _ =>
            let k := if m = 0 then 3 else if m < 2 ^ (fnFmt f).mb then 2 else 1
            if neg then k else 7 - k, 0))
      ∧ (∀ i ∈ [Instr.frnd, .frndExt], Issues (i f) s env →
          FloatResult (i f) s env (fnFmt f) (fun a _ _ => (fnFmt f).integral f.rn a)
            ∧ FloatFlags (i f) s env (fnFmt f) fun a _ _ => (fnFmt f).integral f.rn a)
      ∧ ∀ i ∈ [Instr.fscale, .fscaleExt], Issues (i f) s env →
          FloatResult (i f) s env (fnFmt f) (fun a b _ => (fnFmt f).scale f.rn a (reading (fnFmt f).w false b))
            ∧ FloatFlags (i f) s env (fnFmt f) fun a b _ => (fnFmt f).scale f.rn a (reading (fnFmt f).w false b))
  ∧ (
    ∀ (f : Fields) (s : State) (env : Env), NoPoisonTrap s →
      let fm := fnFmt f
      let n := 32 / fm.w
      (∀ i ∈ [Instr.fdot2, .fdot2Ext], Issues (i f) s env → LaneElems (i f) s env 32 (CleanAt env) fun g l j =>
        (fp32.dotRound f.rn ((List.range n).map fun k =>
            (fm.val (elem (env.srcA g l) fm.w (j * n + k)), fm.val (elem (env.srcB g l) fm.w (j * n + k))))
          [fp32.val (elem (env.srcC g l) 32 j)]).1 % 2 ^ 32)
      ∧ ∀ i ∈ [Instr.fhadd, .fhaddExt], Issues (i f) s env → LaneElems (i f) s env fm.w (CleanAt env) fun g l j =>
        let r := if j < n then env.srcA g l else env.srcB g l
        (fm.dotRound f.rn [] [fm.val (elem r fm.w (2 * (j % n))), fm.val (elem r fm.w (2 * (j % n) + 1))]).1 % 2 ^ fm.w)

/-- PSETF compares one element; a NaN makes every condition false but ne and uno, and lt to ge then set NV (R138). -/
def Obligations.FloatCompareResults : Prop :=
  ∀ i ∈ [Instr.psetf, .psetfExt], ∀ (f : Fields) (s : State) (env : Env), Issues (i f) s env → NoPoisonTrap s →
    let fm := fnFmt f
    let a (g : Group) (l : LaneId) : Nat := elem (env.srcA g l) fm.w (bits f.c 0 3)
    let b (g : Group) (l : LaneId) : Nat := elem (env.srcB g l) fm.w (bits f.c 0 3)
    let c := bits f.c 3 4
    PredResult (i f) s env (CleanAt env) (fun g l =>
      if fm.isNan (a g l) ∨ fm.isNan (b g l) then decide (c = 1 ∨ c = 7)
      else match c with
        | 0 => decide (fm.key (a g l) = fm.key (b g l))
        | 1 => decide (fm.key (a g l) ≠ fm.key (b g l))
        | 2 => decide (fm.key (a g l) < fm.key (b g l))
        | 3 => decide (fm.key (a g l) ≤ fm.key (b g l))
        | 4 => decide (fm.key (b g l) < fm.key (a g l))
        | 5 => decide (fm.key (b g l) ≤ fm.key (a g l))
        | 6 => true
        | _ => decide (c ≠ 7))
    ∧ Completes (i f) s fun t => (∀ l : LaneId, env.e.getLsbD l = true → CleanAt env ((turn s).grp env.k) l) →
      ∃ p, (t.grp env.k).pend.getLast? = some p ∧ (p.flags = fNV ∨ p.flags = 0) ∧ (p.flags = fNV ↔ 2 ≤ c ∧ c ≤ 5 ∧
        ∃ l : LaneId, env.e.getLsbD l = true ∧ (fm.isNan (a ((turn s).grp env.k) l) ∨ fm.isNan (b ((turn s).grp env.k) l)))

/-- The special functions compute each element independently (R139, R140). The special cases of the special functions return
exactly the value shown (R139). -/
def Obligations.SpecialFunctionResults : Prop :=
  (
    ∀ e ∈ ([(.frcp, sfRcp), (.frsq, sfRsq), (.fsqrt, sfSqrt), (.fexp2, sfExp2), (.flog2, sfLog2), (.fsin, sfTrig false),
        (.fcos, sfTrig true), (.ftanh, sfTanh), (.fsigm, sfSigm)] : List ((Fields → Instr) × (Fmt → Nat → Nat × BitVec 6))),
      ∀ (f : Fields) (s : State) (env : Env), Issues (e.1 f) s env → NoPoisonTrap s →
        FloatResult (e.1 f) s env (fnFmt f) fun a _ _ => e.2 (fnFmt f) a)
  ∧ (
    ∀ fm ∈ [fp32, bf16, fp16],
      let c : Nat × BitVec 6 := (fm.canon, fNV)
      let z : Nat × BitVec 6 := (0, 0)
      let nz : Nat × BitVec 6 := (fm.sgn, 0)
      let i : Nat × BitVec 6 := (fm.infCode, 0)
      let one : Nat × BitVec 6 := (fm.bias * 2 ^ fm.mb, 0)
      let half : Nat × BitVec 6 := ((fm.bias - 1) * 2 ^ fm.mb, 0)
      SpecialRow sfRcp fm nz (fm.infCode + fm.sgn, fDZ) (fm.infCode, fDZ) z none
      ∧ SpecialRow sfRsq fm c (fm.infCode + fm.sgn, fDZ) (fm.infCode, fDZ) z (some c)
      ∧ SpecialRow sfSqrt fm c nz z i (some c)
      ∧ SpecialRow sfExp2 fm z one one i none
      ∧ SpecialRow sfLog2 fm c (fm.infCode + fm.sgn, fDZ) (fm.infCode + fm.sgn, fDZ) i (some c)
      ∧ SpecialRow (sfTrig false) fm c nz z c none
      ∧ SpecialRow (sfTrig true) fm c one one c none
      ∧ SpecialRow sfTanh fm (one.1 + fm.sgn, 0) nz z one none
      ∧ SpecialRow sfSigm fm z half half one none)

/-- A magnitude off the grid goes to a neighbour under each rounding code of R70: nearest with ties to even or away, toward
zero, down or up; a magnitude on the grid is exact. -/
def Obligations.RoundingPicksTheNeighbour : Prop :=
  ∀ (neg : Bool) (m draw : Nat) (e q : Int), e < q →
    let d := 2 ^ (q - e).toNat
    let r (rc : Nat) : Nat := (roundGrid rc draw neg m e q).1
    (∀ rc, (roundGrid rc draw neg m e q).2 = true ↔ d ∣ m) ∧ (∀ rc, d ∣ m → r rc * d = m)
    ∧ (2 * r 0 * d ≤ 2 * m + d ∧ 2 * m ≤ 2 * r 0 * d + d ∧ (2 * r 0 * d = 2 * m + d ∨ 2 * m = 2 * r 0 * d + d → r 0 % 2 = 0))
    ∧ (r 1 * d ≤ m ∧ m < (r 1 + 1) * d)
    ∧ (if neg then m ≤ r 2 * d ∧ r 2 * d < m + d else r 2 * d ≤ m ∧ m < (r 2 + 1) * d)
    ∧ (if neg then r 3 * d ≤ m ∧ m < (r 3 + 1) * d else m ≤ r 3 * d ∧ r 3 * d < m + d)
    ∧ (2 * r 4 * d ≤ 2 * m + d ∧ 2 * m < 2 * r 4 * d + d)
    ∧ (r 5 * d ≤ m + d ∧ m ≤ r 5 * d + d)

/-! ### Conversions and blocks (R141 to R148) -/

/-- CVT and CVTI convert each element of a part once, and a narrowing conversion keeps the other elements of C (R141, R142). -/
def Obligations.ConversionResults : Prop :=
  ∀ (f : Fields) (s : State) (env : Env), NoPoisonTrap s →
    (∀ i ∈ [Instr.cvt, .cvtExt], Issues (i f) s env →
      let src := cvtFmt (bits f.b 0 3)
      let dst := cvtFmt (bits f.b 3 3)
      ConvResult (i f) s env src.w dst.w fun dr c => (dst.ofVal f.rn dr (f.md.getLsbD 0) (src.val c)).1)
    ∧ ∀ i ∈ [Instr.cvti, .cvtiExt], Issues (i f) s env →
      let w := itWidth (bits f.b 3 2)
      let fm := cvtFmt (bits f.b 0 3)
      let uns := f.md.getLsbD 0
      if f.b.getLsbD 5 then
        ConvResult (i f) s env w fm.w fun dr c =>
          (fm.round f.rn dr false (reading w uns c < 0) (reading w uns c).natAbs 0).1
      else
        ConvResult (i f) s env fm.w w fun dr c =>
          narrow w uns false (valToInt f.rn dr (if uns then 0 else -2 ^ (w - 1)) (if uns then 2 ^ w - 1 else 2 ^ (w - 1) - 1) (fm.val c)).1

/-- CVTF8 widens eight narrow codes of the stream C above A to E4M3; PACK narrows the elements of A, then of B; UNPACK widens
one half of A (R143, R144). PACK without saturation keeps the low bits, and UNPACK gives them back: a narrow code packed from
its widened form is that code (R144). -/
def Obligations.PackResults : Prop :=
  (
    ∀ (f : Fields) (s : State) (env : Env), NoPoisonTrap s →
      let wn := packWidth f
      let n := 64 / (2 * wn)
      (∀ i ∈ [Instr.cvtf8, .cvtf8Ext], Issues (i f) s env → LaneElems (i f) s env 8 (CleanAt env) fun g l j =>
        let w := if f.b = 0 then 4 else 6
        narrowToE4m3 f.b.toNat (((env.srcA g l).val.toNat + 2 ^ 64 * (env.srcC g l).val.toNat) / 2 ^ (16 * f.xf.toNat + w * j) % 2 ^ w) % 256)
      ∧ (∀ i ∈ [Instr.pack, .packExt], Issues (i f) s env → LaneElems (i f) s env wn (CleanAt env) fun g l j =>
          packElem (bits f.c 2 2) wn (elem (if j < n then env.srcA g l else env.srcB g l) (2 * wn) (j % n)) % 2 ^ wn)
      ∧ ∀ i ∈ [Instr.unpack, .unpackExt], Issues (i f) s env → LaneElems (i f) s env (2 * wn) (CleanAt env) fun g l j =>
          let c := elem (env.srcA g l) wn ((if f.c.getLsbD 3 then n else 0) + j)
          if f.c.getLsbD 2 then c else narrow (2 * wn) false false (reading wn false c))
  ∧ (
    ∀ wn ∈ [4, 8, 16, 32], ∀ c, c < 2 ^ wn →
      (∀ mode ∈ [0, 3], packElem mode wn c = c) ∧ ∀ mode ∈ [0, 1], packElem mode wn (narrow (2 * wn) false false (reading wn false c)) = c)

/-- MXSC writes the scale of a block into byte BS of v[D] and keeps its other bytes (R146). MXQ writes the codes of a block
under its scale, and MXDQ the wide values of a block's codes (R147, R148). The scale is that of the largest magnitude, 127 for a block
of zeros, 0xFF with NV where a format without infinities meets a value that is not finite; MXQ rounds each element divided by the scale,
and for MXE takes the at most four elements farthest from their code as escapes with their E4M3 values as side bytes. How MXDQ draws by the
index in the block (log 84), how E5M2 rounds beyond its largest magnitude (log 86) and the scale of a block without a finite value (log 117)
are the model's choices. -/
def Obligations.BlockFormatResults : Prop :=
  (
    ∀ (f : Fields) (s : State) (env : Env), Issues (.mxsc f) s env → NoPoisonTrap s →
      Completes (.mxsc f) s fun t => Advances env t ∧ ∀ l : LaneId, env.e.getLsbD l = true →
        let g := (turn s).grp env.k
        let xs := blockElems g l f.a.toNat (mxW f).w
        let r := (t.grp env.k).rdV f.d.toNat l
        (∀ j, j < 8 → j ≠ mxBs f → elem r 8 j = elem (g.rdV f.d.toNat l) 8 j)
          ∧ ((∀ x ∈ xs, x.2 = false) → elem r 8 (mxBs f) = (mxscScale (mxF f) (xs.map fun x => (mxW f).val x.1)).1 % 256))
  ∧ (
    ∀ (f : Fields) (s : State) (env : Env), NoPoisonTrap s →
      let w := mxWidth (mxF f)
      let fm := mxW f
      (Issues (.mxq f) s env → Completes (.mxq f) s fun t => Advances env t ∧ ∀ l : LaneId, env.e.getLsbD l = true →
        let g := (turn s).grp env.k
        let xs := blockElems g l f.a.toNat fm.w
        let n := 32 * w / 64
        (∀ x ∈ xs, x.2 = false) → (env.srcB g l).poi = 0 → ¬(f.d ≤ f.b ∧ f.b.toNat < f.d.toNat + n) →
          ¬(mxF f = 3 ∧ f.d ≤ f.c ∧ f.c.toNat < f.d.toNat + n) → ∀ j, j < 32 →
            elem ((t.grp env.k).rdV (f.d.toNat + j / (64 / w)) l) w (j % (64 / w)) =
              (mxqBlock (mxF f) f.rn (elem (env.srcB g l) 8 (mxBs f)) (fun i => env.draw (turn s) l i)
                (xs.map fun x => fm.val x.1)).codes.getD j 0 % 2 ^ w)
      ∧ (Issues (.mxdq f) s env → Completes (.mxdq f) s fun t => Advances env t ∧ ∀ l : LaneId, env.e.getLsbD l = true →
        let g := (turn s).grp env.k
        let cs := blockElems g l f.a.toNat w
        let vs := mxVals (mxF f) (elem (env.srcC g l) 32 (mxSide f)) (cs.map Prod.fst)
        (∀ x ∈ cs, x.2 = false) → (env.srcB g l).poi = 0 → (env.srcC g l).poi = 0 → ∀ j (h : j < vs.length), j < 32 →
          elem ((t.grp env.k).rdV (f.d.toNat + j / (64 / fm.w)) l) fm.w (j % (64 / fm.w)) =
            (fm.ofVal f.rn (env.draw (turn s) l j) false (mxScale (elem (env.srcB g l) 8 (mxBs f)) vs[j].v)).1 % 2 ^ fm.w))
  ∧ (
    ∀ (ty : Nat) (xs : List Val), ty ≤ 4 →
      let emax : Int := [8, 15, 2, 2, 0].getD ty 0
      let finite (v : Val) : Prop := ∃ n m e, v = .fin n m e
      ((2 ≤ ty → ∀ v ∈ xs, finite v) →
        (∀ n m e, Val.fin n m e ∈ xs → m ≠ 0 → (∀ n' m' e', Val.fin n' m' e' ∈ xs → m' ≠ 0 → (Nat.log2 m' : Int) + e' ≤ Nat.log2 m + e) →
          mxscScale ty xs = ((max 0 (min 254 ((Nat.log2 m : Int) + e - emax + 127))).toNat, 0))
        ∧ ((∀ n m e, Val.fin n m e ∈ xs → m = 0) → mxscScale ty xs = (127, 0)))
      ∧ (2 ≤ ty → (∃ v ∈ xs, ¬finite v) → mxscScale ty xs = (255, fNV)))
  ∧ (
    ∀ (ty rn sc : Nat) (dr : Nat → Nat) (xs : List Val), ty ≤ 4 → xs.length = 32 →
      let q := mxqBlock ty rn sc dr xs
      let finite (v : Val) : Prop := ∃ n m e, v = .fin n m e
      let y (i : Nat) : Val := match xs.getD i .nan with
        | .fin n m e => .fin n m (e + 127 - sc)
        | x => x
      let code (i : Nat) : Nat := (mxRound ty rn (dr i) (y i)).1
      let far (i : Nat) : Nat := residual (y i) (e2m1.val (code i))
      let esc (i : Nat) : Bool := far i != 0 && decide (((List.range 32).countP fun k => far i < far k || (far i = far k && k < i)) < 4)
      (sc = 255 → q = { codes := List.replicate 32 0 })
      ∧ (sc ≠ 255 → 2 ≤ ty → (∃ v ∈ xs, ¬finite v) → q = { codes := List.replicate 32 0, nan := true, flags := fNV })
      ∧ (sc ≠ 255 → (2 ≤ ty → ∀ v ∈ xs, finite v) → q.nan = false ∧ q.codes.length = 32
          ∧ (ty ≠ 3 → q.side = 0 ∧ ∀ i, i < 32 → q.codes.getD i 0 = code i)
          ∧ (ty = 3 → ∀ i, i < 32 →
              (esc i = true → q.codes.getD i 0 = 8
                ∧ q.side / 2 ^ (8 * (List.range i).countP esc) % 256 = (e4m3.ofVal rn (dr (i + 32)) false (y i)).1 % 256)
              ∧ (esc i = false → q.codes.getD i 0 = if code i = 8 then 0 else code i))))

/-! ### Cross-lane instructions (R116, R149 to R155) -/

/-- SHFL takes another lane's register, SHFLX and PERM elements by selectors, each with its poison (R150, R151, R155). -/
def Obligations.ShuffleResults : Prop :=
  ∀ (f : Fields) (s : State) (env : Env), NoPoisonTrap s →
    (Issues (.shfl f) s env → Completes (.shfl f) s fun t => Advances env t ∧ ∀ l : LaneId, env.e.getLsbD l = true →
      let g := (turn s).grp env.k
      let b := bits (env.srcB g l).val 0 5
      (env.srcB g l).poi = 0 → (t.grp env.k).rdV f.d.toNat l = g.rdV f.a.toNat (laneOf
        (match f.md.toNat with
          | 0 => b
          | 1 => l ^^^ b
          | 2 => if l < b then l else l - b
          | _ => if 31 < l + b then l else l + b)))
    ∧ (Issues (.shflx f) s env →
      let w := shflxWidth f.md.toNat
      LaneElems (.shflx f) s env w (fun g l => (∀ n, (g.rdV n l).poi = 0) ∧ (∀ n, (g.rdS n).poi = 0)
          ∧ ∀ m, (g.rdV f.a.toNat m).poi = 0) fun g l j =>
        let sel := if f.xf = 0 then elem (g.rdV (f.b.toNat + j / 4) l) 16 (j % 4)
                   else if f.xf = 1 then elem (g.rdS f.b.toNat) 16 0 else bits f.imm 0 16
        if 2 ^ 15 ≤ sel then 0 else elem (g.rdV f.a.toNat (laneOf (sel / 16 % 32))) w (sel % 16 % (64 / w)))
    ∧ (Issues (.perm f) s env → LaneElems (.perm f) s env 8 (CleanAt env) fun g l j =>
        let sel := if f.xf = 0 then elem (env.srcC g l) 8 j else bits f.imm (4 * j) 4
        if 128 ≤ sel then 0 else elem (if sel % 16 < 8 then env.srcA g l else env.srcB g l) 8 (sel % 8))

/-- The group-synchronous instructions act on every live lane at once: BCAST sends one element to all, RRED and RSCAN reduce
over the participants in ascending order (R94, R152 to R154). VOTE: any and all set a predicate of every participant, ballot a
mask; lanes that exited contribute nothing (R116). -/
def Obligations.GroupSynchronousResults : Prop :=
  (
    ∀ (f : Fields) (s : State) (env : Env), NoPoisonTrap s →
      let all (g : Group) : Prop := ∀ (n : Nat) (l : LaneId), (g.rdV n l).poi = 0 ∧ (g.rdS n).poi = 0
      let col (g : Group) (m : LaneMask) (j : Nat) : List Elem :=
        (laneList m).map fun l => (elem (env.srcA g l) (redWidth f) j, false)
      (IssuesSync (.bcast f) s env →
        let w := shflxWidth f.md.toNat
        LaneElems (.bcast f) s env w (fun g _ => all g) fun g _ _ =>
          let sel := if f.xf = 1 then elem (g.rdS f.b.toNat) 16 0 else bits f.imm 0 16
          if 2 ^ 15 ≤ sel then 0 else elem (g.rdV f.a.toNat (laneOf (sel / 16 % 32))) w (sel % 16 % (64 / w)))
      ∧ (IssuesSync (.rred f) s env → f.xf = 0 →
          LaneElems (.rred f) s env (redWidth f) (fun g _ => all g) fun g _ j => (foldElem f (col g env.e j)).1.1 % 2 ^ redWidth f)
      ∧ (IssuesSync (.rred f) s env → f.xf = 1 → Completes (.rred f) s fun t => Advances env t ∧
          (all ((turn s).grp env.k) → f.d ≠ 0 → ∀ j, j < 64 / redWidth f → elem ((t.grp env.k).rdS f.d.toNat) (redWidth f) j =
            (foldElem f (col ((turn s).grp env.k) env.e j)).1.1 % 2 ^ redWidth f))
      ∧ (IssuesSync (.rscan f) s env →
          LaneElems (.rscan f) s env (redWidth f) (fun g _ => all g) fun g l j =>
            (foldElem f (col g (lanesTo env.e l (f.xf = 1)) j)).1.1 % 2 ^ redWidth f))
  ∧ (
    ∀ (f : Fields) (s : State) (env : Env), IssuesSync (.vote f) s env → Completes (.vote f) s fun t => Advances env t ∧
      let g := (turn s).grp env.k
      let yes := g.rdP f.a.toNat &&& env.e
      (f.fn = 2 → (t.grp env.k).rdS f.d.toNat = if f.d = 0 then {} else .of (yes.zeroExtend 64))
      ∧ ∀ l : LaneId, env.e.getLsbD l = true → f.d ≠ 0 →
          (f.fn = 0 → (((t.grp env.k).rdP f.d.toNat).getLsbD l = true ↔ yes ≠ 0))
          ∧ (f.fn = 1 → (((t.grp env.k).rdP f.d.toNat).getLsbD l = true ↔ yes = env.e)))

/-! ### Control (R117 to R129) -/

/-- BRA, BRP, BRX and LOOP move the lanes of E to their targets under their conditions, and the other lanes of the path to the
next instruction (R117, R118, R119, R121). -/
def Obligations.BranchResults : Prop :=
  ∀ (f : Fields) (s : State) (env : Env), NoPoisonTrap s →
    let g := (turn s).grp env.k
    (∀ i ∈ [Instr.bra, .braExt], Issues (i f) s env →
      Completes (i f) s fun t => GoesTo env t fun _ => wordTarget env (offset18 f))
    ∧ (∀ i ∈ [Instr.brp, .brpExt], Issues (i f) s env →
      let holds : Prop := match f.xf.toNat with
        | 0 => ∃ l : LaneId, env.e.getLsbD l = true ∧ (g.rdP f.d.toNat).getLsbD l = true
        | 1 => ∀ l : LaneId, env.e.getLsbD l = true → (g.rdP f.d.toNat).getLsbD l = true
        | 2 => ∀ l : LaneId, env.e.getLsbD l = true → (g.rdP f.d.toNat).getLsbD l = false
        | _ => ∃ l : LaneId, env.e.getLsbD l = true ∧ (g.rdP f.d.toNat).getLsbD l = false
      Completes (i f) s fun t => (holds → GoesTo env t fun _ => wordTarget env (offset12 f)) ∧ (¬holds → Advances env t))
    ∧ (∀ i ∈ [Instr.brx, .brxExt], Issues (i f) s env →
      let tgt (l : LaneId) : Word := (env.srcA g l).val + f.imm.signExtend 64
      (∀ l : LaneId, env.e.getLsbD l = true → (env.srcA g l).poi = 0) →
        ((∀ l : LaneId, env.e.getLsbD l = true → 4 ∣ (tgt l).toNat ∧ (tgt l).toNat < 2 ^ 56) →
          Completes (i f) s fun t => GoesTo env t tgt)
        ∧ ∀ l : LaneId, env.e.getLsbD l = true → ¬(4 ∣ (tgt l).toNat ∧ (tgt l).toNat < 2 ^ 56) →
          (∀ m : LaneId, env.e.getLsbD m = true → m < l → 4 ∣ (tgt m).toNat ∧ (tgt m).toNat < 2 ^ 56) →
            Traps (i f) s env.k 0x0B (tgt l))
    ∧ ∀ i ∈ [Instr.loop, .loopExt], Issues (i f) s env → (g.rdS f.d.toNat).poi = 0 →
      let cnt := (g.rdS f.d.toNat).val - 1
      Completes (i f) s fun t => (t.grp env.k).rdS f.d.toNat = (if f.d = 0 then {} else .of cnt)
        ∧ (cnt ≠ 0 → GoesTo env t fun _ => wordTarget env (offset12 f)) ∧ (cnt = 0 → Advances env t)

/-- CALL and CALLX push the return address and go to the target, RET goes to the popped address, and a lane at call depth 0
exits (R97, R120). A full hardware stack first spills its oldest entry at the home, or as a store in flight where something stands before it
there; with no room in the spill region it traps STACK_SPILL. A RET with an empty hardware stack fills from the region. -/
def Obligations.CallResults : Prop :=
  ∀ (f : Fields) (s : State) (env : Env), NoPoisonTrap s →
    let g := (turn s).grp env.k
    let room : Prop := ∀ l : LaneId, env.e.getLsbD l = true → g.lane[l].hw.length < 8
    let pushed (t : State) : Prop :=
      ∀ l : LaneId, env.e.getLsbD l = true → (t.grp env.k).lane[l].hw = env.nxt :: g.lane[l].hw
    let tgt (l : LaneId) : Word := (env.srcA g l).val + f.imm.signExtend 64
    let calls (i : Instr) (target : LaneId → Word) : Prop :=
      Completes i s fun t => pushed t ∧ ∀ l : LaneId, env.e.getLsbD l = true → (t.grp env.k).lane[l].pcv = target l
    (∀ i ∈ [Instr.call, .callExt], Issues (i f) s env → room → calls (i f) fun _ => wordTarget env (offset18 f))
    ∧ (∀ i ∈ [Instr.callx, .callxExt], Issues (i f) s env → room →
        (∀ l : LaneId, env.e.getLsbD l = true → (env.srcA g l).poi = 0 ∧ 4 ∣ (tgt l).toNat ∧ (tgt l).toNat < 2 ^ 56) → calls (i f) tgt)
    ∧ (∀ i ∈ [Instr.call, .callExt], Issues (i f) s env → ∀ l : LaneId, env.e = 1 <<< l.val →
        g.lane[l].hw.length = 8 → g.lane[l].spilled.toNat = g.bind.spillCap →
          Traps (i f) s env.k 0x0E (BitVec.ofNat 64 (0x09 * 2 ^ 58 + (spillEntry g l g.bind.spillCap).toNat % 2 ^ 56)))
    ∧ (∀ (i : Instr) (l : LaneId) (e : TlbEnt), Issues i s env → env.e = 1 <<< l.val →
        let p := ((turn s).ctx g.ctx).part
        let push : Prop := i = .call f ∨ i = .callExt f
        let a := spillEntry g l (if i = .ret f ∨ i = .retExt f then g.lane[l].spilled.toNat - 1 else g.lane[l].spilled.toNat)
        let x : Xlate := { leaf := e.leaf.toNat, pa := leafPa e.leaf.toNat e.size a.toNat, base := e.base, size := e.size }
        let lo := spillLane l a x
        let home := (turn s).seqPa p lo.rep lo.pa
        let oldest := leBytes 8 (g.lane[l].hw.getLastD 0).toNat
        let clean : Prop := ((turn s).l1 (coreOf env.k) (l1Key p a.toNat)).dirty &&& lineMask (a.toNat % 64) 8 = 0
        (push → g.lane[l].hw.length = 8 → g.lane[l].spilled.toNat ≠ g.bind.spillCap → Maps (turn s) env.k a .store e →
          (turn s).spillWaits env.k lo true = false → (turn s).owns p home = true ∨ (turn s).spillNow env.k p lo x = false → clean →
            Completes i s fun t => (t.grp env.k).lane[l].pcv = wordTarget env (offset18 f)
              ∧ (t.grp env.k).lane[l].hw = env.nxt :: g.lane[l].hw.dropLast ∧ (t.grp env.k).lane[l].spilled = g.lane[l].spilled + 1
              ∧ ((turn s).spillNow env.k p lo x = true → ∀ j b, oldest[j]? = some b → memGet t.mem (home + j) = b)
              ∧ ((turn s).spillNow env.k p lo x = false → ∃ o ∈ t.ops, o.k = env.k ∧ o.kind = .st ∧ o.size = 8 ∧ o.lanes = [{ lo with data := oldest }]))
        ∧ (i = .ret f ∨ i = .retExt f → g.lane[l].hw = [] → g.lane[l].spilled ≠ 0 → Maps (turn s) env.k a .load e → lo.tgt = 0 →
            (turn s).spillWaits env.k lo false = false → (turn s).cutBoth p (siteOf env.k) ((turn s).homeSite home) = false →
            g.lane[l].fill = none → clean → ∀ v ps, ((turn s).homeRd p g.ctx home 8 0).2 = some (v, ps) → ps.any id = false → 4 ∣ leNat v →
              Completes i s fun t => (t.grp env.k).lane[l].pcv = BitVec.ofNat 64 (leNat v) ∧ (t.grp env.k).lane[l].hw = []
                ∧ (t.grp env.k).lane[l].spilled = g.lane[l].spilled - 1))
    ∧ ∀ i ∈ [Instr.ret, .retExt], Issues (i f) s env →
        (∀ l : LaneId, env.e.getLsbD l = true → (∃ a r, g.lane[l].hw = a :: r ∧ 4 ∣ a.toNat) ∨ g.lane[l].hw = [] ∧ g.lane[l].spilled = 0) →
          Completes (i f) s fun t => ∀ l : LaneId, env.e.getLsbD l = true →
            (∀ a r, g.lane[l].hw = a :: r → (t.grp env.k).lane[l].pcv = a ∧ (t.grp env.k).lane[l].hw = r)
              ∧ (g.lane[l].hw = [] → (t.grp env.k).lane[l].st = .exited)

/-- YIELD sets the yield bits of E, which all clear where no lane is left live and unyielded; SLEEP holds the group for its
time; EXIT ends the lanes of E, and the group drains with the last (R90, R122 to R124). NOP only advances; SAFEPT too unless a
pre-emption is pending, when the group holds until its copies are complete; PIN and UNPIN set and clear the pin flag (R124 to
R126). -/
def Obligations.WaitingAndIdleResults : Prop :=
  (
    ∀ (f : Fields) (s : State) (env : Env), NoPoisonTrap s →
      let g := (turn s).grp env.k
      let yields (l : LaneId) : Bool := g.lane[l].yld || env.e.getLsbD l
      let stays : Prop := ∃ l : LaneId, g.lane[l].st = .live ∧ yields l = false
      (∀ i ∈ [Instr.yield, .yieldExt], Issues (i f) s env → Completes (i f) s fun t => Advances env t
        ∧ (∀ l : LaneId, (t.grp env.k).lane[l].yld = true ↔ yields l = true ∧ stays) ∧ (f.stall = 0 → (t.grp env.k).st = .ready))
      ∧ (∀ i ∈ [Instr.sleep, .sleepExt], Issues (i f) s env → (env.srcB g 0).poi = 0 →
          let n := min (env.srcB g 0).val.toNat (2 ^ 32 - 1)
          Completes (i f) s fun t => Advances env t
            ∧ (n ≠ 0 → (t.grp env.k).st = .held ∧ (t.grp env.k).hold = .sleep
                ∧ (t.grp env.k).sleepEnd = some (s.time + BitVec.ofNat 64 n)))
      ∧ ∀ i ∈ [Instr.exit, .exitExt], Issues (i f) s env → Completes (i f) s fun t =>
          (∀ l : LaneId, env.e.getLsbD l = true → (t.grp env.k).lane[l].st = .exited ∧ (t.grp env.k).lane[l].yld = false)
            ∧ (∀ l : LaneId, env.path.getLsbD l = true → env.e.getLsbD l = false → (t.grp env.k).lane[l].pcv = env.nxt)
            ∧ ((∀ l : LaneId, env.e.getLsbD l = false → g.lane[l].st = .exited) → (t.grp env.k).st = .draining))
  ∧ (
    ∀ (f : Fields) (s : State) (env : Env),
      let g := (turn s).grp env.k
      let asked : Prop := ((s.ctx g.ctx).preempt).isSome
      (∀ i ∈ [Instr.nop, .nopExt], Issues (i f) s env → Completes (i f) s fun t => Advances env t)
      ∧ (∀ i ∈ [Instr.safept, .safeptExt], Issues (i f) s env → Completes (i f) s fun t => Advances env t
          ∧ (asked → (t.grp env.k).st = .held ∧ (t.grp env.k).hold = .copies ∧ (t.grp env.k).stopReq = some .safePoint)
          ∧ (¬asked → (t.grp env.k).stopReq = g.stopReq))
      ∧ (∀ i ∈ [Instr.pin, .pinExt], Issues (i f) s env → Completes (i f) s fun t => Advances env t ∧ (t.grp env.k).pin = true)
      ∧ ∀ i ∈ [Instr.unpin, .unpinExt], Issues (i f) s env → Completes (i f) s fun t => Advances env t ∧ (t.grp env.k).pin = false)

/-- TRAP raises SOFTWARE and BKPT raises BREAK at the address of word 0 (R127); a reserved major opcode raises ILLEGAL_OPCODE
there (R43). A group with nothing in flight is trapped at once, with its path where it stood (R98). -/
def Obligations.TrapInstructions : Prop :=
  (∀ (f : Fields) (s : State) (env : Env),
    (∀ i ∈ [Instr.trap, .trapExt], Issues (i f) s env → Traps (i f) s env.k 0x30 env.pc)
    ∧ (∀ i ∈ [Instr.bkpt, .bkptExt], Issues (i f) s env → Traps (i f) s env.k 0x31 env.pc)
    ∧ ∀ i ∈ [Instr.trap, .trapExt, .bkpt, .bkptExt], Issues (i f) s env → (turn s).quiet env.k = true →
        Completes (i f) s fun t => (t.grp env.k).st = .trapped ∧ (t.grp env.k).donemask = 0 ∧ t.out = s.out ++ [.trapInterrupt env.k]
          ∧ (t.grp env.k).lane = ((turn s).grp env.k).lane ∧ SameMemory s t)
  ∧ ∀ (w : Word32) (s : State) (sel : Sel), ((turn s).grp s.cur).mayIssue s.time = true → ((turn s).grp s.cur).select = some sel →
      sel.sync = false → Traps (.reservedMajorOpcode w) s s.cur 0x01 sel.pc

/-- MOVSR reads a special register into every executing lane or, once, into an s register (R83, R128). MOVRS writes sr.fflags,
sr.srseed and sr.ctl, whose reserved bits ignore the write; any other special register raises PRIVILEGE, whatever the guard
(R40, R129). -/
def Obligations.SpecialRegisterMoves : Prop :=
  (
    ∀ (f : Fields) (s : State) (env : Env), ∀ i ∈ [Instr.movsr, .movsrExt], Issues (i f) s env →
      let g := (turn s).grp env.k
      ∀ e ∈ ([(0x00, fun l => BitVec.ofNat 64 l.val), (0x01, fun _ => BitVec.ofNat 64 g.gid), (0x02, fun _ => g.teamid.zeroExtend 64),
          (0x03, fun _ => g.gridid.zeroExtend 64), (0x04, fun _ => BitVec.ofNat 64 (env.k / 64 % 48)),
          (0x05, fun _ => BitVec.ofNat 64 (env.k / 64 / 48)), (0x06, fun _ => if g.moved then 1 else 0),
          (0x07, fun _ => BitVec.ofNat 64 (g.consumer.toNat + 2 * g.copyr.toNat + 16 * (g.regs / 8))),
          (0x08, fun _ => BitVec.ofNat 64 g.depth), (0x09, fun _ => s.time + (s.ctx g.ctx).desc.toff),
          (0x0A, fun _ => g.fflags.zeroExtend 64), (0x0B, fun _ => g.trapcause.zeroExtend 64), (0x0C, fun _ => g.trapaddr),
          (0x0D, fun _ => g.donemask.zeroExtend 64), (0x0E, fun _ => g.srseed), (0x0F, fun _ => g.ctl.zeroExtend 64),
          (0x10, fun _ => BitVec.ofNat 64 (g.period.toNat + 2 ^ 32 * (g.elapsed % 2 ^ 32)))] : List (Nat × (LaneId → Word))),
        f.a.toNat = e.1 → Completes (i f) s fun t => Advances env t ∧ (t.grp env.k).moved = (decide (e.1 ≠ 0x06) && g.moved)
          ∧ (f.xf = 1 → (t.grp env.k).rdS f.d.toNat = if f.d = 0 then {} else .of (e.2 (lowLane env.e)))
          ∧ (f.xf ≠ 1 → ∀ l : LaneId, env.e.getLsbD l = true → (t.grp env.k).rdV f.d.toNat l = .of (e.2 l)))
  ∧ (
    ∀ (f : Fields) (s : State), ∀ i ∈ [Instr.movrs, .movrsExt],
      (∀ env : Env, Issues (i f) s env → NoPoisonTrap s → (env.srcB ((turn s).grp env.k) 0).poi = 0 →
        let g := (turn s).grp env.k
        let x := (env.srcB g 0).val
        Completes (i f) s fun t => Advances env t
          ∧ (t.grp env.k).fflags = (if f.d = 0x0A then x.truncate 6 else g.fflags)
          ∧ (t.grp env.k).srseed = (if f.d = 0x0E then x else g.srseed)
          ∧ (t.grp env.k).ctl = (if f.d = 0x0F then x.truncate 2 else g.ctl))
      ∧ ∀ (sh : Shape) (sel : Sel), opOf (i f) = some (0x28, f) → ((turn s).grp s.cur).mayIssue s.time = true →
          ((turn s).grp s.cur).select = some sel → sel.sync = false → shape 0x28 f = some sh → (sh.base || f.ext) = true →
          sh.fieldsOk f = true → budgetOk ((turn s).grp s.cur) ((turn s).team ((turn s).grp s.cur).team).nbars sh f = true →
          f.fn = 1 → f.d ∉ [0x0A, 0x0E, 0x0F] → Traps (i f) s s.cur 0x04 sel.pc)

/-! ### Memory instructions at issue (R204 to R217) -/

/-- LD, ST and LDP enter flight with the address of each executing lane, translated by the TLB, and for a store with the bytes
of its registers; LDC with that of the lowest lane. A SCOPE of 5 or above is reserved for all but LDP, which ignores its
policy's SCOPE, as LD with POLL does, by the model's choice (log 102); a poll of more than 8 bytes is reserved (R196, R205, R208, R211, R212). An access to a page that the TLB lacks
is held while its miss is walked (R191). -/
def Obligations.GlobalMovesIssue : Prop :=
  ∀ (f : Fields) (s : State) (env : Env), NoPoisonTrap s →
    let g := (turn s).grp env.k
    let size := 2 ^ bits f.md 0 3
    let pol := g.rdS f.c.toNat
    let ok (needsScope poll : Bool) (acc : Acc1) (ls : List LaneId) : Prop :=
      pol.poi = 0 ∧ pol.val.toNat < 2 ^ 22 ∧ (needsScope = true → (poll = true ∧ pol.val.getLsbD 20 = true) ∨ bits pol.val 16 4 < 5) ∧ (poll = true → pol.val.getLsbD 20 = true → size ≤ 8)
        ∧ ∀ l ∈ ls, AddrClean env g l ∧ size ∣ (addrOf env g f.imm.toInt l).toNat ∧ ∃ e, Maps (turn s) env.k (addrOf env g f.imm.toInt l) acc e
    let acc (a : Acc1) (l : LaneId) (x : LaneOp) : Prop :=
      x.ea = addrOf env g f.imm.toInt l ∧ x.phase = .waiting ∧ ∃ e, Maps (turn s) env.k x.ea a e
        ∧ x.pa = leafPa e.leaf.toNat e.size x.ea.toNat ∧ x.tgt = leafTgt e.leaf.toNat
    (Issues (.ld f) s env → ok true true .load (laneList env.e) → Starts (.ld f) s env .ld (laneList env.e) (fun o => o.size = size) (acc .load))
    ∧ (Issues (.st f) s env → ok true false .store (laneList env.e) → Starts (.st f) s env .st (laneList env.e) (fun o => o.size = size)
        fun l x => acc .store l x ∧ x.data = vBytes g f.d.toNat size l)
    ∧ (Issues (.ldp f) s env → ok false false .load (laneList env.e) → Starts (.ldp f) s env .ldp (laneList env.e) (fun o => o.size = size) (acc .load))
    ∧ (Issues (.ldc f) s env → ok true false .load [lowLane env.e] →
        Starts (.ldc f) s env .ldc [lowLane env.e] (fun o => o.size = size) (acc .load))
    ∧ ∀ i ∈ [Instr.ld, .st, .ldp, .ldc], Issues (i f) s env → pol.poi = 0 → pol.val.toNat < 2 ^ 22 → bits pol.val 16 4 < 5 → size ≤ 8 →
        (∀ l : LaneId, env.e.getLsbD l = true → AddrClean env g l ∧ size ∣ (addrOf env g f.imm.toInt l).toNat
          ∧ (addrOf env g f.imm.toInt l).toNat < 2 ^ 56
          ∧ (turn s).tlbFind (siteOf env.k) ((turn s).ctx g.ctx).part (addrOf env g f.imm.toInt l).toNat = none) →
        ((turn s).tile (siteOf env.k)).walks = [] → Completes (i f) s fun t =>
          (t.grp env.k).st = .held ∧ (t.grp env.k).hold = .access ∧ (t.grp env.k).lane = g.lane ∧ t.ops = s.ops
            ∧ ∃ m ∈ (t.tile (siteOf env.k)).walks, m.k = env.k ∧ m.none = false
                ∧ m.page = (addrOf env g f.imm.toInt (lowLane env.e)).toNat / 65536

/-- LDS, STS, LDB and STB enter flight with the offset of each executing lane in the team's window or the partition's bank
memory; a lane that is misaligned or out of it traps, the lowest first (R99, R205, R209, R210). -/
def Obligations.LocalMovesIssue : Prop :=
  ∀ e ∈ ([(.lds, .lds, .spad, false, 0x0C), (.sts, .sts, .spad, true, 0x0C), (.ldb, .ldb, .bank, false, 0x0D), (.stb, .stb, .bank, true, 0x0D)] :
      List ((Fields → Instr) × OpKind × Space × Bool × Nat)),
    ∀ (f : Fields) (s : State) (env : Env), Issues (e.1 f) s env → NoPoisonTrap s →
      let g := (turn s).grp env.k
      let size := 2 ^ bits f.md 0 3
      let a := addrOf env g f.imm.toInt
      let ok (l : LaneId) : Prop := AddrClean env g l ∧ Local (turn s) env.k e.2.2.1 (a l) size size size e.2.2.2.1
      ((∀ l : LaneId, env.e.getLsbD l = true → ok l) → Starts (e.1 f) s env e.2.1 (laneList env.e) (fun o => o.size = size) fun l x =>
        x.ea = a l ∧ x.pa = (a l).toNat ∧ x.phase = .waiting ∧ (e.2.2.2.1 = true → x.data = vBytes g f.d.toNat size l))
      ∧ ∀ l : LaneId, env.e.getLsbD l = true → (∀ m : LaneId, env.e.getLsbD m = true → m < l → ok m) →
          (∀ m : LaneId, env.e.getLsbD m = true → AddrClean env g m ∧ (turn s).rangeHeld (siteOf env.k) g.team (a m).toNat size e.2.2.2.1 = false) →
            (¬size ∣ (a l).toNat → Traps (e.1 f) s env.k 0x0B (a l))
            ∧ (size ∣ (a l).toNat → ¬ok l → Traps (e.1 f) s env.k e.2.2.2.2 (a l))

/-- The atomics enter flight with each executing lane's address and operands, a release in them first to complete and an acquire
for their end where MOD asks for it (R215 to R217, R229). -/
def Obligations.AtomicsIssue : Prop :=
  ∀ (f : Fields) (s : State) (env : Env), NoPoisonTrap s →
    let g := (turn s).grp env.k
    let size := atomSize f.atype
    let a := addrOf env g (f.imm.extractLsb' 16 16).toInt
    let clean (l : LaneId) : Prop := AddrClean env g l ∧ (g.rdV f.c.toNat l).poi = 0 ∧ (f.aop = 9 → (g.rdV (f.c.toNat + 1) l).poi = 0)
    let order (o : Op) : Prop := o.size = size ∧ o.rel.isSome = f.md.getLsbD 1 ∧ o.acq = if f.md.getLsbD 0 then some f.ascope else none
    let arg (l : LaneId) (x : LaneOp) : Prop := x.ea = a l ∧ x.phase = .waiting ∧ x.data = vBytes g f.c.toNat size l
      ∧ x.data2 = if f.aop = 9 then vBytes g (f.c.toNat + 1) size l else []
    (∀ e ∈ ([(.atom, .atom), (.acas, .acas)] : List ((Fields → Instr) × OpKind)), Issues (e.1 f) s env →
      (∀ l : LaneId, env.e.getLsbD l = true → clean l ∧ size ∣ (a l).toNat ∧ ∃ x, Maps (turn s) env.k (a l) .atom x) →
        Starts (e.1 f) s env e.2 (laneList env.e) order fun l x => arg l x ∧ ∃ y, Maps (turn s) env.k (a l) .atom y
          ∧ x.pa = leafPa y.leaf.toNat y.size (a l).toNat ∧ x.tgt = leafTgt y.leaf.toNat)
    ∧ (∀ e ∈ ([(.atoms, .atoms, .spad), (.atomb, .atomb, .bank), (.bvec, .bvec, .bank)] : List ((Fields → Instr) × OpKind × Space)),
      Issues (e.1 f) s env → (∀ l : LaneId, env.e.getLsbD l = true → clean l ∧ Local (turn s) env.k e.2.2 (a l) size size size true) →
        Starts (e.1 f) s env e.2.1 (laneList env.e) order fun l x => arg l x ∧ x.pa = (a l).toNat)
    ∧ (Issues (.bred f) s env →
      (∀ l : LaneId, env.e.getLsbD l = true → AddrClean env g l ∧ (g.rdV f.c.toNat l).poi = 0 ∧ (g.rdV f.d.toNat l).poi = 0
        ∧ Local (turn s) env.k .bank (a l) size 16 16 true) →
        Starts (.bred f) s env .bred (laneList env.e) order fun l x =>
          x.ea = a l ∧ x.pa = (a l).toNat ∧ x.phase = .waiting ∧ x.data = vBytes g f.c.toNat size l ∧ x.seq = (g.rdV f.d.toNat l).val)

/-- PREF brings a line into the L2 of its home, or with MOD[0] into L1; CFLUSH and CINV enter flight with the line of each lane;
CPIN pins a line of device memory and CUNPIN frees it, with the count in s[D] (R213, R214). -/
def Obligations.CacheInstructions : Prop :=
  ∀ (f : Fields) (s : State) (env : Env), NoPoisonTrap s →
    let g := (turn s).grp env.k
    let p := ((turn s).ctx g.ctx).part
    let a := addrOf env g f.imm.toInt
    let home (e : TlbEnt) (va : Nat) : Nat := (turn s).seqPa p (leafRep e.leaf.toNat) (leafPa e.leaf.toNat e.size va)
    (∀ (l : LaneId) (e : TlbEnt), Issues (.pref f) s env → env.e = 1 <<< l.val → (g.rdS f.c.toNat) = {} →
      Maps (turn s) env.k (a l) .load e → leafTgt e.leaf.toNat = 0 → leafNc e.leaf.toNat = false →
      (turn s).owns p (home e (a l).toNat / 64 * 64) = true → (turn s).hasL2 (home e (a l).toNat / 64 * 64 / 2 ^ 32) = true →
      leafRep e.leaf.toNat = none → (turn s).lineLeaving (coreOf env.k) (l1Key p (a l).toNat) = false →
        Completes (.pref f) s fun t => Advances env t
          ∧ (f.md.getLsbD 0 = false → ((smGet {} t.l2 (home e (a l).toNat / 256)).valid.getLsbD (home e (a l).toNat / 64 % 4)) = true)
          ∧ (f.md.getLsbD 0 = true → (t.l1 (coreOf env.k) (l1Key p (a l).toNat)).valid = BitVec.allOnes 64))
    ∧ (∀ i ∈ [Instr.cflush, .cinv], Issues (i f) s env → (∀ l : LaneId, env.e.getLsbD l = true → ∃ e,
        (a l).toNat < 2 ^ 56 ∧ (turn s).tlbFind (siteOf env.k) p (a l).toNat = some e) →
        Starts (i f) s env .flush (laneList env.e) (fun _ => True) fun l x => x.ea.toNat = (a l).toNat / 64 * 64 ∧ x.phase = .waiting)
    ∧ ∀ e : TlbEnt, (g.rdS f.b.toNat) = .of 256 → (g.rdS f.a.toNat).poi = 0 →
        let va := (g.rdS f.a.toNat).val + BitVec.ofInt 64 f.imm.toInt
        let ln := home e va.toNat / 256
        256 ∣ va.toNat → Maps (turn s) env.k va .load e →
        (f.md.getLsbD 0 = false → Issues (.cpin f) s env → leafTgt e.leaf.toNat = 0 → (turn s).hasL2 (home e va.toNat / 2 ^ 32) = true →
          (turn s).owns p (home e va.toNat) = true → (smGet {} s.l2 ln).pin = none →
          ((turn s).l2Set ln).countP (fun e => e.2.pin.isSome) < 3 → (turn s).pinned p < ((turn s).part p).desc.resq →
            Completes (.cpin f) s fun t => Advances env t ∧ (smGet {} t.l2 ln).pin = some p
              ∧ (t.grp env.k).rdS f.d.toNat = if f.d = 0 then {} else .of 1)
        ∧ (f.md.getLsbD 0 = true → Issues (.cunpin f) s env → (smGet {} s.l2 ln).pin = some p →
            (leafTgt e.leaf.toNat = 0 → Completes (.cunpin f) s fun t => Advances env t ∧ (smGet {} t.l2 ln).pin = none
              ∧ (t.grp env.k).rdS f.d.toNat = if f.d = 0 then {} else .of 1)
            ∧ (leafTgt e.leaf.toNat ≠ 0 → Completes (.cunpin f) s fun t => Advances env t ∧ t.l2 = s.l2
              ∧ (t.grp env.k).rdS f.d.toNat = if f.d = 0 then {} else .of 0))

/-! ### Accumulators and the matrix array (R156 to R176) -/

/-- AALLOC binds a name to the lowest free accumulator that no AALLOC waiting in a lower slot has before it, zeroed; AFREE lets
it drain; AZERO clears it; a name that is bound already, or not bound, traps ACC_STATE (R158, R159, R162 to R164). ARD reads a
quarter of an accumulator into 16 registers and may zero it; AWR writes a quarter, each NaN canonical; AKS reads the status word
(R160, R164, R166, R167). -/
def Obligations.AccumulatorInstructions : Prop :=
  (
    ∀ (f : Fields) (s : State) (env : Env),
      let g := (turn s).grp env.k
      let c := coreOf env.k
      (Issues (.aalloc f) s env → g.accOf f.a.toNat = none →
        (∀ n, ((s.core c).freeAccs)[s.allocBefore env.k]? = some n → Completes (.aalloc f) s fun t => Advances env t
          ∧ (t.grp env.k).accOf f.a.toNat = some n ∧ ((t.core c).acc n).st = .zeroed ∧ ((t.core c).acc n).owner = env.k
          ∧ ((t.core c).acc n).c = [] ∧ (t.grp env.k).rdS f.d.toNat = if f.d = 0 then {} else .of 0)
        ∧ (((s.core c).freeAccs)[s.allocBefore env.k]? = none → f.xf = 0 → Completes (.aalloc f) s fun t => Advances env t
          ∧ (t.grp env.k).rdS f.d.toNat = if f.d = 0 then {} else .of 1))
      ∧ (∀ n, Issues (.afree f) s env → g.accOf f.a.toNat = some n → n < 8 →
          (∀ o ∈ s.ops, o.k = env.k → o.acc ≠ some f.a.toNat) → Completes (.afree f) s fun t => Advances env t
            ∧ (t.grp env.k).accOf f.a.toNat = none ∧ ((t.core c).acc n).st = .draining ∧ ∀ m ∈ (t.core c).queue, m.acc ≠ n)
      ∧ (∀ n, Issues (.azero f) s env → g.accOf f.d.toNat = some n → n < 8 → (∀ m ∈ (s.core c).queue, m.acc ≠ n) →
          Completes (.azero f) s fun t => Advances env t ∧ ((t.core c).acc n).st = .zeroed ∧ ((t.core c).acc n).c = []
            ∧ ((t.core c).acc n).poi = [])
      ∧ (Issues (.aalloc f) s env → g.accOf f.a.toNat ≠ none → Traps (.aalloc f) s env.k 0x1C env.pc)
      ∧ (Issues (.afree f) s env → g.accOf f.a.toNat = none → Traps (.afree f) s env.k 0x1C env.pc)
      ∧ ∀ i ∈ [Instr.azero, .awr], Issues (i f) s env → g.accOf f.d.toNat = none → Traps (i f) s env.k 0x1C env.pc)
  ∧ (
    ∀ (f : Fields) (s : State) (env : Env), NoPoisonTrap s →
      let g := (turn s).grp env.k
      let c := coreOf env.k
      let cell (l : LaneId) (m e : Nat) : Nat := (16 * f.xf.toNat + l / 2) * 64 + 32 * (l % 2) + 2 * m + e
      (∀ n, Issues (.ard f) s env → g.accOf f.a.toNat = some n → n < 8 → (∀ m ∈ (s.core c).queue, m.acc ≠ n) →
        Completes (.ard f) s fun t => Advances env t ∧ ∀ l : LaneId, env.e.getLsbD l = true → ∀ m, m < 16 → ∀ e, e < 2 →
          elem ((t.grp env.k).rdV (f.d.toNat + m) l) 32 e
              = (smGet 0 ((s.core c).acc n).c (cell l m e)).toNat
            ∧ elemBad ((t.grp env.k).rdV (f.d.toNat + m) l) 32 e = smGet false ((s.core c).acc n).poi (cell l m e)
            ∧ smGet 0 ((t.core c).acc n).c (cell l m e)
              = if f.md.getLsbD 0 then 0 else smGet 0 ((s.core c).acc n).c (cell l m e))
      ∧ (∀ n, Issues (.awr f) s env → g.accOf f.d.toNat = some n → n < 8 → (∀ m ∈ (s.core c).queue, m.acc ≠ n) →
        Completes (.awr f) s fun t => Advances env t ∧ ((t.core c).acc n).st = .accumulating
          ∧ ∀ l : LaneId, env.e.getLsbD l = true → ∀ m, m < 16 → ∀ e, e < 2 →
            let r := g.rdV (f.a.toNat + m) l
            (smGet 0 ((t.core c).acc n).c (cell l m e)).toNat
                = (if elemBad r 32 e || fp32.isNan (elem r 32 e) then fp32.canon else elem r 32 e)
              ∧ smGet false ((t.core c).acc n).poi (cell l m e) = elemBad r 32 e)
      ∧ (Issues (.aks f) s env → Completes (.aks f) s fun t => Advances env t
          ∧ (t.grp env.k).rdS f.d.toNat = if f.d = 0 then {} else .of (BitVec.ofNat 64
              (match g.accOf f.a.toNat with
                | some n => accStatus (s.core c) n
                | none => 0))))

/-- MMA and MMAX enter the core's queue behind the entries there, on the accumulator of their name, with the operands that their
fields name, before which no follow-on MMA is due; its first k-step starts 8 FCLK later at the earliest; an unbound name traps ACC_STATE (R156, R158, R170 to R173). -/
def Obligations.MatrixInstructions : Prop :=
  ∀ e ∈ ([(.mma, false), (.mmax, true)] : List ((Fields → Instr) × Bool)), ∀ (f : Fields) (s : State) (env : Env),
    IssuesSync (e.1 f) s env → f.fn = (if e.2 then 1 else 0) →
      let g := (turn s).grp env.k
      let c := coreOf env.k
      let pa := pairOf g (f.xf.getLsbD 0) f.a.toNat
      let pb := pairOf g (f.xf.getLsbD 1) f.b.toNat
      let ps := (pa.toList ++ pb.toList).map Prod.fst
      (∀ n, g.accOf f.d.toNat = some n → n < 8 → (∀ x ∈ pa.toList ++ pb.toList, x.2 = false) →
        pairFault env.pc ((turn s).team g.team).wsize ps = none → ((s.core c).queue.countP fun m => m.inArray) < 4 →
        (turn s).followDue c = false → ((turn s).tile (siteOf env.k)).range.length + ps.length ≤ 64 →
          Completes (e.1 f) s fun t => Advances env t ∧ ∃ m, (t.core c).queue = (s.core c).queue ++ [m] ∧ m.acc = n ∧ m.x = e.2
            ∧ m.ty = f.md.toNat ∧ m.areg = f.a.toNat ∧ m.breg = f.b.toNat ∧ m.apair = pa.map Prod.fst ∧ m.bpair = pb.map Prod.fst
            ∧ m.ctrl = f.imm ∧ m.prog = 0 ∧ m.sbs = f.slot ∧ m.ready = s.time + 8
            ∧ (((s.core c).acc n).fault = false → ((t.core c).acc n).st = .accumulating))
      ∧ (g.accOf f.d.toNat = none → Traps (e.1 f) s env.k 0x1C env.pc)

/-! ### Order, barriers and copies at issue (R224 to R260) -/

/-- PHASE opens a token, complete at once where its release has nothing to do, and merges into a pending one what both wait for; PWAIT takes a complete token, with the acquire
that drops every clean byte of L1, and holds on a pending one (R222, R226, R227). BINIT sets a barrier's members; BARV writes
the error bit of the completion that ended its wait, BARA the parity of the phase it arrived in, once its arrival is counted;
BWAIT goes on when the parity has changed; BTEST reads the word as the FCLK found it (R239, R241, R244). A members count outside 1 to 255
is reserved, BINIT at a barrier with arrivals and a second arrival of a group raise BARRIER_OVER, and an arrival or BWAIT at a barrier without INIT
raises BARRIER_INIT (R242, R244); a poisoned operand of BINIT or BWAIT traps with sr.ctl.pt, and keeps it from its effect otherwise (R244). That
INIT is looked at before a poisoned operand of BWAIT is the model's choice (log 118). -/
def Obligations.PhaseAndBarrierInstructions : Prop :=
  (
    ∀ (f : Fields) (s : State) (env : Env),
      let g := (turn s).grp env.k
      (Issues (.phase f) s env → (g.token f.d.toNat).st ≠ .pending → Completes (.phase f) s fun t => Advances env t
        ∧ let x := (t.grp env.k).token f.d.toNat
          x.scope = bits f.md 0 3 ∧ x.acq = decide (f.xf ≠ 2) ∧ x.rel = decide (f.xf ≠ 1)
            ∧ (x.st = .complete ↔ f.xf = 1 ∨ (turn s).relDone ((turn s).mkRel env.k (bits f.md 0 3)) = true)
            ∧ (x.st = .complete ∨ x.st = .pending))
      ∧ (Issues (.phase f) s env → (g.token f.d.toNat).st = .pending → f.d.toNat < 8 → Completes (.phase f) s fun t => Advances env t
        ∧ let y := g.token f.d.toNat
          let x := (t.grp env.k).token f.d.toNat
          x.scope = max y.scope (bits f.md 0 3) ∧ x.acq = (y.acq || decide (f.xf ≠ 2)) ∧ x.rel = (y.rel || decide (f.xf ≠ 1))
            ∧ (x.st = .complete ∨ x.st = .pending) ∧ (x.st = .pending → y.rel = true → y.cover ⊆ x.cover ∧ y.lines ⊆ x.lines))
      ∧ (Issues (.pwait f) s env → (g.token f.a.toNat).st ≠ .pending → Completes (.pwait f) s fun t => Advances env t
          ∧ ((t.grp env.k).token f.a.toNat).st = .idle
          ∧ ((g.token f.a.toNat).st = .complete → (g.token f.a.toNat).acq = true → (g.token f.a.toNat).scope ≠ 0 →
              ∀ key, (t.l1 (coreOf env.k) key).valid &&& ~~~(t.l1 (coreOf env.k) key).dirty = 0))
      ∧ (Issues (.pwait f) s env → (g.token f.a.toNat).st = .pending → Completes (.pwait f) s fun t =>
          (t.grp env.k).st = .held ∧ (t.grp env.k).hold = .pwait ∧ (t.grp env.k).lane = g.lane ∧ (t.grp env.k).tok = g.tok))
  ∧ (
    ∀ (f : Fields) (s : State) (env : Env), NoPoisonTrap s →
      let g := (turn s).grp env.k
      let val (r : Reg) : Reg := if f.d = 0 then {} else r
      (Issues (.binit f) s env →
        let n := if f.xf = 1 then f.imm.toNat else (g.rdS f.b.toNat).val.toNat
        (f.xf ≠ 1 → (g.rdS f.b.toNat).poi = 0) → n ≠ 0 → n ≤ 255 → (s.bar g.team f.d.toNat).arrived = 0 →
          Completes (.binit f) s fun t => Advances env t ∧ (t.bar g.team f.d.toNat).init = true ∧ (t.bar g.team f.d.toNat).members = n
            ∧ (t.bar g.team f.d.toNat).perr = false ∧ (t.bar g.team f.d.toNat).parity = (s.bar g.team f.d.toNat).parity)
      ∧ (IssuesSync (.barv f) s env → g.batch.bvValid = true → g.batch.bvBar = f.a.toNat → g.arrive = none →
          ∀ err, g.ended = some err ∨ (g.ended = none ∧ (s.bar g.team f.a.toNat).parity ≠ g.batch.bvParity ∧ err = (s.bar g.team f.a.toNat).err) →
            Completes (.barv f) s fun t => Advances env t ∧ (t.grp env.k).rdS f.d.toNat = val (.of (if err then 1 else 0))
              ∧ (t.grp env.k).batch.bvValid = false ∧ (t.grp env.k).ended = none)
      ∧ (IssuesSync (.bara f) s env → ∀ r parity, g.arrive = some r → r.parity = some parity → Completes (.bara f) s fun t => Advances env t
          ∧ (t.grp env.k).rdS f.d.toNat = val (.of (if parity then 1 else 0)) ∧ (t.grp env.k).arrive = none)
      ∧ (∀ i ∈ [Instr.barv, .bara], IssuesSync (i f) s env → (s.bar g.team f.a.toNat).init = true →
          (s.bar g.team f.a.toNat).gmask.getLsbD g.gid = false → g.arrive = none → g.batch.bvValid = false →
            Completes (i f) s fun t => (t.grp env.k).st = .held ∧ (t.grp env.k).hold = .bwait
              ∧ (t.grp env.k).arrive = some { bar := f.a.toNat, rel := (turn s).mkRel env.k 1 })
      ∧ (Issues (.bwait f) s env → (s.bar g.team f.a.toNat).init = true → (g.rdS f.b.toNat).poi = 0 →
          (g.ended.isSome = true ∨ (s.bar g.team f.a.toNat).parity ≠ (g.rdS f.b.toNat).val.getLsbD 0 →
            Completes (.bwait f) s fun t => Advances env t)
          ∧ (g.ended = none → (s.bar g.team f.a.toNat).parity = (g.rdS f.b.toNat).val.getLsbD 0 → Completes (.bwait f) s fun t =>
            (t.grp env.k).st = .held ∧ (t.grp env.k).hold = .bwait ∧ (t.grp env.k).lane = g.lane))
      ∧ (Issues (.btest f) s env → Completes (.btest f) s fun t => Advances env t
          ∧ (t.grp env.k).rdS f.d.toNat = val (.of ((((turn s).team g.team).shown[f.a.toNat]?).getD 0)))
      ∧ (Issues (.bwait f) s env → (s.bar g.team f.a.toNat).init = true → (g.rdS f.b.toNat).poi ≠ 0 →
          Completes (.bwait f) s fun t => Advances env t ∧ ∀ n, t.bar g.team n = s.bar g.team n)
      ∧ (Issues (.binit f) s env → f.xf ≠ 1 → (g.rdS f.b.toNat).poi ≠ 0 →
          Completes (.binit f) s fun t => Advances env t ∧ ∀ n, t.bar g.team n = s.bar g.team n))
  ∧ (
    ∀ (f : Fields) (s : State) (env : Env),
      let g := (turn s).grp env.k
      let n := if f.xf = 1 then f.imm.toNat else (g.rdS f.b.toNat).val.toNat
      (Issues (.binit f) s env → (f.xf ≠ 1 → (g.rdS f.b.toNat).poi = 0) →
          (n = 0 ∨ 255 < n → Traps (.binit f) s env.k 0x02 env.pc)
          ∧ (n ≠ 0 → n ≤ 255 → (s.bar g.team f.d.toNat).arrived ≠ 0 → Traps (.binit f) s env.k 0x14 env.pc))
      ∧ (∀ i ∈ [Instr.barv, .bara], IssuesSync (i f) s env → g.arrive = none → g.batch.bvValid = false →
          ((s.bar g.team f.a.toNat).init = false → Traps (i f) s env.k 0x15 env.pc)
          ∧ ((s.bar g.team f.a.toNat).init = true → (s.bar g.team f.a.toNat).gmask.getLsbD g.gid = true → Traps (i f) s env.k 0x14 env.pc))
      ∧ (Issues (.bwait f) s env → (s.bar g.team f.a.toNat).init = false → Traps (.bwait f) s env.k 0x15 env.pc)
      ∧ (g.pt = true →
          (Issues (.bwait f) s env → (s.bar g.team f.a.toNat).init = true → (g.rdS f.b.toNat).poi ≠ 0 → Traps (.bwait f) s env.k 0x20 env.pc)
          ∧ (Issues (.binit f) s env → f.xf ≠ 1 → (g.rdS f.b.toNat).poi ≠ 0 → Traps (.binit f) s env.k 0x20 env.pc)))
  ∧ ∀ (s : State) (tk : Nat), (s.tick.team tk).shown = (s.team tk).bars

/-- CSEAL seals the open batch and gives its number, and is held while seven sealed batches are incomplete; CWAIT goes on once a batch is
complete, the newest sealed one in place of a number not sealed, with an acquire where a batch up to it wrote a global byte, and is held
until then; CBIND binds a batch in progress to a barrier, and arrives there at once for one that is complete, with its error, or whose record
has gone; a batch not sealed is reserved, a barrier without INIT raises BARRIER_INIT, and a second binding BARRIER_OVER; CSTAT reads
its status word (R257 to R260). -/
def Obligations.BatchInstructions : Prop :=
  ∀ (f : Fields) (s : State) (env : Env), NoPoisonTrap s →
    let g := (turn s).grp env.k
    let r := batchArg env g
    let n : BitVec 32 := r.val.truncate 32
    let newest : BitVec 32 := if g.batch.sealed n then n else g.batch.issued - 1
    (Issues (.cseal f) s env → g.batch.incomplete < 7 → (g.batch.slot (g.batch.issued + 1).toNat).bound = false → g.sealDue = false →
      Completes (.cseal f) s fun t => Advances env t ∧ (t.grp env.k).batch.issued = g.batch.issued + 1
        ∧ (t.grp env.k).rdS f.d.toNat = if f.d = 0 then {} else .of (g.batch.issued.zeroExtend 64))
    ∧ (Issues (.cseal f) s env → 7 ≤ g.batch.incomplete ∨ (g.batch.slot (g.batch.issued + 1).toNat).bound = true → Completes (.cseal f) s fun t =>
        (t.grp env.k).st = .held ∧ (t.grp env.k).hold = .cseal ∧ (t.grp env.k).lane = g.lane ∧ (t.grp env.k).batch = g.batch)
    ∧ (Issues (.cwait f) s env → r.poi = 0 → g.batch.complete newest = true → Completes (.cwait f) s fun t => Advances env t
        ∧ (8 ≤ g.batch.age newest ∨ (∃ i, i < 8 ∧ g.batch.age newest ≤ i ∧ (g.batch.slot (g.batch.issued - BitVec.ofNat 32 i).toNat).glob = true) →
            ∀ key, (t.l1 (coreOf env.k) key).valid &&& ~~~(t.l1 (coreOf env.k) key).dirty = 0))
    ∧ (Issues (.cwait f) s env → r.poi = 0 → g.batch.complete newest = false → Completes (.cwait f) s fun t =>
        (t.grp env.k).st = .held ∧ (t.grp env.k).hold = .cwait ∧ (t.grp env.k).lane = g.lane)
    ∧ (Issues (.cbind f) s env → r.poi = 0 → g.batch.sealed n = true → g.batch.complete n = false → g.batch.age n < 8 →
        (s.bar g.team f.d.toNat).init = true → (g.batch.slot n.toNat).bound = false → Completes (.cbind f) s fun t => Advances env t
          ∧ ((t.grp env.k).batch.slot n.toNat).bound = true ∧ ((t.grp env.k).batch.slot n.toNat).bar = f.d.toNat)
    ∧ (Issues (.cbind f) s env → r.poi = 0 → g.batch.sealed n = true → (s.bar g.team f.d.toNat).init = true → f.d.toNat < 16 →
        ∀ err, 8 ≤ g.batch.age n ∧ err = false ∨ g.batch.age n < 8 ∧ g.batch.complete n = true ∧ err = decide ((g.batch.slot n.toNat).code ≠ 0) →
          Completes (.cbind f) s fun t => Advances env t ∧ ∃ h : f.d.toNat < 16,
            (t.team g.team).bars[f.d.toNat] = ((s.bar g.team f.d.toNat).arrive none err).word)
    ∧ (Issues (.cbind f) s env → r.poi = 0 → g.batch.sealed n = false → Traps (.cbind f) s env.k 0x02 env.pc)
    ∧ (Issues (.cbind f) s env → r.poi = 0 → g.batch.sealed n = true → (s.bar g.team f.d.toNat).init = false → Traps (.cbind f) s env.k 0x15 env.pc)
    ∧ (Issues (.cbind f) s env → r.poi = 0 → g.batch.sealed n = true → g.batch.complete n = false → g.batch.age n < 8 →
        (s.bar g.team f.d.toNat).init = true → (g.batch.slot n.toNat).bound = true → Traps (.cbind f) s env.k 0x14 env.pc)
    ∧ (Issues (.cstat f) s env → r.poi = 0 → Completes (.cstat f) s fun t => Advances env t
        ∧ (t.grp env.k).rdS f.d.toNat = if f.d = 0 then {} else .of (BitVec.ofNat 64 (g.batch.status n)))

/-- CPY, CPYM and CPYF read their descriptor and join the open batch as a copy of their kind; without copy-issue rights they
trap COPY_RIGHTS; one that was held issues with what it read at its first try (R247, R248, R251, R257). XSEND joins the open
batch as a message that holds the registers of its lanes, for the team, route and barrier that its control word names (R338,
R339). -/
def Obligations.CopyAndMessageInstructions : Prop :=
  (
    ∀ e ∈ ([(.cpy, .plain), (.cpym, .multicast), (.cpyf, .follow)] : List ((Fields → Instr) × CopyKind)),
      ∀ (f : Fields) (s : State) (env : Env), Issues (e.1 f) s env →
        let g := (turn s).grp env.k
        let tm := (turn s).team g.team
        let off := (g.rdS f.a.toNat).val + BitVec.ofInt 64 f.imm.toInt
        let rd := (turn s).spadRd g.team off.toNat 256
        let d := readDesc rd.2.1
        let lim (sp : Nat) : Nat := if sp = 1 then tm.wsize else (turn s).bmSize ((turn s).ctx g.ctx).part
        let fits (sp base : Nat) (ds : List SideDim) (n : Nat) : Prop := sp = 0 ∨ (sideCheck base ds n (lim sp)).2 = none
        let special : Prop := match e.2 with
          | .multicast => d.dspace = 1 ∧ 1 ≤ d.multi.toNat / 2 ^ 32 % 256 ∧ d.multi.toNat / 2 ^ 32 % 256 ≤ 64 ∧ d.multi.toNat < 2 ^ 45
              ∧ (smGet none ((turn s).part ((turn s).ctx g.ctx).part).routes d.route).isSome
          | .follow => d.route = 0 ∧ d.multi = 0 ∧ d.dspace = 1 ∧ d.ndim ≤ 7
              ∧ ∃ h, rd.1.member g.team (followGroup d) = some h ∧ followBad d h.regs = false
          | _ => d.route = 0 ∧ d.multi = 0
        (g.staged = none → g.copyr = false → Traps (e.1 f) s env.k 0x10 env.pc)
        ∧ (∀ c rs, g.staged = some (some (c, rs)) → (turn s).copyRoom env.k = true → ((turn s).tile (siteOf env.k)).range.length + rs.length ≤ 64 →
            Completes (e.1 f) s fun t => Advances env t ∧ (t.grp env.k).staged = none ∧ ∃ x, t.copies = s.copies ++ [x] ∧ x.kind = c.kind
              ∧ x.desc = c.desc ∧ x.total = c.total ∧ x.gid = g.gid ∧ x.team = g.team ∧ x.batch = g.batch.issued)
        ∧ (g.staged = none → g.copyr = true → (g.rdS f.a.toNat).poi = 0 → 64 ∣ off.toNat → off.toNat + 256 ≤ tm.wsize → (∀ b ∈ rd.2.2, b = false) →
            d.bad (descNat rd.2.1 0 8) = false → special → fits d.sspace d.src.toNat d.srcSide (copyBytes d.styp) →
            (e.2 = .multicast ∨ fits d.dspace d.dst.toNat d.dstSide (copyBytes d.dtyp)) →
            rd.1.copyRoom env.k = true → (rd.1.tile (siteOf env.k)).range.length + 2 ≤ 64 →
              Completes (e.1 f) s fun t => Advances env t ∧ ∃ c, t.copies = s.copies ++ [c] ∧ c.kind = e.2 ∧ c.desc = d ∧ c.total = d.count
                ∧ c.gid = g.gid ∧ c.team = g.team ∧ c.batch = g.batch.issued ∧ c.doneEl = [] ∧ c.chan = none))
  ∧ (
    ∀ (f : Fields) (s : State) (env : Env), Issues (.xsend f) s env →
      let g := (turn s).grp env.k
      let w := (g.rdS f.c.toNat).val
      let size := 8 * 2 ^ bits f.md 0 2
      let off := (g.rdS f.b.toNat).val + BitVec.ofInt 64 f.imm.toInt
      let pt := (turn s).part ((turn s).ctx g.ctx).part
      (g.rdS f.c.toNat).poi = 0 → (g.rdS f.b.toNat).poi = 0 → w.toNat / 2 ^ 46 % 1024 = 0 → size ∣ off.toNat →
        (if w.getLsbD 45 then bits w 32 8 = 0 ∧ (smGet {} pt.peers (bits w 56 8)).valid = true
         else bits w 56 8 = 0 ∧ (smGet none pt.routes (bits w 32 8)).isSome) → (turn s).copyRoom env.k = true →
          Completes (.xsend f) s fun t => Advances env t ∧ ∃ c, t.copies = s.copies ++ [c] ∧ c.kind = .message ∧ c.gid = g.gid
            ∧ c.team = g.team ∧ c.total = size ∧ c.batch = g.batch.issued
            ∧ c.bytes = (laneList env.e).flatMap (fun (l : LaneId) => (List.range size).map fun j =>
                ((off.toNat + l.val * size + j) % 2 ^ 64, BitVec.ofNat 8 (elem (g.rdV (f.a.toNat + j / 8) l) 8 (j % 8)),
                  (g.rdV (f.a.toNat + j / 8) l).poi.getLsbD (j % 8)))
            ∧ c.remote = if w.getLsbD 45 then some (bits w 56 8) else none)

/-! ### Queues and messages at issue (R276 to R285, R338, R339) -/

/-- RALLOC takes the first free slot of a node's queue and gives its handle, or fails with a status, of depth, of the slots or of the
team's pool, which traps in a node with the trap mode; QSTAT reads the queue's status word as the FCLK found it (R269, R276, R279, R284). RCOMMIT, RFREE and RJOIN send the handles of their lanes to the homes and wait for them
(R277, R280 to R282); their records change when QUEUE_APPLY applies them. RPOP copies the first eligible record into the window
and gives 0, or without a record is held, or gives 1, or 2 where the queue is closed, with XF; SPAWN starts groups on free spawn slots, or says
that it cannot (R283, R285). That RALLOC, QSTAT and RPOP wait while the way to the queue's home is cut (log 114), that RPOP leaves records to those that wait (log 99)
and that SPAWN fails at a site whose team moves (log 35) are the model's choices. -/
def Obligations.RecordInstructions : Prop :=
  (
    ∀ (f : Fields) (s : State) (env : Env), NoPoisonTrap s →
      let g := (turn s).grp env.k
      let c := ((turn s).kernOf env.k).1
      let kn := ((turn s).kernOf env.k).2
      let node := bits f.imm 0 6
      let d := (s.kern c kn).node node
      let q := s.queue c kn node
      let back : Prop := (turn s).cutBoth ((turn s).ctx c).part (siteOf env.k) q.home = false
      let join (l : LaneId) : Reg := if f.xf = 1 then g.rdS f.b.toNat else g.rdV f.b.toNat l
      node < (s.kern c kn).nodes.length →
        (∀ i ∈ [Instr.ralloc, .qstat, .rpop], Issues (i f) s env → ¬back → Completes (i f) s fun t =>
          (t.grp env.k).st = .held ∧ (t.grp env.k).hold = .queue ∧ (t.grp env.k).lane = g.lane)
        ∧ (node < (s.kern c kn).queues.length → (s.tick.queue c kn node).shown = BitVec.ofNat 64 (q.status d))
        ∧ (back →
        (∀ (l : LaneId) (key : Nat), Issues (.ralloc f) s env → env.e = 1 <<< l.val → node < (s.kern c kn).queues.length →
          (if f.xf = 1 then g.rdS f.b.toNat else g.rdV f.b.toNat l).poi = 0 → g.depth + 1 ≤ d.dlim → q.closed = false →
          (s.team g.team).uncommitted < 256 → q.freeSlot = some key →
            Completes (.ralloc f) s fun t => Advances env t ∧ (t.grp env.k).rdV f.d.toNat l = .of (q.handle node key)
              ∧ (f.c ≠ 0 → ((t.grp env.k).rdP f.c.toNat).getLsbD l = true)
              ∧ ∃ r, (t.queue c kn node).rec? key = some r ∧ r.committed = false ∧ r.depth = g.depth + 1 ∧ r.pri = bits f.md 0 2
                  ∧ r.join = bits (if f.xf = 1 then g.rdS f.b.toNat else g.rdV f.b.toNat l).val 0 16 ∧ r.team = g.team ∧ r.seq = q.seq)
        ∧ (∀ l : LaneId, Issues (.ralloc f) s env → env.e = 1 <<< l.val → d.dlim < g.depth + 1 →
            (if f.xf = 1 then g.rdS f.b.toNat else g.rdV f.b.toNat l).poi = 0 →
              (d.trap = true → Traps (.ralloc f) s env.k 0x1A env.pc)
              ∧ (d.trap = false → Completes (.ralloc f) s fun t => Advances env t
                  ∧ (t.grp env.k).rdV f.d.toNat l = .of (BitVec.ofNat 64 (2 ^ 63 + 2))
                  ∧ (f.c ≠ 0 → ((t.grp env.k).rdP f.c.toNat).getLsbD l = false)))
        ∧ (∀ l : LaneId, Issues (.ralloc f) s env → env.e = 1 <<< l.val → g.depth + 1 ≤ d.dlim → (join l).poi = 0 → c < 4096 →
            ((s.team g.team).uncommitted < 256 → q.closed = false → q.freeSlot = none →
              (d.trap = true → Traps (.ralloc f) s env.k 0x19 env.pc)
              ∧ (d.trap = false → Completes (.ralloc f) s fun t => Advances env t
                  ∧ (t.grp env.k).rdV f.d.toNat l = .of (BitVec.ofNat 64 (2 ^ 63 + 1)) ∧ (f.c ≠ 0 → ((t.grp env.k).rdP f.c.toNat).getLsbD l = false)
                  ∧ (t.ctx c).counts[7] = BitVec.ofNat 32 (min (2 ^ 32 - 1) ((s.ctx c).counts[7].toNat + 1)) ∧ Raised (t.ctx c) 1))
            ∧ (256 ≤ (s.team g.team).uncommitted →
              (d.trap = true → Traps (.ralloc f) s env.k 0x19 env.pc)
              ∧ (d.trap = false → Completes (.ralloc f) s fun t => Advances env t
                  ∧ (t.grp env.k).rdV f.d.toNat l = .of (BitVec.ofNat 64 (2 ^ 63 + 3)) ∧ (f.c ≠ 0 → ((t.grp env.k).rdP f.c.toNat).getLsbD l = false))))
        ∧ (Issues (.qstat f) s env → Completes (.qstat f) s fun t => Advances env t
            ∧ (t.grp env.k).rdS f.d.toNat = if f.d = 0 then {} else .of q.shown)))
  ∧ (
    ∀ e ∈ ([(.rcommit, .commit), (.rfree, .free), (.rjoin, .join)] : List ((Fields → Instr) × QKind)),
      ∀ (f : Fields) (s : State) (env : Env), Issues (e.1 f) s env → NoPoisonTrap s →
        let g := (turn s).grp env.k
        let k := (turn s).kern ((turn s).kernOf env.k).1 ((turn s).kernOf env.k).2
        let off (l : LaneId) : Reg := if f.xf = 1 then g.rdS f.b.toNat else g.rdV f.b.toNat l
        (∀ o ∈ s.ops, o.k = env.k → o.kind ≠ .queue) → k.nodes ≠ [] →
          (∀ l : LaneId, env.e.getLsbD l = true → (g.rdV f.d.toNat l).poi = 0 ∧ handleOk k (g.rdV f.d.toNat l).val = true
            ∧ (e.2 = .commit → (off l).poi = 0 ∧ (g.rdS f.a.toNat).poi = 0)) →
            Completes (e.1 f) s fun t => (t.grp env.k).st = .held ∧ (t.grp env.k).hold = .queue ∧ (t.grp env.k).lane = g.lane
              ∧ ∃ o, t.ops = s.ops ++ [o] ∧ o.k = env.k ∧ o.kind = .queue ∧ o.q = some e.2 ∧ o.f = f ∧ o.addr = env.pc
                ∧ o.qlanes.map (fun x => x.lane) = (laneList env.e).map (fun l => l.val)
                ∧ ∀ (n : Nat) (l : LaneId) (x : QLane), (laneList env.e)[n]? = some l → o.qlanes[n]? = some x →
                    x.handle = (g.rdV f.d.toNat l).val
                      ∧ (e.2 = .commit → x.ea = (g.rdS f.a.toNat).val + (off l).val + BitVec.ofInt 64 f.imm.toInt))
  ∧ (
    ∀ (f : Fields) (s : State) (env : Env),
      let g := (turn s).grp env.k
      let c := ((turn s).kernOf env.k).1
      let kn := ((turn s).kernOf env.k).2
      let k := s.kern c kn
      let node := bits f.imm 0 6
      let dst := (g.rdS f.a.toNat).val + BitVec.ofInt 64 (f.imm.extractLsb' 16 16).toInt
      let q := s.queue c kn node
      (Issues (.rpop f) s env → node < k.nodes.length → (g.rdS f.a.toNat).poi = 0 → 16 ∣ dst.toNat →
        dst.toNat + (k.node node).size ≤ (s.team g.team).wsize →
        (turn s).cutBoth ((turn s).ctx c).part (siteOf env.k) q.home = false →
          (f.xf = 1 → q.closed = true → Completes (.rpop f) s fun t => Advances env t
            ∧ (t.grp env.k).rdS f.d.toNat = if f.d = 0 then {} else .of 2)
          ∧ (f.xf = 1 → q.closed = false → q.order = [] → Completes (.rpop f) s fun t => Advances env t
            ∧ (t.grp env.k).rdS f.d.toNat = if f.d = 0 then {} else .of 1)
          ∧ (f.xf ≠ 1 → q.closed = true ∨ q.order = [] → node < k.queues.length → Completes (.rpop f) s fun t =>
            (t.grp env.k).st = .held ∧ (t.grp env.k).hold = .rpop ∧ (t.grp env.k).lane = g.lane ∧ env.k ∈ (t.queue c kn node).waiters)
          ∧ ∀ e r, q.closed = false → q.order = e :: r → q.waiters = [] → g.hold ≠ .rpop → Completes (.rpop f) s fun t => Advances env t
            ∧ ((t.grp env.k).rdS f.d.toNat = if f.d = 0 then {} else .of 0)
            ∧ (∀ (j : Nat) (b : Byte), e.2.bytes.1[j]? = some b → memGet t.spad ((s.team g.team).spadAddr dst.toNat + j) = b)
            ∧ (node < k.queues.length → (t.queue c kn node).rec? e.1 = none))
      ∧ (Issues (.spawn f) s env → ∀ off, k.entries[bits f.imm 8 6]? = some off →
          let n := bits f.imm 0 4
          let mine := (turn s).groupsOf g.team
          let free := (turn s).spawnSlots (coreOf env.k) c kn
          let able : Prop := mine.length + n ≤ 32 ∧ (mine.countP fun i => coreOf i = coreOf env.k) + n ≤ 8 ∧ n ≤ free.length
            ∧ (turn s).siteMoving ((turn s).ctx c).part (siteOf env.k) = false
          (able → Completes (.spawn f) s fun t => Advances env t
            ∧ (∀ l : LaneId, env.e.getLsbD l = true → f.d ≠ 0 → ((t.grp env.k).rdP f.d.toNat).getLsbD l = true)
            ∧ ∀ i ∈ free.take n, i ≠ env.k → (t.grp i).st = .ready ∧ (t.grp i).team = g.team ∧ (t.grp i).consumer = true
                ∧ ∀ l : LaneId, (t.grp i).lane[l].pcv = BitVec.ofNat 64 ((k.text.toNat + off) % 2 ^ 56) ∧ (t.grp i).lane[l].st = .live)
          ∧ (¬able → (k.nodes[((turn s).team g.team).node]?).any (fun d => d.trap) = false → Completes (.spawn f) s fun t => Advances env t
            ∧ ∀ l : LaneId, env.e.getLsbD l = true → f.d ≠ 0 → ((t.grp env.k).rdP f.d.toNat).getLsbD l = false)))

/-! ### Poison, frames and the step -/

/-- A poisoned element gives a poisoned result, 0 for an integer and the canonical NaN for a floating-point result, and an
element that reads no poison is without it (R77). -/
def Obligations.PoisonSpreads : Prop :=
  ∀ (f : Fields) (s : State) (env : Env), NoPoisonTrap s →
    let bad (g : Group) (l : LaneId) (w j : Nat) : Bool := elemBad (env.srcA g l) w j || elemBad (env.srcB g l) w j
    let spread (i : Instr) (w nan : Nat) : Prop := Completes i s fun t => ∀ l : LaneId, env.e.getLsbD l = true → ∀ j, j < 64 / w →
      let r := (t.grp env.k).rdV env.f.d.toNat l
      (bad ((turn s).grp env.k) l w j = true → elem r w j = nan ∧ ∀ b, b < w / 8 → r.poi.getLsbD (w / 8 * j + b) = true)
        ∧ (bad ((turn s).grp env.k) l w j = false → elemBad r w j = false)
    (∀ i ∈ [Instr.iadd, .iaddExt, .isub, .isubExt, .imul, .imulExt, .imulh, .imulhExt, .iand, .iandExt, .ior, .iorExt, .ixor, .ixorExt,
        .imin, .iminExt, .imax, .imaxExt], Issues (i f) s env → spread (i f) (intWidth f) 0)
    ∧ ∀ i ∈ [Instr.fadd, .faddExt, .fsub, .fsubExt, .fmul, .fmulExt, .fminnum, .fminnumExt, .fmaxnum, .fmaxnumExt, .fminnan, .fminnanExt,
        .fmaxnan, .fmaxnanExt], Issues (i f) s env → spread (i f) (fnFmt f).w (fnFmt f).canon

/-- The frame of every instruction that only writes registers: no memory, no other group, no accumulator, no special register,
no register but those it writes, and of those nothing in a lane whose guard is false (R32, R37). -/
def Obligations.RegisterFrame : Prop :=
  ∀ (i : Instr) (s : State) (env : Env), Issues i s env → NoPoisonTrap s → RegisterOnly env.maj env.f.fn →
    Completes i s fun t =>
      let g := (turn s).grp env.k
      let h := t.grp env.k
      SameMemory s t ∧ SameElsewhere (turn s) t env.k ∧ SameSpecials h g ∧ SameBut (regWrites env.sh env.f) h g
        ∧ (env.sh.g0 = false → ∀ l : LaneId, env.e.getLsbD l = false → ∀ n, h.rdV n l = g.rdV n l ∧ (h.rdP n).getLsbD l = (g.rdP n).getLsbD l)

/-- The frame of every memory instruction at its issue: no byte of memory, no register and no other group changes, whether it
enters flight or traps (R207). -/
def Obligations.MemoryIssueFrame : Prop :=
  ∀ (f : Fields) (s : State) (env : Env),
    ∀ i ∈ [Instr.ld, .st, .lds, .sts, .ldb, .stb, .ldc, .ldp, .atom, .acas, .atoms, .atomb, .bred, .bvec, .cflush, .cinv],
      Issues (i f) s env → Completes (i f) s fun t =>
        SameMemory s t ∧ SameBut [] (t.grp env.k) ((turn s).grp env.k) ∧ ∀ j, j ≠ env.k → t.grp j = (turn s).grp j

/-- The issue address is the lowest pcv of a live lane that is not yielded, and the path is the set of those lanes that stand
there (R89). -/
def Obligations.PathSelection : Prop :=
  ∀ (g : Group) (sel : Sel), g.select = some sel → sel.sync = false → g.donemask = 0 →
    (∀ l : LaneId, g.lane[l].st = .live → g.lane[l].yld = false → sel.pc.toNat ≤ g.lane[l].pcv.toNat)
    ∧ (∃ l : LaneId, sel.path.getLsbD l = true)
    ∧ ∀ l : LaneId, sel.path.getLsbD l = true ↔ g.lane[l].st = .live ∧ g.lane[l].yld = false ∧ g.lane[l].pcv = sel.pc

/-- A step runs the decoded instruction. While events of the FCLK are left it is the next of them; then the cores choose, and it
is the issue of the next chosen group: the instruction that the words at its issue address decode to, as `exec` gives it, its
registers read, or, where the walker still has to find a page of it, the request for that page; with no group left, what falls at the end of the
FCLK, and then the next FCLK (R25, R40, R87, R191, R198, R308). That one step is one turn of an FCLK's events, issues or closing is the model's
choice (log 1). -/
def Obligations.StepRunsDecoded : Prop :=
  ∀ s : State,
    (∀ t r, s.nextTurn = some (t, r) → step s = runTurn t { s with agenda := r })
    ∧ (s.nextTurn = none → s.stage = .events → s.openIssues.turns = [] → step s = .next s.openIssues.close)
    ∧ (s.nextTurn = none → s.stage = .issues → s.turns = [] → step s = .next s.close)
    ∧ (s.nextTurn = none → s.stage = .closing → step s = .next s.tick)
    ∧ ∀ k r, s.nextTurn = none → s.stage = .issues → s.turns = k :: r →
        ((s.grp k).allParked = true → step s = exec (.groupSyncExecute k) s)
        ∧ ((s.grp k).allParked = false → ∀ s1, State.boundary { s with turns := r } k = (s1, true) →
          let s2 : State := { (s1.modTeam (s1.grp k).team fun t => { t with begun := true }) with cur := k }
          ∀ (sel : Sel) (s3 : State) (ws : List Word32) (n : Nat),
            ((s2.grp k).tick s2.time).select = some sel → (s2.fetchMiss k sel.pc ≠ [] → step s = .next (s2.fetchWait k (s2.fetchMiss k sel.pc)))
            ∧ (s2.fetchMiss k sel.pc = [] → s2.fetch k sel.pc = (s3, .ok ws) →
              (∀ maj f i, decode ws = .ok (i, n) → opOf i = some (maj, f) → step s = exec i (s3.readRegs maj f))
              ∧ ∀ w, decode ws = .ok (.reservedMajorOpcode w, n) → step s = exec (.reservedMajorOpcode w) s3))

/-- Fetch reads the words of memory: where the TLB holds a page that may be executed, and the instruction cache of the core does
not hold the line, a word is the four bytes at its physical address; a line that the cache holds gives the word (R16, R24, R25, R190). A line of a
frame that the partition does not own, or whose way is cut, adds to HOSTERR (R333, R356) and its words read 0. No byte of memory changes. The 0 of such
a frame (log 25) and that the cache keeps a line until it is replaced (log 92) are the model's choices. -/
def Obligations.FetchReadsMemory : Prop :=
  ∀ (s : State) (k : Nat) (a : Word) (e : TlbEnt), Maps s k a .fetch e → leafTgt e.leaf.toNat = 0 → leafRep e.leaf.toNat = none →
    4 ∣ a.toNat → 65536 ∣ e.size →
    let p := (s.ctx (s.grp k).ctx).part
    let pa := leafPa e.leaf.toNat e.size a.toNat
    let line := (s.core (coreOf k)).icache.find? fun x => x.1 = l1Key p a.toNat
    let near : Prop := s.cutBoth p (siteOf k) (s.homeSite (pa / 64 * 64)) = false
    (line = none → near → s.owns p pa = true → ∃ t, s.fetchWord k a = (t, .ok (BitVec.ofNat 32 (memLoad s.mem pa 4))) ∧ t.mem = s.mem)
      ∧ (line = none → ¬near ∨ s.owns p pa = false → (s.grp k).ctx < 4096 → ∃ t, s.fetchWord k a = (t, .ok 0) ∧ t.mem = s.mem
          ∧ (t.ctx (s.grp k).ctx).counts[3] = BitVec.ofNat 32 (min (2 ^ 32 - 1) ((s.ctx (s.grp k).ctx).counts[3].toNat + 1)))
      ∧ ∀ x, line = some x → s.fetchWord k a = (s, .ok (BitVec.ofNat 32 (leNat ((x.2.drop (a.toNat % 64)).take 4))))

/-- Reset: no partition, context, group or queue is there, ports are down, every memory is empty and the sites are good; the
values of registers, memory and flash that the rules do not give are the model's choice (logs 3, 4, 5 and 7). Every memory is in
its canonical form after reset. -/
def Obligations.ResetState : Prop :=
  (
    let s := State.reset
    s.booted = false ∧ s.time = 0 ∧ s.mem = [] ∧ s.spad = [] ∧ s.bank = [] ∧ s.ops = [] ∧ s.copies = [] ∧ s.plim = 2700
      ∧ (∀ k, (s.grp k).st = .free ∧ ∀ n, n ≠ 0 → (s.grp k).rdP n = 0) ∧ (∀ k n, (s.grp k).rdS n = {}) ∧ (∀ p, (s.part p).st = .free)
      ∧ (∀ c, (s.ctx c).st = .destroyed) ∧ (∀ p, (s.port p).st = .down ∧ (s.port p).en = false ∧ (s.port p).cto = 1000)
      ∧ (∀ t, s.site t = .good ∧ (s.tile t).lclk = 1 ∧ (s.tile t).ration = 6) ∧ (∀ c n, ((s.core c).acc n).st = .free) ∧ ∀ v, (s.vf v).tdisp = .unlocked)
  ∧ (
    MemoriesWf State.reset)

/-- Every step keeps every memory in its canonical form. -/
def Obligations.MemoriesKept : Prop :=
  ∀ s t : State, MemoriesWf s → step s = .next t → MemoriesWf t

/-- No instruction, event or step stops the machine (R2). -/
def Obligations.EveryStepGoesOn : Prop :=
  (∀ (i : Instr) (s : State), ∃ t, exec i s = .next t) ∧ ∀ s : State, Safe s

/-- Words written out from the encodings of the rules decode to the instructions they stand for. -/
def Obligations.DecodedWords : Prop :=
  (∃ f, decode [0x0810C00C] = .ok (.iadd f, 4) ∧ f.stall = 3 ∧ f.d = 3 ∧ f.a = 1 ∧ f.b = 2)
  ∧ (∃ f, decode [0x00616002, 0x000003E8, 0] = .ok (.saddExt f, 12) ∧ f.d = 5 ∧ f.a = 6 ∧ f.lit = 1000)
  ∧ (∃ f, decode [0x08118661, 0x00ECAB24, 0] = .ok (.ffmaExt f, 12) ∧ f.d = 70 ∧ f.c = 100 ∧ f.gn = true ∧ f.gp = 2 ∧ f.rn = 1)
  ∧ (∃ f, decode [0xFFFF4400] = .ok (.bra f, 4) ∧ offset18 f = -3)
  ∧ (∃ f, decode [0xFFB1C460] = .ok (.loop f, 4) ∧ offset12 f = -5 ∧ f.d = 7)
  ∧ (∃ f, decode [0x00414500] = .ok (.movsr f, 4) ∧ f.d = 5 ∧ f.a = 4)
  ∧ (∃ f, decode [0x000004C0] = .ok (.nop f, 4))
  ∧ decode [0x000003E0] = .ok (.reservedMajorOpcode 0x000003E0, 4)

/-- Decoding and encoding agree: every well-formed instruction form is what its words decode to, whatever follows them. -/
def Obligations.DecodeEncodes : Prop :=
  ∀ (i : Instr) (ws tail : List Word32), wellFormed i = true → encode i = some ws → decode (ws ++ tail) = .ok (i, 4 * ws.length)

/-- The conversion from floating point to an integer (R68): NaN gives 0, what lies beyond the range its nearest end, both with
NV; in range it is the value rounded under the rounding code, inexact with NX. An integer converts to floating point by one
rounding of its exact value. -/
def Obligations.FloatToInteger : Prop :=
  (∀ (rc draw : Nat) (lo hi : Int), lo ≤ 0 → 0 ≤ hi →
    valToInt rc draw lo hi .nan = (0, fNV) ∧ valToInt rc draw lo hi (.inf true) = (lo, fNV) ∧ valToInt rc draw lo hi (.inf false) = (hi, fNV)
    ∧ (∀ neg e, valToInt rc draw lo hi (.fin neg 0 e) = (0, 0))
    ∧ ∀ neg m (e : Int), m ≠ 0 → e ≤ 128 →
        let r := roundGrid rc draw neg m e 0
        let x : Int := if neg then -(r.1 : Int) else r.1
        (x < lo → valToInt rc draw lo hi (.fin neg m e) = (lo, fNV)) ∧ (hi < x → valToInt rc draw lo hi (.fin neg m e) = (hi, fNV))
          ∧ (lo ≤ x → x ≤ hi → (valToInt rc draw lo hi (.fin neg m e)).1 = x
              ∧ ((valToInt rc draw lo hi (.fin neg m e)).2 = fNX ↔ r.2 = false) ∧ (r.2 = true → (valToInt rc draw lo hi (.fin neg m e)).2 = 0)))
  ∧ ∀ (f : Fields) (s : State) (env : Env), NoPoisonTrap s → ∀ i ∈ [Instr.cvti, .cvtiExt], Issues (i f) s env →
      let w := itWidth (bits f.b 3 2)
      let fm := cvtFmt (bits f.b 0 3)
      let uns := f.md.getLsbD 0
      let one (dr c : Nat) : Int × BitVec 6 :=
        valToInt f.rn dr (if uns then 0 else -2 ^ (w - 1)) (if uns then 2 ^ w - 1 else 2 ^ (w - 1) - 1) (fm.val c)
      (f.b.getLsbD 5 = true → ConvResult (i f) s env w fm.w fun dr c =>
        let x : Int := reading w uns c
        (fm.round f.rn dr false (decide (x < 0)) x.natAbs 0).1)
      ∧ (f.b.getLsbD 5 = false → ConvResult (i f) s env fm.w w (fun dr c => narrow w uns false (one dr c).1)
          ∧ Completes (i f) s fun t => (∀ l : LaneId, env.e.getLsbD l = true → CleanAt env ((turn s).grp env.k) l) →
              ∃ p, (t.grp env.k).pend.getLast? = some p ∧ ∀ n, p.flags.getLsbD n = true ↔
                ∃ l : LaneId, env.e.getLsbD l = true ∧ ∃ j, j < 64 / max fm.w w ∧
                  let q := f.xf.toNat * (64 / max fm.w w)
                  (one (env.draw (turn s) l (if w < fm.w then q + j else j))
                    (elem (env.srcA ((turn s).grp env.k) l) fm.w (if fm.w < w then q + j else j))).2.getLsbD n = true)

/-! ### Events of groups and of the supervisor core -/

/-- What happens to a group between its issues: results land and operations complete, with flags that join sr.fflags when the
FCLK ends, a trap is entered, the watchdog, a hold, the stall count and a sleep end, an overdue group issues next, and a drained
slot is free (R36, R37, R39, R76, R86, R95, R98, R100, R123, R159, R308). -/
def Obligations.GroupEvents : Prop :=
  ∀ (k : Nat) (s : State),
    let g := s.grp k
    let due (p : Pend) : Bool := decide (p.land.toNat ≤ s.time.toNat)
    Completes (.resultLanding k) s (fun t => (t.grp k).pend = g.pend.filterMap (fun p =>
        if due p then if p.dist < p.lat then some { p with flags := 0, sbs := none } else none else some p) ∧ SameMemory s t ∧ SameBut [] (t.grp k) g
      ∧ (t.grp k).fflags = g.fflags
      ∧ ∀ n, (t.grp k).flags.getLsbD n = true ↔ g.flags.getLsbD n = true ∨ ∃ p ∈ g.pend, due p = true ∧ p.flags.getLsbD n = true)
    ∧ (∀ (id : Nat) (o : Op), s.op? id = some o → o.kind ≠ .queue → o.kind.store = false → s.opReady o = true → o.k = k → k < 2 ^ 41 →
        Completes (.scoreboardCompletion id) s fun t => (o.acq = none → t.ops = s.ops.filter (fun x => x.id != id))
          ∧ t.ops.map (fun x => x.id) = (s.ops.filter (fun x => x.id != id)).map (fun x => x.id)
          ∧ (t.grp k).fflags = g.fflags ∧ (t.grp k).flags = g.flags ||| o.flags ∧ SameMemory s t
          ∧ ∀ n : Fin 8, (t.grp k).sb[n] = if o.sbs = some n.val then g.sb[n] - 1 else g.sb[n])
    ∧ (∀ c a d, g.trapReq = some (c, a, d) → s.quiet k = true → Completes (.trapEntry k) s fun t =>
        (t.grp k).st = .trapped ∧ (t.grp k).trapcause = c ∧ (t.grp k).trapaddr = a ∧ (t.grp k).donemask = d ∧ (t.grp k).pend = []
          ∧ t.out = s.out ++ [.trapInterrupt k] ∧ (t.grp k).lane = g.lane ∧ SameMemory s t ∧ SameBut [] (t.grp k) g)
    ∧ (s.stage = .closing → g.expired = true → g.trapReq = none → Traps (.watchdogExpiry k) s k 0x21 g.lane[lowLane g.parked].pcv
        ∧ Completes (.watchdogExpiry k) s fun t => (t.grp k).elapsed = 0)
    ∧ (s.late (coreOf k) = some (slotOf k) → k ∉ s.turns → (s.core (coreOf k)).wait = false → Completes (.groupOverdue k) s fun t => t = { s with turns := s.turns ++ [k] })
    ∧ (g.holdReq = true → g.st = .ready ∨ g.st = .held → g.trapReq = none → s.quiet k = true → s.faulted k = false → g.expired = false →
        Completes (.groupSuspend k) s fun t => (t.grp k).st = .suspended ∧ (t.grp k).holdReq = false ∧ (t.grp k).pend = []
          ∧ (t.grp k).lane = g.lane ∧ SameMemory s t ∧ SameBut [] (t.grp k) g)
    ∧ (g.st = .held → g.hold = .stall → g.stallEnd.toNat ≤ s.time.toNat → Completes (.stallCountExpiry k) s fun t =>
        (t.grp k).st = .ready ∧ (t.grp k).hold = .none ∧ (t.grp k).lastReady = g.stallEnd ∧ SameMemory s t ∧ SameBut [] (t.grp k) g)
    ∧ (∀ x, g.sleepEnd = some x → x.toNat ≤ s.time.toNat → g.st = .held → g.hold = .sleep → Completes (.sleepTimeout k) s fun t =>
        (t.grp k).st = .ready ∧ (t.grp k).hold = .none ∧ (t.grp k).sleepEnd = none ∧ SameMemory s t ∧ SameBut [] (t.grp k) g)
    ∧ ((s.drainNow k).drained k = true → (∀ e ∈ (s.drainNow k).openRecs g.team, e.2.2.lock = none) → Completes (.drainComplete k) s fun t =>
        t.grp k = { err := g.err } ∧ k ∉ (t.team g.team).slots ∧ ((s.drainNow k).groupsOf g.team = [k] → (t.team g.team).st = .ended)
          ∧ ∀ name n, g.accOf name = some n → n < 8 → ((t.core (coreOf k)).acc n).st = .draining)

/-- A held group takes up its instruction again when what held it has ended, and the instruction acts as `exec` says; where it
would still wait for the same nothing changes. An arrival is counted once its release is complete: a BARV then waits for its
phase, and a BARA ends; a BARV whose phase has completed ends too; a copy or a range-held access waits out a lane wait (R94, R161 to R163, R167, R227, R241, R244, R247, R255, R259,
R283, R380). -/
def Obligations.HeldGroupsTakeUp : Prop :=
  ∀ (k : Nat) (s s2 : State) (i : Instr) (f : Fields),
    let g := s.grp k
    let goes (e i : Instr) (x : State) : Prop :=
      Completes e s fun t => ∃ u, exec i x = .next u ∧ t = if (u.grp k).hold = g.hold then s else u
    let ends (s1 : State) (i : Instr) : Prop :=
      ∃ f1, State.fetchInstr { (s1.modGrp k fun g => { g with hold := .none, trapReq := none }) with cur := k } k = (s2, .form 0x69 f1)
        ∧ mkInstr 0x69 f1 = some i
    (∀ e ∈ ([(.pwaitResume k, [.pwait], [.pwait f]), (.cwaitResume k, [.cwait, .cseal], [.cwait f, .cseal f]),
          (.copyAdmit k, [.engine, .range], [.cpy f, .cpym f, .cpyf f, .xsend f]),
          (.rangeHoldRelease k, [.range], [.lds f, .sts f, .atoms f, .cpy f, .cpym f, .cpyf f, .xsend f]),
          (.accHoldRelease k, [.accBusy], [.afree f, .azero f, .ard f, .awr f, .aks f])] : List (Instr × List Hold × List Instr)),
      i ∈ e.2.2 → TakesUp i k e.2.1 s s2 → (Hold.range ∈ e.2.1 → (s.core (coreOf k)).wait = false) → goes e.1 i s2)
    ∧ (∀ a, g.st = .held → g.arrive = some a → a.parity = none → s.relDone a.rel = true → a.bar < 16 →
        let b := s.bar g.team a.bar
        (s.atBarv k = true → Completes (.barrierArrival k) s fun t => (t.grp k).st = .held ∧ (t.grp k).arrive = none
          ∧ (t.grp k).batch.bvValid = true ∧ (t.grp k).batch.bvBar = a.bar ∧ (t.grp k).batch.bvParity = b.parity
          ∧ ((t.team g.team).bars[a.bar]?).getD 0 = (b.arrive (some g.gid) false).word)
        ∧ (s.atBarv k = false → g.trapReq = none → ends (s.countArrival k a false) (.bara f) →
            Completes (.barrierArrival k) s fun t => exec (.bara f) s2 = .next t))
    ∧ (g.arrive = none → (g.arriving = false → i ∈ [Instr.barv f, .bara f, .bwait f] → TakesUp i k [.bwait] s s2 →
          goes (.barrierWaiterRelease k) i s2)
        ∧ (g.arriving = true → g.st = .held → g.trapReq = none → ends s (.barv f) →
            Completes (.barrierWaiterRelease k) s fun t => exec (.barv f) s2 = .next t))
    ∧ (TakesUp (.aalloc f) k [.aalloc] s s2 → s.stage = .closing → goes (.accAllocGrant k) (.aalloc f) s2)
    ∧ (TakesUp (.rpop f) k [.rpop] s s2 → s.stage = .closing → goes (.rpopDelivery k) (.rpop f) (s2.modGrp k fun g => { g with hold := .rpop }))
    ∧ (∀ (s1 : State) (maj : BitVec 7), i ∈ [Instr.vote f, .bcast f, .rscan f, .rred f, .mma f, .mmax f, .barv f, .bara f] →
        k ∈ s.turns → g.mayIssue s.time = true → (∃ x, g.select = some x ∧ x.sync = true) →
        State.boundary { s with turns := s.turns.erase k } k = (s1, true) → ({ s1 with cur := k } : State).fetchIssue k = (s2, .form maj f) →
        mkInstr maj f = some i → Completes (.groupSyncExecute k) s fun t => exec i (s2.readRegs maj f) = .next t)

/-- What a supervisor core does: records and commands of the slot table, writes to the state window of a halted group and to the
record of a halted group's accumulator; the registers of the MGX, which no supervisor core reaches: its write there raises an access
fault with code 0x09; and the end of a plug-in, whose context passes to faulted (R17, R21, R100 to R102, R181, R298, R299, R354, R382, R383).
That the MGX is the core of the number `mgx` and what is reported of a write to its windows are the model's choices (log 19). -/
def Obligations.SupervisorEvents : Prop :=
  ∀ (k : Nat) (s : State),
    let g := s.grp k
    let halted : Prop := g.st = .trapped ∨ g.st = .suspended
    (∀ r : BindRec,
      (g.st ≠ .free → Completes (.bindRecordWrite k r) s fun t => t.grp k = { g with err := true })
      ∧ (g.st = .free → r.valid = false → Completes (.bindRecordWrite k r) s fun t => t.grp k = { bind := r })
      ∧ (g.st = .free → r.valid = true → s.bindable k r = true → Completes (.bindRecordWrite k r) s fun t => t.grp k = { st := .bound, bind := r })
      ∧ (g.st = .free → r.valid = true → s.bindable k r = false → Completes (.bindRecordWrite k r) s fun t => t.grp k = { bind := r, err := true }))
    ∧ (halted → (∃ l : LaneId, g.lane[l].st = .live ∧ g.lane[l].yld = false) → Completes (.slotResume k) s fun t =>
        ((t.grp k).st = .ready ∨ (t.grp k).st = .held) ∧ (t.grp k).err = false ∧ (t.grp k).lane = g.lane ∧ SameMemory s t ∧ SameBut [] (t.grp k) g)
    ∧ (halted → Completes (.slotKill k) s fun t => (t.grp k).st = .draining ∧ (t.grp k).err = false ∧ t.mmasAll k = []
        ∧ (∀ o ∈ t.ops, o.k = k → o.kind ≠ .queue) ∧ ∀ l : LaneId, (t.grp k).lane[l].st = .exited)
    ∧ (g.st = .ready ∨ g.st = .held → Completes (.slotHold k) s fun t => t.grp k = { g with holdReq := true, err := false })
    ∧ (g.st = .bound → Completes (.slotWithdraw k) s fun t => t.grp k = {})
    ∧ (¬halted → ∀ i ∈ [Instr.slotResume k, .slotKill k], Completes i s fun t => t.grp k = { g with err := true })
    ∧ (∀ (off : Nat) (data : List Byte),
        (¬halted → Completes (.stateWindowWrite k off data) s fun t => t = s.emit (.accessFault (0x2000000000 + 65536 * slotOf k + off) 0))
        ∧ (halted → 0x9F88 ≤ off → data ≠ [] → Completes (.stateWindowWrite k off data) s fun t =>
            t = s.emit (.accessFault (0x2000000000 + 65536 * slotOf k + off) 0))
        ∧ (halted → data.length = 8 → ∀ (n : Nat) (l : LaneId),
            (off = 256 * n + 8 * l.val → n < g.regs → n < 128 → Completes (.stateWindowWrite k off data) s fun t =>
              (t.grp k).rdV n l = { g.rdV n l with val := BitVec.ofNat 64 (leNat data) })
            ∧ (off = 0x9000 + 8 * n → 0 < n → n < 64 → Completes (.stateWindowWrite k off data) s fun t =>
                (t.grp k).rdS n = { g.rdS n with val := BitVec.ofNat 64 (leNat data) })
            ∧ (off = 0x9400 + 8 * l.val → Completes (.stateWindowWrite k off data) s fun t =>
                (t.grp k).lane[l].pcv = (BitVec.ofNat 64 (leNat data) &&& 0x00FFFFFFFFFFFFFC) ||| (g.lane[l].pcv &&& 0xFF00000000000003))
            ∧ (off = 0x9F70 → Completes (.stateWindowWrite k off data) s fun t => (t.grp k).srseed = BitVec.ofNat 64 (leNat data))))
    ∧ (∀ (c n off : Nat) (data : List Byte),
        let a := (s.core c).acc n
        let may : Prop := n < 8 ∧ a.st ≠ .free ∧ a.st ≠ .draining ∧ ((s.grp a.owner).st = .trapped ∨ (s.grp a.owner).st = .suspended)
          ∧ (∀ m, (s.core c).executing = some m → m.acc ≠ n) ∧ off + data.length ≤ 0x4340
        (may → 4 ∣ off → off < 0x4000 → data.length = 4 → Completes (.accRecordWrite c n off data) s fun t =>
          smGet 0 ((t.core c).acc n).c (off / 4) = BitVec.ofNat 32 (leNat data))
        ∧ (¬may → Completes (.accRecordWrite c n off data) s fun t => t = s.emit (.accessFault (0x2000100000 + 65536 * n + off) 0)))
    ∧ (∀ (c i : Nat) (x : Word), i < 16 → k = 16 * c + i → c ≠ mgx →
        let at_ (j : Nat) : Instr := .registerWrite c (0x2000200000 + 64 * i + 8 * j) x
        exec (at_ 0) s = exec (.bindRecordWrite k { g.bind with dw0 := x }) s
        ∧ (g.st = .free → Completes (at_ 1) s (fun t => t.grp k = { bind := { g.bind with dw1 := x } })
            ∧ Completes (at_ 2) s (fun t => t.grp k = { bind := { g.bind with dw2 := x } })
            ∧ Completes (at_ 3) s fun t => t.grp k = { bind := { g.bind with dw3 := x } })
        ∧ (x = 1 → exec (at_ 5) s = exec (.slotResume k) s) ∧ (x = 2 → exec (at_ 5) s = exec (.slotKill k) s)
        ∧ (x = 3 → exec (at_ 5) s = exec (.slotHold k) s) ∧ (x = 4 → exec (at_ 5) s = exec (.slotWithdraw k) s)
        ∧ (∀ a, 0x08000000 ≤ a → a < 0x0A000010 → Completes (.registerWrite c a x) s fun t => t = s.emit (.accessFault a 0x09)))
    ∧ (∀ (x : Word) (p : Nat),
        Completes (.registerWrite mgx 0x0A000000 x) s (fun t => t = { s with plim := bits x 16 16 })
        ∧ (p < 152 → Completes (.registerWrite mgx (0x08000000 + 64 * p) x) s fun t => t = s.modPort p fun q => q.control x s.time (s.portServed p))
        ∧ (p < 4608 → exec (.registerWrite mgx (0x09000000 + 64 * p) x) s = exec (.powerControlWrite p x) s))
    ∧ ∀ c, c < 4096 →
        Completes (.pluginAccessFault c) s (fun t => t.out.getLast? = some (.accessFault 0 0))
        ∧ ((s.ctx c).st ∈ [CtxState.created, .loaded, .runnable, .running, .preempting, .saved, .migrating] →
            Completes (.pluginAccessFault c) s fun t => (t.ctx c).st = .faulted ∧ (t.ctx c).before = (s.ctx c).st ∧ Raised (t.ctx c) 5)
        ∧ ((s.ctx c).st = .castling → Completes (.pluginAccessFault c) s fun t => (t.ctx c).st = .castling ∧ (t.ctx c).pendFault = true)

/-! ### Events of the matrix array -/

/-- At an LCLK edge the next k-step starts, once its reads are granted and its operands have been fetched: it updates every element of its
MMA's accumulator and takes the array for its LCLKs, and one that meets poison under sr.ctl.pt stalls it; an edge takes the k-step under way one LCLK
further and grants reads up to the ration; an MMA completes with its flags 12 FCLK after its last k-step, a drained accumulator is free, and a
CPYF's MMA enters the array in the FCLK after its last byte has landed (R79, R156, R157, R159, R175, R179, R183, R378 to R380). How the granted reads are
divided (log 27) and that register operands meet bit errors in the k-step (log 13) are the model's choices. -/
def Obligations.MatrixEvents : Prop :=
  ∀ (c : Nat) (s : State),
    (∀ m p, (s.core c).run = none → (s.core c).edgeAt = s.time → (s.core c).edges ≠ 0 → (s.core c).nextStep = some (m, p) → m.acc < 8 →
      m.readsAt m.prog ≤ (s.core c).kgrant → m.ready.toNat ≤ s.time.toNat →
      let a := (s.core c).acc m.acc
      let met := s.meetRegs a.owner m.frag allLanes
      let ra := met.operand a.owner m false m.prog
      let rb := ra.1.operand a.owner m true m.prog
      let row (x : Nat) : List KElem := ra.2.getD (x / 64) []
      let col (x : Nat) : List KElem := rb.2.getD (x % 64) []
      let bad (x : Nat) : Bool := smGet false a.poi x || (row x).any (fun e => e.2.1) || (col x).any (fun e => e.2.1)
      let poisoned : Prop := a.poi ≠ [] ∨ ∃ l ∈ ra.2 ++ rb.2, ∃ e ∈ l, e.2.1 = true
      ((s.grp a.owner).pt = false ∨ ¬poisoned → Completes (.kStep c) s fun t =>
        (∀ x, x < 4096 → smGet false ((t.core c).acc m.acc).poi x = bad x
          ∧ smGet 0 ((t.core c).acc m.acc).c x = BitVec.ofNat 32 (if bad x then fp32.canon else
              (kElem ((row x).map Prod.fst) ((col x).map Prod.fst) (smGet 0 a.c x).toNat).1))
        ∧ (t.core c).kgrant = 0 ∧ (t.core c).run = some (m.id, m.lclks)
        ∧ (t.core c).queue.map (fun y => (y.id, y.prog)) = (s.core c).queue.map (fun y => (y.id, y.prog)))
      ∧ ((s.grp a.owner).pt = true → poisoned → Completes (.kStep c) s fun t =>
          ((t.core c).acc m.acc).st = .stalled ∧ ((t.core c).acc m.acc).fault = true ∧ ((t.core c).acc m.acc).c = a.c
            ∧ (t.core c).run = none))
    ∧ (∀ m : MmaEnt, m.lclks = match m.width with | 4 => 8 | 8 => 16 | 16 => 32 | _ => 128)
    ∧ (∀ m, (s.core c).queue.find? (fun m => m.steps ≤ m.prog && m.endAt.toNat + 12 ≤ s.time.toNat) = some m →
        let k := ((s.core c).acc m.acc).owner
        Completes (.mmaComplete c) s fun t => (t.core c).queue = (s.core c).queue.filter (fun y => y.id != m.id)
          ∧ (t.grp k).fflags = (s.grp k).fflags ∧ (t.grp k).flags = (s.grp k).flags ||| m.flags ∧ (t.core c).accs = (s.core c).accs
          ∧ ∀ e ∈ (t.tile (c / 4)).range, e.mma ≠ some m.id)
    ∧ (∀ (k : Nat) (m : MmaEnt), coreOf k = c → (s.core c).queue.find? (fun m => !m.inArray && ((s.core c).acc m.acc).fault
          && ((s.core c).acc m.acc).owner = k) = some m → (s.grp k).st = .ready ∨ (s.grp k).st = .held → (s.grp k).trapReq = none →
        Traps (.accPoisonTrap k) s k 0x20 m.addr)
    ∧ (∀ n, ((s.core c).acc n).st = .draining → Completes (.accDrainComplete c n) s fun t => (t.core c).acc n = {})
    ∧ ((s.core c).clocked = true → (s.core c).passedEdges s.time < s.lclkEdges (c / 4) → Completes (.readGrant c) s fun t =>
        let x := s.core c
        let y := x.runOn s.time
        let need := match y.nextStep with | some (m, p) => m.readsAt p - x.kgrant | none => 0
        let first := min (s.tile (c / 4)).ration need
        (t.core c).passedEdges s.time = x.passedEdges s.time + 1
          ∧ (∀ id n, x.run = some (id, n) → (1 < n → (t.core c).run = some (id, n - 1))
              ∧ (n ≤ 1 → (t.core c).run = none ∧ ∀ m ∈ (t.core c).queue, m.id = id → m.endAt = s.time)
              ∧ (t.core c).queue.map (fun m => (m.id, m.prog))
                = x.queue.map fun m => (m.id, if m.id = id ∧ n ≤ 1 then m.prog + 1 else m.prog))
          ∧ (t.core c).kgrant = x.kgrant + first ∧ (t.core c).backlog = x.backlog - ((s.tile (c / 4)).ration - first)
          ∧ ((s.tile (c / 4)).ration ≠ 0 → (t.core c).pipe = if (t.core c).backlog = 0 then 0 else x.pipe - 1))
    ∧ ((s.core c).clocked = false ∨ s.lclkEdges (c / 4) ≤ (s.core c).passedEdges s.time → Completes (.readGrant c) s fun t => t = s)
    ∧ s.lclkEdges (c / 4) = (match (s.tile (c / 4)).lclk with | 0 => 1 - s.time.toNat % 2 | n => n)
    ∧ ∀ (id k n : Nat) (x : Copy), s.copy? id = some x → x.kind = .follow → x.followIn = false →
        (∃ d : Word, x.landAt = some d ∧ d.toNat < s.time.toNat) →
        (s.team x.team).image = none → s.memberKey x.team (followGroup x.desc) = some k → coreOf k = c →
        (s.grp k).accOf (followAcc x.desc) = some n → (s.grp k).unexited ≠ 0 →
        let m := followMma x.desc id
        let ps := m.apair.toList ++ m.bpair.toList
        pairFault 0 (s.team x.team).wsize ps = none → ((s.core c).queue.countP fun m => m.inArray) < 4 →
        (s.tile (siteOf k)).range.length + ps.length ≤ 64 → Completes (.followOnMma id) s fun t =>
          ∃ e, (t.core c).queue = (s.core c).queue ++ [e] ∧ e.acc = n ∧ e.x = m.x ∧ e.ty = m.ty ∧ e.areg = m.areg ∧ e.breg = m.breg
            ∧ e.apair = m.apair ∧ e.bpair = m.bpair ∧ e.ctrl = m.ctrl ∧ e.copy = some id ∧ (t.copy? id).map (fun y => y.followIn) = some true

/-! ### Memory accesses as they are performed -/

/-- An access performs at its place: a load reads the bytes there, a store writes its bytes and no other byte of any memory, an
atomic replaces the old value; the walker's leaf goes to the TLB, dirty lines go home, replicas follow, and what a load read
lands in the registers; a load or store through L1 reads or writes the bytes of its line; an access held at a page that no longer migrates is
translated again and performed there, those held before it first (R187, R191, R194, R202, R203, R206 to R210, R216). Translations, lines and
replicas: the walker of a tile takes the leaf of its first miss into the TLB, or tells the groups that wait for that page that there is none, also
where its read of the table is dropped or lost; a dirty line of L1 is performed at its home, and a replica applies the sequencer's next write
(R189, R191, R194, R202). -/
def Obligations.MemoryPerforms : Prop :=
  (
    ∀ (id : Nat) (l : LaneId) (s : State) (o : Op) (x : LaneOp), s.op? id = some o → o.lane? l.val = some x →
      let free : Prop := x.phase = .waiting ∧ o.rel = none ∧ s.laneClear o x = true
      let bank : Prop := s.bankCut o x = false ∧ (s.part o.part).grow.isSome = false
        ∧ s.cut o.part (s.bankSite o.part x.pa) (o.core / 4) = false
      let line : Nat := l1Key o.part x.ea.toNat
      let off : Nat := x.ea.toNat % 64
      let home : Prop := x.l1 = false ∧ x.tgt = 0 ∧ x.rep = none ∧ s.owns o.part x.pa = true ∧ s.wayCut o x = false
        ∧ s.cut o.part (s.homeSite x.pa) (o.core / 4) = false ∧ s.homeTurn o.part (x.pa / 2 ^ 32) = true
        ∧ (s.l1 o.core (l1Key o.part x.ea.toNat)).dirty &&& lineMask (x.ea.toNat % 64) o.size = 0
      (free → home → o.kind = .ld ∨ o.kind = .ldp ∨ o.kind = .ldc → Completes (.homeAccess id l.val) s fun t =>
        LaneAt t id l.val .performed (memRead s.mem x.pa o.size) ∧ t.mem = s.mem ∧ t.spad = s.spad ∧ t.bank = s.bank)
      ∧ (free → home → o.kind = .st → s.behindLeft o x = false → s.onMigrating o x = false → s.hostLines.contains (x.pa / 64) = false →
          Completes (.homeAccess id l.val) s fun t =>
            LaneAt t id l.val .performed [] ∧ Stored s.mem t.mem x.pa x.data ∧ t.spad = s.spad ∧ t.bank = s.bank)
      ∧ (free → home → o.kind = .atom ∨ o.kind = .acas → s.onMigrating o x = false → s.hostLines.contains (x.pa / 64) = false → o.together x = [x] →
          o.f.aop ≤ 9 → Completes (.homeAccess id l.val) s fun t =>
            LaneAt t id l.val .performed (memRead s.mem x.pa o.size) ∧ Stored s.mem t.mem x.pa
              (leBytes o.size (atomValue o.f.aop o.f.atype (memLoad s.mem x.pa o.size) (leNat x.data) (leNat x.data2))))
      ∧ (free → o.kind = .sts → o.wr = [] → Completes (.memoryResponse id l.val) s fun t =>
          LaneAt t id l.val .done [] ∧ Stored s.spad t.spad ((s.team o.team).spadAddr x.pa) x.data ∧ t.mem = s.mem ∧ t.bank = s.bank)
      ∧ (free → o.kind = .lds → Completes (.memoryResponse id l.val) s fun t =>
          LaneAt t id l.val .done (memRead s.spad ((s.team o.team).spadAddr x.pa) o.size) ∧ t.mem = s.mem ∧ t.spad = s.spad ∧ t.bank = s.bank)
      ∧ (free → bank → o.kind = .stb → Completes (.bankAccess id l.val) s fun t =>
          LaneAt t id l.val .performed [] ∧ Stored s.bank t.bank (bankAddr o.part x.pa) x.data ∧ t.mem = s.mem ∧ t.spad = s.spad)
      ∧ (free → bank → o.kind = .ldb → Completes (.bankAccess id l.val) s fun t =>
          LaneAt t id l.val .performed (memRead s.bank (bankAddr o.part x.pa) o.size) ∧ t.mem = s.mem ∧ t.spad = s.spad ∧ t.bank = s.bank)
      ∧ (free → bank → o.kind = .atomb ∨ o.kind = .bvec → o.together x = [x] → o.f.aop ≤ 9 → Completes (.bankAccess id l.val) s fun t =>
          LaneAt t id l.val .performed (memRead s.bank (bankAddr o.part x.pa) o.size) ∧ t.mem = s.mem ∧ t.spad = s.spad
            ∧ Stored s.bank t.bank (bankAddr o.part x.pa)
              (leBytes o.size (atomValue o.f.aop o.f.atype (memLoad s.bank (bankAddr o.part x.pa) o.size) (leNat x.data) (leNat x.data2))))
      ∧ (free → o.kind = .atoms → o.together x = [x] → o.f.aop ≤ 9 → Completes (.memoryResponse id l.val) s fun t =>
          let a := (s.team o.team).spadAddr x.pa
          LaneAt t id l.val .done (memRead s.spad a o.size) ∧ t.mem = s.mem ∧ t.bank = s.bank
            ∧ Stored s.spad t.spad a (leBytes o.size (atomValue o.f.aop o.f.atype (memLoad s.spad a o.size) (leNat x.data) (leNat x.data2))))
      ∧ (free → x.l1 = true → o.kind = .st → off + x.data.length ≤ 64 → Completes (.memoryResponse id l.val) s fun t =>
          LaneAt t id l.val .done [] ∧ ∀ i, i < 64 →
            if off ≤ i ∧ i < off + x.data.length then smGet 0 (t.l1 o.core line).data i = x.data.getD (i - off) 0
              ∧ (t.l1 o.core line).valid.getLsbD i = true ∧ (t.l1 o.core line).dirty.getLsbD i = true
            else smGet 0 (t.l1 o.core line).data i = smGet 0 (s.l1 o.core line).data i
              ∧ (t.l1 o.core line).valid.getLsbD i = (s.l1 o.core line).valid.getLsbD i
              ∧ (t.l1 o.core line).dirty.getLsbD i = (s.l1 o.core line).dirty.getLsbD i)
      ∧ (free → x.l1 = true → o.kind = .ld ∨ o.kind = .ldp ∨ o.kind = .ldc → s.l1Hit o x = true → Completes (.memoryResponse id l.val) s fun t =>
          LaneAt t id l.val .done ((List.range o.size).map fun i => smGet 0 (s.l1 o.core line).data (off + i)) ∧ SameMemory s t)
      ∧ (x.phase = .performed → o.kind.load = true → o.kind ≠ .ldc → o.kind ≠ .fill → o.wr ≠ [] → o.size ≤ 8 → x.val.length = o.size →
          Completes (.memoryResponse id l.val) s fun t => LaneAt t id l.val .done x.val
            ∧ ((t.grp o.k).rdV o.f.d.toNat l).val = BitVec.ofInt 64 (reading (8 * o.size) (!o.f.md.getLsbD 3) (leNat x.val))
            ∧ (∀ b, b < 8 → ((t.grp o.k).rdV o.f.d.toNat l).poi.getLsbD b = x.vpoi.getD b false)
            ∧ (∀ m : LaneId, m ≠ l → ∀ n, (t.grp o.k).rdV n m = (s.grp o.k).rdV n m) ∧ SameMemory s t)
      ∧ (let first (y : Xlate) : Prop := ∀ o' ∈ s.ops, o'.part = o.part → ∀ z ∈ o'.lanes,
           z.phase = .migrating ∨ z.phase = .inval ∨ (z.phase = .waiting ∧ z.held ≠ 0) →
           z.pa / 65536 = x.pa / 65536 ∨ (y.base ≤ z.ea.toNat ∧ z.ea.toNat < y.base + y.size) →
             x.held < z.held ∨ (x.held = z.held ∧ x.lane ≤ z.lane)
         (¬(x.phase = .migrating ∧ ∃ y, s.leafNow o x = some y ∧ first y ∧ leafMig y.leaf = false) →
            Completes (.migrationReplay id l.val) s fun t => t = s)
         ∧ ∀ y : Xlate, x.phase = .migrating → s.leafNow o x = some y → first y → leafMig y.leaf = false →
            let moved (z : LaneOp) : LaneOp := { z with phase := .waiting, pa := y.pa, tgt := leafTgt y.leaf, rep := leafRep y.leaf }
            let lane (z : LaneOp) : LaneOp :=
              if z.lane = l.val then moved x else if o.kind.atomic = true ∧ z.phase = .migrating ∧ z.ea = x.ea then moved z else z
            let s1 := s.modOp id fun o => { o with lanes := o.lanes.map lane }
            Completes (.migrationReplay id l.val) s fun t => ∃ u, exec (.homeAccess id l.val) s1 = .next u ∧ SameMemory u t ∧ t.ops = u.ops
              ∧ ((∀ o' ∈ t.ops, o'.k = o.k → ∀ z ∈ o'.lanes, z.phase ≠ .migrating) → (u.grp o.k).hold = .migrating →
                  (t.grp o.k).st = .ready ∧ (t.grp o.k).hold = .none)))
  ∧ (
    ∀ s : State,
      (∀ (site p : Nat) (va : Word), Completes (.pageWalk site p va) s fun t => SameMemory s t
        ∧ ((∀ m, (s.tile site).walks.find? (fun m => !m.none) = some m → m.part ≠ p ∨ m.page ≠ va.toNat / 65536) → t = s)
        ∧ ∀ m, (s.tile site).walks.find? (fun m => !m.none) = some m → m.part = p → m.page = va.toNat / 65536 →
            s.tlbFind site p (65536 * m.page) = none →
              let flagged (t : State) : Prop := (t.tile site).tlb = (s.tile site).tlb
                ∧ ∀ w ∈ (t.tile site).walks, w.part = p → w.page = m.page → w.none = true
              (m.lost = none →
                (∀ e base size, s.walkAt site p (65536 * m.page) = .leaf e base size →
                  t.tlbFind site p (65536 * m.page) = some { part := p, base, size, leaf := BitVec.ofNat 64 e }
                    ∧ ∀ w, w ∈ (t.tile site).walks ↔ w ∈ (s.tile site).walks ∧ ¬(w.part = p ∧ w.page = m.page))
                ∧ (s.walkAt site p (65536 * m.page) = .none → flagged t)
                ∧ ∀ a, s.walkAt site p (65536 * m.page) = .dropped a → (s.owns p a = false → flagged t)
                    ∧ (s.owns p a = true → (t.tile site).tlb = (s.tile site).tlb
                        ∧ ∀ w ∈ (t.tile site).walks, w.part = p → w.page = m.page → w.lost = some s.time))
              ∧ ∀ d, m.lost = some d → (s.time.toNat < d.toNat + 180000 → t = s) ∧ (d.toNat + 180000 ≤ s.time.toNat → flagged t))
      ∧ (∀ (core key pa : Nat), s.lineHome core key (s.l1 core key) = (0, pa, false, none) → s.owns (key / 2 ^ 50) pa = true → 64 ∣ pa →
          s.cutBoth (key / 2 ^ 50) (core / 4) (s.homeSite pa) = false → s.leftIn core key (s.l1 core key).dirty = false →
          Completes (.writebackPerform core key) s fun t => (t.l1 core key).dirty = 0 ∧ (t.l1 core key).valid = (s.l1 core key).valid
            ∧ (∀ i, i < 64 → memGet t.mem (pa + i) = if (s.l1 core key).dirty.getLsbD i then smGet 0 (s.l1 core key).data i else memGet s.mem (pa + i))
            ∧ ∀ a, a < pa ∨ pa + 64 ≤ a → memGet t.mem a = memGet s.mem a)
      ∧ (∀ (p idx r : Nat) (w : RepWrite) (q : List RepWrite), smGet [] s.repLog (repKey p idx r) = w :: q →
          Completes (.replicaApply p idx r) s fun t => smGet [] t.repLog (repKey p idx r) = q
            ∧ t.mem = w.bytes.foldl (fun m b => memSet m b.1 b.2.1) s.mem ∧ t.spad = s.spad ∧ t.bank = s.bank))

/-- Accesses that end otherwise: errors give zero with every poison bit and count in HOSTERR; contributions are dropped,
applied, held or resent by their number; responses of the host and complete releases let accesses go on; and the host reads and
writes device memory, whose lines a host on a CXL port then caches, and one on a PCI Express port not (log 106) (R201, R217, R219, R229, R236,
R333, R348, R351). -/
def Obligations.AccessEnds : Prop :=
  (∀ (id : Nat) (l : LaneId) (s : State) (o : Op) (x : LaneOp), s.op? id = some o → o.lane? l.val = some x →
    let errs (i : Instr) : Prop := o.k < 2 ^ 40 → o.kind ≠ .wback → o.ctx < 4096 → Completes i s fun t =>
      LaneAt t id l.val .performed (List.replicate (max 8 o.size) 0)
        ∧ (t.ctx o.ctx).counts[3] = BitVec.ofNat 32 (min (2 ^ 32 - 1) ((s.ctx o.ctx).counts[3].toNat + 1))
        ∧ Raised (t.ctx o.ctx) 4 ∧ SameMemory s t
    (x.tgt ≠ 0 → x.phase = .sent ∨ x.phase = .waiting → o.rel = none → errs (.hostAccessError id l.val))
    ∧ (x.phase = .lost → o.time.toNat + 180000 ≤ s.time.toNat → errs (.lostAccessTimeout id l.val))
    ∧ (x.tgt = 2 → x.phase = .sent → s.copy? id = none →
        x.seq.toNat + (s.port x.port).timeout ≤ s.time.toNat → errs (.completionTimeout id l.val))
    ∧ (x.phase = .resend → Completes (.bredResend id l.val) s fun t => LaneAt t id l.val .waiting x.val ∧ SameMemory s t)
    ∧ (x.phase = .inval → Completes (.hostPortCompletion id l.val) s fun t => LaneAt t id l.val .waiting x.val
        ∧ t.hostLines = s.hostLines.filter (fun n => n != s.seqPa o.part x.rep x.pa / 64))
    ∧ (x.phase = .sent → x.tgt = 1 → s.cut o.part (s.waySite o x) (o.core / 4) = false → Completes (.hostPortCompletion id l.val) s fun t => LaneAt t id l.val .performed [])
    ∧ (∀ r, o.rel = some r → s.relDone r = true → Completes (.releaseAtomicPerform id) s fun t =>
        (t.op? id).map (fun o => o.rel) = some none ∧ SameMemory s t)
    ∧ (x.phase = .waiting → o.rel = none → o.kind = .bred → s.laneClear o x = true → s.bankCut o x = false → (s.part o.part).grow.isSome = false →
        s.cut o.part (s.bankSite o.part x.pa) (o.core / 4) = false →
        let a := bankAddr o.part x.pa
        let next := memLoad s.bank (a + 8) 8
        let n := atomSize o.f.atype
        let held : Prop := ∃ e ∈ s.bred, e.part = o.part ∧ e.cell = x.pa ∧ e.q = x.seq
        let room : Prop := (s.bred.countP fun e => e.part = o.part && s.bankOf o.part e.cell = s.bankOf o.part x.pa) < 64
        (x.seq.toNat < next ∨ held → Completes (.bredContribution id l.val) s fun t =>
          LaneAt t id l.val .performed [] ∧ t.bred = s.bred ∧ t.bank = s.bank)
        ∧ (x.seq.toNat = next → ¬held → (∀ e ∈ s.bred, e.part = o.part → e.cell = x.pa → e.q.toNat ≠ (next + 1) % 2 ^ 64) →
            Completes (.bredContribution id l.val) s fun t => LaneAt t id l.val .performed []
              ∧ memLoad t.bank a n = atomValue 0 o.f.atype (memLoad s.bank a n) (leNat x.data % 2 ^ 64 % 2 ^ (8 * n)) 0 % 2 ^ (8 * n)
              ∧ memLoad t.bank (a + 8) 8 = (next + 1) % 2 ^ 64)
        ∧ (next < x.seq.toNat → x.seq.toNat < next + 64 → ¬held → room → Completes (.bredContribution id l.val) s fun t =>
            LaneAt t id l.val .performed [] ∧ t.bank = s.bank ∧ t.bred = s.bred ++ [BredEnt.mk o.part x.pa x.seq
              (BitVec.ofNat 64 (leNat x.data)) o.f.atype o.ctx])
        ∧ (next < x.seq.toNat → ¬(x.seq.toNat < next + 64 ∧ room) → ¬held → Completes (.bredContribution id l.val) s fun t =>
            LaneAt t id l.val .resend x.val ∧ t.bred = s.bred ∧ t.bank = s.bank)))
  ∧ ∀ (p pa n : Nat) (data : List Byte) (s : State), s.portUp (s.part p).port = true → s.owns p pa = true →
      s.cutBoth p (s.hostSite (s.part p).port pa) (s.homeSite pa) = false →
      (pa % 64 + data.length ≤ 64 → Completes (.hostWrite p pa data) s fun t => Stored s.mem t.mem pa data ∧ t.spad = s.spad ∧ t.bank = s.bank)
      ∧ Completes (.hostRead p pa n) s fun t => t.mem = s.mem ∧ (∃ ps, t.out = s.out ++ [.hostData (memRead s.mem pa n) ps])
          ∧ ((s.port (s.part p).port).cxl = true → 0 < n → ∀ j, j < n → (pa + j) / 64 ∈ t.hostLines)
          ∧ ((s.port (s.part p).port).cxl = false → t.hostLines = s.hostLines)

/-! ### Tokens, batches, copies and messages -/

/-- A token completes with its release; a bound batch arrives at its barrier; a copy takes a channel, moves one element, from its team's window
or from what stood there when the team gave it up (log 98), and completes; shares and messages are looked up, are accepted by their receivers' tiles and take their entries there, land in the
receivers' windows and wake them, and are acknowledged (R226, R233, R241, R247, R249, R254, R255, R322, R337, R340). -/
def Obligations.CopyEvents : Prop :=
  ∀ s : State,
    (∀ k n, ((s.grp k).token n).st = .pending → ((s.grp k).token n).rel = false ∨ s.relDone ((s.grp k).token n).toRel = true →
      Completes (.phaseReleaseComplete k n) s fun t => ((t.grp k).token n).st = .complete ∧ ((t.grp k).token n).acq = ((s.grp k).token n).acq
        ∧ ∀ m, m ≠ n → (t.grp k).token m = (s.grp k).token m)
    ∧ (∀ k j g n err, (s.grp k).batchArrives j = some (g, n, err) → n < 16 → Completes (.batchArrival k j) s fun t =>
        ((t.team g.team).bars[n]?).getD 0 = ((s.bar g.team n).arrive none err).word ∧ ((t.grp k).batch.slot j).bound = false)
    ∧ ∀ (id : Nat) (c : Copy), s.copy? id = some c →
      let lands (t : State) (r : Recv) : Prop :=
        t.spad = c.bytes.foldl (fun m b => memSet m ((s.team (c.recvKey r)).spadAddr b.1) b.2.1) s.spad ∧ t.mem = s.mem ∧ t.bank = s.bank
          ∧ t.wakes = s.wakes ++ [c.recvKey r]
      let fits (r : Recv) : Prop := r.looked = true ∧ r.done = false ∧ (s.team (c.recvKey r)).present = true
        ∧ (s.team (c.recvKey r)).st ≠ .transit ∧ (s.team (c.recvKey r)).image = none ∧ r.taken.isSome = true
        ∧ (∀ b ∈ c.bytes, b.1 + 1 ≤ (s.team (c.recvKey r)).wsize) ∧ (∀ e ∈ (s.tile (s.team (c.recvKey r)).site).range, e.mma = none)
        ∧ (∃ e ∈ (s.tile (s.team (c.recvKey r)).site).range, e.share = true ∧ e.copy = some c.id ∧ e.team = c.recvKey r)
        ∧ (c.rben = true → c.rbar < (s.team (c.recvKey r)).nbars ∧ (s.bar (c.recvKey r) c.rbar).init = true)
      let arrives (t : State) (r : Recv) : Prop := c.rben = true → c.rbar < 16 →
        ((t.team (c.recvKey r)).bars[c.rbar]?).getD 0 = ((s.bar (c.recvKey r) c.rbar).arrive none false).word
      (∀ i, i < 16 → c.kind ≠ .message → c.chan = none →
        (∀ y ∈ s.copies, y.site = c.site → y.kind ≠ .message → y.chan ≠ some i ∧ (y.chan = none → c.id ≤ y.id)) →
        (∀ j < i, ∃ y ∈ s.copies, y.site = c.site ∧ y.kind ≠ .message ∧ y.chan = some j) →
          Completes (.copyStart id) s fun t => (t.copy? id).map (fun y => y.chan) = some (some i) ∧ SameMemory s t)
      ∧ (∀ n, c.chan.isSome = true → n < c.total → n ∉ c.doneEl → c.behind n = false → c.kind = .plain → c.desc.sspace = 1 → c.desc.dspace = 1 →
          c.desc.styp = c.desc.dtyp → c.desc.styp < 4 → (s.team c.team).present = true → (s.team c.team).image = none →
          (s.team c.team).st ≠ .transit → (∀ e ∈ (s.tile (s.team c.team).site).range, e.mma = none) → s.cut c.part c.site (s.team c.team).site = false →
          let w := copyBytes c.desc.dtyp
          let e := c.desc.elem n
          let src := match c.snap with
            | none => memRead s.spad (c.sbase + e.2.1) w
            | some x => (List.range w).map fun i => smGet 0 x.1 (e.2.1 + i)
          Completes (.copyWrite id n) s fun t => Stored s.spad t.spad ((s.team c.team).spadAddr e.2.2)
              (if e.1 then src else leBytes w c.desc.fill.toNat)
            ∧ (c.doneEl.length + 1 = c.total → (t.copy? id).map (fun y => y.landAt) = some (some s.time)) ∧ t.mem = s.mem ∧ t.bank = s.bank ∧ (t.copy? id).map (fun y => y.doneEl) = some (n :: c.doneEl))
      ∧ (c.kind ≠ .message → c.chan.isSome = true → c.doneEl.length = c.total → (∀ r ∈ c.recv, r.done = true) →
          (c.kind = .follow → c.followDone = true) → (∀ o ∈ s.ops, o.k ≠ copyOwner c.id c.site) → Completes (.copyComplete id) s fun t =>
            t.copies = s.copies.filter (fun y => y.id != id) ∧ (∀ site, ∀ r ∈ (t.tile site).range, r.copy ≠ some id)
              ∧ ∀ k, (s.team c.team).image = none → s.memberKey c.team c.gid = some k → (s.grp k).sealDue = false →
                ((t.grp k).batch.slot c.batch.toNat).out = ((s.grp k).batch.slot c.batch.toNat).out - 1)
      ∧ (∀ r y, c.kind = .multicast → c.doneEl.length = c.total → c.recv[r]? = some y → fits y → Completes (.multicastShare id r) s fun t =>
          lands t y ∧ arrives t y ∧ ∃ c', t.copy? id = some c' ∧ ∀ z ∈ c'.recv, z.team = y.team → z.done = true)
      ∧ (∀ r y, c.kind = .multicast → c.doneEl.length = c.total → c.recv[r]? = some y → y.looked = true → y.done = false →
          let w := s.team (c.recvKey y)
          w.present = true → w.st ≠ .transit → w.image = none → (∀ b ∈ c.bytes, b.1 + 1 ≤ w.wsize) → c.bytes ≠ [] →
          (∀ e ∈ (s.tile w.site).range, ¬(e.share = true ∧ e.copy = some c.id ∧ e.team = c.recvKey y)) → (s.tile w.site).range.length < 64 →
            (∀ a, y.taken = none → a = y.site.getD w.site → s.accepted a < 64 → s.routeCut c.part c.route c.site a = false →
              Completes (.multicastShare id r) s fun t => SameMemory s t ∧ ∃ c', t.copy? id = some c'
                ∧ ∀ z ∈ c'.recv, z.team = y.team → z.taken = some a)
            ∧ (∀ a, y.taken = none → a = y.site.getD w.site → 64 ≤ s.accepted a → Completes (.multicastShare id r) s fun t => t = s)
            ∧ (y.taken.isSome = true → Completes (.multicastShare id r) s fun t => SameMemory s t ∧ ∃ e, e.share = true
                ∧ (t.tile w.site).range = (s.tile w.site).range ++ [e] ∧ e.copy = some c.id ∧ e.team = c.recvKey y
                ∧ ∀ b ∈ c.bytes, e.lo ≤ b.1 ∧ b.1 < e.hi))
      ∧ (c.remote = none → (∀ r ∈ c.recv, r.looked = false ∧ r.done = false ∧ (s.team (c.recvKey r)).st ≠ .transit
            ∧ ((s.team (c.recvKey r)).image = none → s.cutBoth c.part c.site (s.team (c.recvKey r)).site = false)) →
          Completes (.teamLocationLookup id) s fun t => ∃ c', t.copy? id = some c' ∧ c'.recv.map (fun r => r.team) = c.recv.map (fun r => r.team)
            ∧ ∀ r ∈ c'.recv, r.looked = true ∧ r.done = !(s.team (c.recvKey r)).present)
      ∧ (∀ y, c.kind = .message → c.sent = false → s.messageFirst c = true → c.remote = none → c.recv = [y] → fits y →
          Completes (.xsendDelivery id) s fun t => lands t y ∧ arrives t y ∧ (t.copy? id).map (fun z => z.sent) = some true)
      ∧ (c.kind = .message → c.sent = true → (∀ r ∈ c.recv, r.done = true) → Completes (.xsendAcknowledgement id) s fun t =>
          t.copies = s.copies.filter (fun y => y.id != id))

/-! ### Queues and launches -/

/-- Homes reserve the records of a queue operation, which is then applied; timers expire, queues reopen, and launchers start
teams from eligible records and from grid indices; a started team issues; a wake ends the sleeps of its team (R123, R270, R272
to R275, R277, R280 to R283, R286). The model's choices are that TEAM_START waits while a core of the team is in lane wait (log 80)
and that a queue operation waits while the way to its home is down (log 114). -/
def Obligations.QueueEvents : Prop :=
  ∀ s : State,
    (∀ (id home : Nat) (o : Op) (kind : QKind), s.op? id = some o → o.q = some kind → home ∉ o.checked →
      let q (x : QLane) : Queue := s.queue (o.team % 4096) (s.team o.team).kern (handleNode x.handle)
      (∃ x ∈ o.qlanes, s.qhome o x = home) → s.cutBoth o.part (siteOf o.k) home = false →
      (∀ x ∈ o.qlanes, s.qhome o x = home → queueLaneFault (q x) kind o.qlanes x = 0 ∧ ∀ r, (q x).lookup x.handle = some r → r.lock = none) →
        Completes (.queueHomeCheck id home) s fun t => (t.op? id).map (fun o => o.checked) = some (home :: o.checked)
          ∧ ∀ x ∈ o.qlanes, s.qhome o x = home → ∃ r, (t.queue (o.team % 4096) (s.team o.team).kern (handleNode x.handle)).rec?
              (handleKey x.handle) = some r ∧ r.lock = some id)
    ∧ (∀ (id : Nat) (o : Op) (x : QLane), s.op? id = some o → (∀ y ∈ o.qlanes, s.qhome o y ∈ o.checked ∧ y.bad = 0) → o.qlanes = [x] →
        let c := o.team % 4096
        let kn := (s.team o.team).kern
        let n := handleNode x.handle
        let key := handleKey x.handle
        ∀ r, (s.queue c kn n).rec? key = some r → (shape (if o.q = some .join then 0x6E else 0x6D) o.f).isSome = true →
          (∀ rel, o.rel = some rel → s.relDone rel = true) →
          (o.q = some .free → Completes (.queueApply id) s fun t => (t.queue c kn n).rec? key = none
            ∧ ∀ l : LaneId, (∃ y ∈ o.lanes, y.lane = l.val) → (s.grp o.k).lane[l].st = .live → (t.grp o.k).lane[l].pcv =
                BitVec.ofNat 64 ((o.addr.toNat + o.f.bytes) % 2 ^ 56))
          ∧ (o.q = some .join → 1 < r.join → Completes (.queueApply id) s fun t =>
              ((t.queue c kn n).rec? key).map (fun r => r.join) = some (r.join - 1))
          ∧ (o.q = some .commit → x.ea.toNat % 16 = 0 → x.ea.toNat + ((s.kern c kn).node n).size - 16 ≤ (s.team o.team).wsize →
              Completes (.queueApply id) s fun t => ∃ r', (t.queue c kn n).rec? key = some r' ∧ r'.committed = true
                ∧ r'.payload = memRead s.spad ((s.team o.team).spadAddr x.ea.toNat) (((s.kern c kn).node n).size - 16)
                ∧ (r.join = 0 → r'.elig = true)))
    ∧ (∀ (id : Nat) (o : Op) (x : QLane), s.op? id = some o → o.q.isSome = true → (∀ y ∈ o.qlanes, s.qhome o y ∈ o.checked) →
        o.qlanes.find? (fun y => y.bad != 0) = some x → (s.grp o.k).st = .held → (s.grp o.k).trapReq = none →
          Traps (.queueApply id) s o.k x.bad (if x.bad = 0x18 then x.handle else o.addr))
    ∧ (∀ c kn n, n < (s.kern c kn).queues.length →
        (∀ x, s.stage = .closing → (s.queue c kn n).timer = some x → x.toNat ≤ s.time.toNat → (s.queue c kn n).closed = false →
          Completes (.queueTimerExpiry c kn n) s fun t => (t.queue c kn n).expired = true ∧ (t.queue c kn n).timer = none)
        ∧ ((s.ctx c).st = .loaded ∨ (s.ctx c).st = .saved → (s.ctx c).pendFault = false → (s.ctx c).pending = false →
            (s.queue c kn n).closed = true → Completes (.queueReopen c kn n) s fun t => (t.queue c kn n).closed = false)
        ∧ (∀ (r : Run) (set : Nat × List Nat × Nat) (e : Nat × Rec), (s.queue c kn n).order = [e] → (s.queue c kn n).closed = false →
            s.stage = .closing → (s.queue c kn n).launched ≠ some s.time →
            s.restoring c = false → n < (s.kern c kn).nodes.length → s.waiting (s.queue c kn n) = [] → 1 ≤ ((s.kern c kn).node n).k →
            ((s.kern c kn).node n).k = 1 ∨ (s.queue c kn n).expired = true → s.nodeRun c kn = some r → s.freeSet c kn n none = some set →
            (∀ k ∈ set.2.1, (s.grp k).ctx = c) → (s.ctx c).pendFault = false → (s.ctx c).pending = false →
              let tk := teamKey c r.grid (BitVec.ofNat 32 r.counter)
              Completes (.teamLaunch c kn n) s fun t => (t.queue c kn n).rec? e.1 = none ∧ (t.team tk).st = .starting ∧ (t.team tk).node = n
                ∧ (t.team tk).slots = set.2.1 ∧ (∀ k ∈ set.2.1, (t.grp k).st = .ready ∧ (t.grp k).team = tk)
                ∧ ∀ (j : Nat) (b : Byte), e.2.bytes.1[j]? = some b → memGet t.spad ((t.team tk).spadAddr 0 + j) = b))
    ∧ (∀ tk, tk ∈ s.wakes → Completes (.wakeEvent tk) s fun t => t.wakes = s.wakes.erase tk
        ∧ ∀ k ∈ s.groupsOf tk, (s.grp k).st = .held → (s.grp k).hold = .sleep → (s.grp k).sleepEnd.isSome = true →
            (t.grp k).st = .ready ∧ (t.grp k).sleepEnd = none)
    ∧ (∀ tk, (s.team tk).st = .starting → (s.ctx (s.team tk).ctx).st = .runnable ∨ (s.ctx (s.team tk).ctx).st = .running →
        (s.ctx (s.team tk).ctx).pendFault = false → (s.ctx (s.team tk).ctx).pending = false → (∀ k ∈ s.groupsOf tk, (s.grp k).stopReq = none) →
          ((∃ k ∈ s.groupsOf tk, (s.core (coreOf k)).wait = true) → Completes (.teamStart tk) s fun t => t = s)
          ∧ ((∀ k ∈ s.groupsOf tk, (s.core (coreOf k)).wait = false) → Completes (.teamStart tk) s fun t => (t.team tk).st = .resident
            ∧ ∀ k ∈ s.groupsOf tk, (t.grp k).st = (s.grp k).st ∧ (t.grp k).lastReady = s.time))
    ∧ ∀ (c site : Nat) (r : Run), s.run? c r.grid = some r → s.restoring c = false →
        (r.counter < r.n → smGet [] r.locals site = [] → (s.freeSet c r.kern 0 (some site)).isSome = true →
          Completes (.gridCounterFetch c r.grid.toNat site) s fun t => ∃ r', t.run? c r.grid = some r' ∧ r'.counter = r.counter + 8
            ∧ smGet [] r'.locals site = (List.range (min 8 (r.n - r.counter))).map fun i => r.counter + i)
        ∧ (∀ (i : Nat) (rest : List Nat) (set : Nat × List Nat × Nat), s.freeSet c r.kern 0 (some site) = some set → r.saved = [] →
            smGet [] r.locals site = i :: rest → (∀ k ∈ set.2.1, (s.grp k).ctx = c) → (s.ctx c).pendFault = false → (s.ctx c).pending = false →
              let tk := teamKey c r.grid (BitVec.ofNat 32 i)
              Completes (.gridTeamLaunch c r.grid.toNat site) s fun t => (t.team tk).st = .starting ∧ (t.team tk).slots = set.2.1
                ∧ (∃ r', t.run? c r.grid = some r' ∧ smGet [] r'.locals site = rest)
                ∧ ∀ k ∈ set.2.1, (t.grp k).st = .ready ∧ (t.grp k).team = tk
                    ∧ (t.grp k).rdS 1 = .of r.addr ∧ (t.grp k).rdS 4 = .of (BitVec.ofNat 64 r.n))

/-! ### Launch lines, castling, contexts -/

/-- A host write fills a free line and GO triggers it; RUN opens a run, APPEND makes an eligible record, END ends a node run,
each with STATUS and GO 0 on its line; a run that is over writes back what its cores left dirty, stores DONEVAL and, when that
is performed, raises its vector (R294 to R296). The model's choices are the order of the checks of a line (logs 41 and 96). -/
def Obligations.LineEvents : Prop :=
  (∀ (vf n o : Nat) (data : List Byte) (s : State), (s.vf vf).frozen = false → s.portUp (s.vf vf).port = true → n < 512 → data ≠ [] →
    o + data.length ≤ 128 →
      ((s.line vf n).busy = true → Completes (.launchLineWrite vf (128 * n + o) data) s fun t => t.line vf n = s.line vf n)
      ∧ ((s.line vf n).busy = false → (s.line vf n).nat 0x7F 1 = 0 → o + data.length ≤ 0x7F →
          Completes (.launchLineWrite vf (128 * n + o) data) s fun t => (t.line vf n).busy = false
            ∧ (∀ j b, data[j]? = some b → o + j < 0x70 ∨ 0x78 ≤ o + j → smGet 0 (t.line vf n).bytes (o + j) = b)
            ∧ ∀ j, j < o ∨ o + data.length ≤ j ∨ (0x70 ≤ j ∧ j < 0x78) → smGet 0 (t.line vf n).bytes j = smGet 0 (s.line vf n).bytes j)
      ∧ (∀ g : Byte, g ≠ 0 → o = 0x7F → data = [g] → (s.line vf n).busy = false →
          Completes (.launchLineWrite vf (128 * n + o) data) s fun t => (t.line vf n).busy = true
            ∧ (∀ e, e ∈ (t.vf vf).order ↔ e = (s.time.toNat, n) ∨ e ∈ (s.vf vf).order)
            ∧ ((∀ e ∈ (s.vf vf).order, e.1 < s.time.toNat) → (t.vf vf).order = (s.vf vf).order ++ [(s.time.toNat, n)])))
  ∧ (∀ (vf n c kn : Nat) (s : State),
      let l := s.line vf n
      let k := s.kern c kn
      (LineReady s vf n 1 c kn → k.st = .loaded ∨ k.st = .active → (k.nodes = [] ↔ l.nat 8 4 ≠ 0) → (s.openRuns c).length < 16 →
        (k.nodes ≠ [] → ∀ r ∈ s.openRuns c, r.kern ≠ kn) → Completes (.run vf n) s fun t => LineDone t vf n 0 (s.ctx c).gridCtr.toNat
          ∧ (t.kern c kn).st = .active ∧ (t.ctx c).gridCtr = (s.ctx c).gridCtr + 1 ∧ ((s.ctx c).st = .loaded → (t.ctx c).st = .runnable)
          ∧ ∃ r, (t.ctx c).runs = (s.ctx c).runs ++ [r] ∧ r.grid = (s.ctx c).gridCtr ∧ r.kern = kn ∧ r.n = l.nat 8 4
              ∧ r.addr = BitVec.ofNat 64 (l.nat 0x10 8) ∧ r.doneaddr = BitVec.ofNat 64 (l.nat 0x18 8)
              ∧ r.doneval = BitVec.ofNat 64 (l.nat 0x20 8) ∧ r.counter = 0)
      ∧ (∀ (r : Run) (key : Nat), LineReady s vf n 2 c kn → k.st = .loaded ∨ k.st = .active → l.nat 3 1 < k.nodes.length →
          l.nat 3 1 < k.queues.length → s.openRun? c (BitVec.ofNat 32 (l.nat 4 4)) = some r →
          r.kern = kn → (s.queue c kn (l.nat 3 1)).closed = false → (s.queue c kn (l.nat 3 1)).freeSlot = some key →
          let w := (k.node (l.nat 3 1)).size - 16
          let made (t : State) (v : List Byte) : Prop := LineDone t vf n 0 ((s.queue c kn (l.nat 3 1)).seq.toNat % 2 ^ 32)
            ∧ ∃ x, (t.queue c kn (l.nat 3 1)).rec? key = some x ∧ x.committed = true ∧ x.elig = true ∧ x.host = true ∧ x.pri = l.nat 2 1
              ∧ x.seq = (s.queue c kn (l.nat 3 1)).seq ∧ x.etime = s.time ∧ x.payload = v
          (l.nat 0x0E 2 = 1 → (k.node (l.nat 3 1)).size ≤ 80 → Completes (.append vf n) s fun t =>
            made t ((List.range w).map fun i => smGet 0 l.bytes (0x28 + i)))
          ∧ ∀ read, l.nat 0x0E 2 = 0 → s.readVa (s.monitor vf) (s.ctx c).part c 32 (BitVec.ofNat 64 (l.nat 0x10 8)) w = read →
              (∀ v, read.2 = some v → Completes (.append vf n) s fun t => made t v.1)
              ∧ (read.2 = none → Completes (.append vf n) s fun t => LineDone t vf n 6 0))
      ∧ (∀ r : Run, LineReady s vf n 3 c kn → k.st = .loaded ∨ k.st = .active →
          s.openRun? c (BitVec.ofNat 32 (l.nat 4 4)) = some r → r.kern = kn →
            (k.nodes ≠ [] → Completes (.endRun vf n) s fun t => LineDone t vf n 0 0 ∧ (t.run? c r.grid).map (fun r => r.ended) = some true)
            ∧ (k.nodes = [] → Completes (.endRun vf n) s fun t => LineDone t vf n 0 0 ∧ t.ctxs = s.ctxs))
      ∧ ∀ ty ∈ [1, 2, 3], (∃ time, (s.vf vf).order.head? = some (time, n) ∧ time < s.time.toNat) → l.nat 0 1 = ty ∨ l.listed = false →
          l.formed = false ∨ (s.vf vf).ctx = none →
          Completes (if ty = 1 then .run vf n else if ty = 2 then .append vf n else .endRun vf n) s fun t =>
            LineDone t vf n (if (s.vf vf).ctx = none then 2 else 1) 0 ∧ t.ctxs = s.ctxs)
  ∧ ∀ (c : Nat) (r : Run) (s : State), s.run? c r.grid = some r → s.runOver c r = true →
      (r.store = none → Completes (.runEnd c r.grid.toNat) s fun t => ∀ e ∈ s.runLines r, (t.l1 e.1 e.2).dirty = 0)
      ∧ (r.store = none → s.runLines r = [] → s.runReleased c r = true →
          (r.doneaddr = 0 → Completes (.runEnd c r.grid.toNat) s fun t => (t.run? c r.grid).map (fun y => y.store) = some (some 0))
          ∧ (∀ (s1 : State) (e : Nat), r.doneaddr.toNat % 64 ≤ 56 → r.doneaddr ≠ 0 →
              s.globalCheck r.home (s.ctx c).part r.doneaddr .store = (s1, .error e) → c < 4096 → Completes (.runEnd c r.grid.toNat) s fun t =>
                (t.run? c r.grid).map (fun y => y.store) = some (some 0) ∧ Raised (t.ctx c) 4
                  ∧ (t.ctx c).counts[3] = BitVec.ofNat 32 (min (2 ^ 32 - 1) ((s.ctx c).counts[3].toNat + 1)))
          ∧ ∀ (s1 : State) (x : Xlate), r.doneaddr.toNat % 64 ≤ 56 → r.doneaddr ≠ 0 →
              s.globalCheck r.home (s.ctx c).part r.doneaddr .store = (s1, .ok x) → Completes (.runEnd c r.grid.toNat) s fun t =>
                ∃ o y, t.ops = s.ops ++ [o] ∧ o.kind = .wback ∧ o.lanes = [y] ∧ y.pa = x.pa ∧ y.tgt = leafTgt x.leaf ∧ y.phase = .waiting
                  ∧ y.data = leBytes 8 r.doneval.toNat ∧ (t.run? c r.grid).map (fun y => y.store) = some (some o.id))
      ∧ (∀ n, r.store = some n → s.storeDone n = false → Completes (.runEnd c r.grid.toNat) s fun t => t = s)
      ∧ ∀ n, r.store = some n → s.storeDone n = true → (s.kern c r.kern).st = .active → Completes (.runEnd c r.grid.toNat) s fun t =>
          t.run? c r.grid = none ∧ (r.raise = true → (s.vf (s.ctx c).part).frozen = false → Output.msix (s.ctx c).part r.msiv ∈ t.out)

/-- A castling interval stops the teams on its rings; a stopped team's image holds its groups and window and leaves its slots
free; the images move with the slot tables at 128 bytes a FCLK and 2 FCLK a hop, and 16 FCLK after its last byte a team goes on
at its new site, or on a free bind set from the bytes of the save area, with its registers and window; a pin defers a stop for
64 µs (R126, R309, R317 to R320). The model's choices are the order of the images of several sites on one link (log 109) and that an image
whose way meets a link that is down is dropped, counted, and faults its context (R12, R359; log 107). -/
def Obligations.CastlingEvents : Prop :=
  ∀ s : State,
    (∀ (p : Nat) (ring : List Nat), (s.part p).st = .active → s.stage = .closing → (s.part p).plan.rings = [ring] → (∀ a ∈ ring, s.siteMoving p a = false) →
      let iv := (s.part p).plan.interval * 1800000
      let el := s.time.toNat - (s.part p).planFrom.toNat
      0 < iv → iv ≤ el → Completes (.castlingInterval p) s fun t =>
        (t.part p).planFrom = (s.part p).planFrom + BitVec.ofNat 64 (el / iv * iv)
          ∧ (t.part p).moving = (s.part p).moving ++ [{ pairs := ring.zip (ring.drop 1 ++ ring.take 1) }]
          ∧ ∀ tk, (tk, s.team tk) ∈ s.teams → (s.team tk).st = .resident → (s.team tk).image = none → (s.team tk).site ∈ ring →
              (s.ctx (s.team tk).ctx).st = .running → (t.team tk).st = .stopping ∧ (t.team tk).reason = .castling
                ∧ (t.team tk).pinEnd = some (s.time + 115200) ∧ ∀ k ∈ s.groupsOf tk, (t.grp k).stopReq = some .castling)
    ∧ (∀ tk r, (s.team tk).st = .stopping → (s.team tk).reason = .castling → (s.ctx (s.team tk).ctx).st = .running →
        (∀ k ∈ s.groupsOf tk, (s.grp k).st = .stopped ∧ s.opsOf k = [] ∧ s.mmasAll k = [] ∧ (s.grp k).pin = false ∧ s.faulted k = false
          ∧ (s.grp k).expired = false ∧ (s.grp k).holdReq = false ∧ (s.grp k).arrive = none) → (s.team tk).rel = some r → s.relDone r = true →
          Completes (.teamStop tk) s fun t => (t.team tk).st = .transit ∧ (t.team tk).slots = [] ∧ (t.ctx (s.team tk).ctx).st = .castling
            ∧ (∀ k ∈ s.groupsOf tk, t.grp k = { err := (s.grp k).err }) ∧ ∃ im, (t.team tk).image = some im ∧ im.reason = .castling ∧ im.site = (s.team tk).site
              ∧ im.groups.map (fun e => (e.1, e.2.1)) = (s.groupsOf tk).map (fun k => (coreOf k % 4, slotOf k))
              ∧ ∀ off, off < (s.team tk).wsize → smGet 0 im.window off = memGet s.spad ((s.team tk).spadAddr off))
    ∧ (∀ (p ring : Nat) (m : RingMove), (s.part p).moving[ring]? = some m → m.gone = false → s.moveReady m = true →
        (∀ x ∈ s.teams, x.2.st = .transit → x.2.landed = false → (∃ e ∈ m.pairs, e.1 = x.2.site) → s.moveCut m x.2.site = false) →
        Completes (.castlingMove p ring) s fun t =>
          (∀ tk e, (s.team tk).st = .transit → (s.team tk).landed = false → m.pairs.find? (fun x => x.1 = (s.team tk).site) = some e →
            (t.team tk).site = e.2 ∧ (t.team tk).landed = true ∧ (t.team tk).landAt = s.landTime m tk
            ∧ (∀ im, (s.team tk).image = some im → (s.team tk).site ≠ e.2 → (∀ x ∈ s.teams, x.2.st = .transit → x.2.landed = false →
                (∃ e ∈ m.pairs, e.1 = x.2.site) → x.1 = tk) → (s.teams.filter fun x => x.1 = tk).length = 1 →
                (t.team tk).landAt = s.time + BitVec.ofNat 64 ((im.bytes (s.team tk).wsize + 127) / 128 + 2 * Machine.dist (s.team tk).site e.2)))
          ∧ (smSorted s.groups = true → (m.pairs.map Prod.snd).Nodup → (∀ e ∈ m.pairs, ∃ e' ∈ m.pairs, e'.1 = e.2) →
              ∀ k e, m.pairs.find? (fun x => x.1 = siteOf k) = some e → t.grp (64 * e.2 + k % 64) = s.grp k))
    ∧ (∀ (p ring tk : Nat) (m : RingMove), (s.part p).moving[ring]? = some m → m.gone = false → s.moveReady m = true →
        smSorted s.teams = true → (∀ x ∈ s.teams, x.2.st = .transit → x.1 = tk) → (s.team tk).st = .transit → (s.team tk).landed = false →
        (∃ e ∈ m.pairs, e.1 = (s.team tk).site) → s.moveCut m (s.team tk).site = true → (s.ctx (s.team tk).ctx).st = .castling →
        (s.ctx (s.team tk).ctx).pending = false → (s.ctx (s.team tk).ctx).pendFault = false → Completes (.castlingMove p ring) s fun t =>
          (t.team tk).image = none ∧ (t.ctx (s.team tk).ctx).st = .faulted
            ∧ (t.part p).routedrop = (if (s.part p).routedrop = BitVec.allOnes 32 then (s.part p).routedrop else (s.part p).routedrop + 1))
    ∧ (∀ (tk : Nat) (im : Image), (s.team tk).image = some im → (s.team tk).st = .transit → (s.team tk).landed = true →
        (s.team tk).down = false →
          ((s.team tk).landAt.toNat ≤ s.time.toNat → Completes (.castlingResume tk) s fun t => (t.team tk).down = true
            ∧ (t.team tk).st = .transit ∧ SameMemory s t)
          ∧ (s.time.toNat < (s.team tk).landAt.toNat → Completes (.castlingResume tk) s fun t => t = s))
    ∧ (∀ (tk : Nat) (im : Image), (s.team tk).image = some im → (s.team tk).st = .transit → (s.team tk).landed = true →
        (s.team tk).down = true → (s.team tk).landAt.toNat + 16 ≤ s.time.toNat → s.site (s.team tk).site = .good →
        let ks := im.groups.map fun e => (64 * (s.team tk).site + 16 * e.1 + e.2.1, e.2.2)
        (∀ e ∈ ks, (s.grp e.1).st = .free) → s.roomFor im ks (s.team tk).site = true → (ks.map Prod.fst).Nodup → smSorted im.window = true →
        (s.ctx (s.team tk).ctx).st = .castling → (s.ctx (s.team tk).ctx).pending = false → (s.ctx (s.team tk).ctx).pendFault = false →
          Completes (.castlingResume tk) s fun t => (t.team tk).st = .resident ∧ (t.team tk).image = none ∧ (t.team tk).slots = ks.map Prod.fst
            ∧ (∀ e ∈ ks, SameBut [] (t.grp e.1) e.2 ∧ (t.grp e.1).moved = (e.2.moved || im.site != (s.team tk).site))
            ∧ ∀ off, off < (s.team tk).wsize → memGet t.spad ((s.team tk).spadAddr off) = smGet 0 im.window off)
    ∧ (∀ tk x, (s.team tk).pinEnd = some x → x.toNat ≤ s.time.toNat → (∃ k ∈ s.groupsOf tk, (s.grp k).pinned = true) →
        (s.team tk).ctx < 4096 → Completes (.pinLimit tk) s fun t => (∀ k ∈ s.groupsOf tk, (t.grp k).pin = false) ∧ (t.team tk).pinEnd = none
          ∧ (t.ctx (s.team tk).ctx).counts[5] = BitVec.ofNat 32 (min (2 ^ 32 - 1) ((s.ctx (s.team tk).ctx).counts[5].toNat + 1))
          ∧ Raised (t.ctx (s.team tk).ctx) 3)
    ∧ ∀ (c tk n base : Nat) (slots : List Nat) (im : Image) (ks : List (Nat × Group)), s.teamsOf c = [(tk, s.team tk)] →
        (s.team tk).st = .saved → (s.team tk).image = some im → (s.ctx c).st = .runnable →
        ((s.headerOk c im.slot).2 = true → s.freeSet c (s.team tk).kern (s.team tk).node none = some (n, slots, base) →
          s.mapSlots c (s.team tk).kern slots (im.groups.map fun e => e.2.2) = some ks → s.roomFor im ks (siteOf (slots.headD 0)) = true →
          (ks.map Prod.fst).Nodup → (s.ctx c).pending = false → (s.ctx c).pendFault = false → Completes (.teamRestore c im.slot) s fun t =>
            let w := (s.headerOk c im.slot).1.readSavedWindow c im.slot (s.team tk).wsize
            (t.team tk).st = .resident ∧ (t.team tk).image = none ∧ (t.team tk).site = siteOf (slots.headD 0) ∧ (t.team tk).wbase = base
              ∧ (t.ctx c).st = .running ∧ (∀ e ∈ (w.1.readGroups c im.slot ks).2, SameBut [] (t.grp e.1) e.2)
              ∧ ∀ off, off < (s.team tk).wsize → memGet t.spad ((t.team tk).spadAddr off) = smGet 0 w.2.1 off)
        ∧ ((s.headerOk c im.slot).2 = false → Completes (.teamRestore c im.slot) s fun t => (t.ctx c).st = .faulted)

/-- Contexts: Roith creates, describes, faults, pre-empts, resumes and kills them in the states that admit it; a budget that
runs out forces the stops; a killed context is scrubbed, its memory zeroed, and its number free; counters and events are read
and cleared, but not through a frozen function (R303 to R305, R313, R315, R317, R326 to R329, R352). The model's choices are that a new
context has the lowest free number (log 39) and that a kill acts at once in castling too (log 108). -/
def Obligations.ContextEvents : Prop :=
  ∀ (c : Nat) (s : State), s.booted = true → c < 4096 →
    let x := s.ctx c
    (∀ (p : Nat) (d : CtxDescr), (s.part p).st = .active → descOk d = true →
      (s.ctxs.countP fun e => e.2.st != .destroyed && e.2.part = p) < (s.part p).desc.maxctx →
      x.st = .destroyed → (∀ i < c, (s.ctx i).st ≠ .destroyed) → Admitted (.ctxCreate p d) s 0x20 none [p] c fun t =>
        (t.ctx c).st = .created ∧ (t.ctx c).part = p ∧ (t.ctx c).desc = { d with ctl := d.ctl &&& 0x00FFFFFF00F0FF03, toff := 0 })
    ∧ (∀ d : CtxDescr, descOk d = true → x.st ∉ [.destroyed, .killed, .scrubbing] → Admitted (.ctxDesc c d) s 0x21 none [c] 0 fun t =>
        (t.ctx c).desc = { d with ctl := d.ctl &&& 0x00FFFFFF00F0FF03 })
    ∧ (x.st ∉ [.destroyed, .killed, .scrubbing] → Admitted (.ctxKill c) s 0x22 none [c] 0 fun t =>
        (t.ctx c).st = .killed ∧ (t.ctx c).runs = [] ∧ ∀ n, (t.kern c n).st = .absent)
    ∧ (x.st = .running → (∃ e ∈ s.teamsOf c, e.2.st ≠ .saved) → Admitted (.ctxPreempt c) s 0x23 none [c] 0 fun t =>
        (t.ctx c).st = .preempting ∧ (t.ctx c).preempt = some (s.time + BitVec.ofNat 64 (bits x.desc.ctl 32 8 * 1800)))
    ∧ (x.st = .saved → x.pending = false → x.pendFault = false → (∃ e ∈ s.teamsOf c, e.2.st = .saved) → (∀ e ∈ s.teamsOf c, e.2.st = .saved) →
        Admitted (.ctxResume c) s 0x24 none [c] 0 fun t => (t.ctx c).st = .runnable)
    ∧ (x.st = .running → Admitted (.ctxFault c) s 0x25 none [c] 0 fun t => (t.ctx c).st = .faulted ∧ Raised (t.ctx c) 5)
    ∧ (x.st = .created → Declined (.ctxPreempt c) s 0x23 none [c] 2 ∧ Declined (.ctxResume c) s 0x24 none [c] 2 ∧ Declined (.ctxFault c) s 0x25 none [c] 2)
    ∧ (∀ b, x.preempt = some b → b.toNat ≤ s.time.toNat → x.st = .preempting → x.reason = .safePoint → Completes (.preemptBudgetExpiry c) s fun t =>
        ∀ tk, (tk, s.team tk) ∈ s.teamsOf c → (s.team tk).st = .resident → (s.team tk).image = none →
          (t.team tk).reason = .forced ∧ ∀ k ∈ s.groupsOf tk, (t.grp k).stopReq = some .forced)
    ∧ (x.st = .killed → (∀ e ∈ s.groups, e.2.st = .free ∨ e.2.ctx ≠ c) → (∀ e ∈ s.teamsOf c, e.2.image = none) → (∀ y ∈ s.copies, y.ctx ≠ c) →
        Completes (.contextKillComplete c) s fun t => (t.ctx c).st = .scrubbing ∧ Raised (t.ctx c) 7)
    ∧ (x.st = .scrubbing → Completes (.contextScrubComplete c) s fun t => t.ctx c = {} ∧ (∀ e ∈ t.teams, e.2.ctx ≠ c)
        ∧ (∀ f, f ∈ x.frames ∨ (∃ e ∈ x.kerns, f ∈ e.2.frames) → ∀ a, f * 65536 ≤ a → a < f * 65536 + 65536 → memGet t.mem a = 0)
        ∧ ∀ e ∈ s.sown, e.2 = c + 1 → ∀ a, 64 * e.1 ≤ a → a < 64 * e.1 + 64 → memGet t.spad a = 0)
    ∧ (∀ mask : Word,
        (x.st ≠ .destroyed → (s.vf x.part).frozen = false → Completes (.clear c mask) s fun t => (t.ctx c).events = x.events
          ∧ ∀ i : Fin 8, (t.ctx c).counts[i] = if mask.getLsbD i then 0 else x.counts[i])
        ∧ ((s.vf x.part).frozen = true → Completes (.clear c mask) s fun t => t = s))
    ∧ (x.st ≠ .destroyed → (s.vf x.part).frozen = true → Completes (.eventsRead c) s fun t =>
        t.out = s.out ++ [.data (List.replicate 8 255)] ∧ t.ctxs = s.ctxs)
    ∧ (x.st ≠ .destroyed → (s.vf x.part).frozen = false → Completes (.eventsRead c) s fun t => (t.ctx c).events = 0 ∧ (t.ctx c).counts = x.counts
        ∧ (t.ctx c).evNew = (if x.evTime = s.time then x.evNew else 0) ∧ (t.ctx c).evTime = s.time
        ∧ t.out = s.out ++ [.data (leBytes 8 (if x.evTime = s.time then x.events else x.events ||| x.evNew).toNat)])

/-! ### Kernels and the tables of a partition -/

/-- Kernels and tables: an image that passes every check is loaded under the lowest free number with its plan and its digest, a
kernel without an open run is unloaded, one with an open run retires; and each command that installs a plan, routes, a castling
plan, a replica set, a peer, a key or repaired tables, or that drops translations, releases pins or retires a page, has its
effect (R191, R202, R203, R214, R289, R293, R297, R318, R333, R334, R346, R347, R376). -/
def Obligations.KernelAndTableCommands : Prop :=
  ∀ s : State, s.booted = true →
    (∀ (c kn : Nat) (bytes : List Byte) (sizes : List (Nat × Nat)) (pl : Plan) (im : Image1) (s1 : State),
      (s.ctx c).st ∈ [CtxState.created, .loaded, .runnable, .running, .castling] → kn < 256 → (s.kern c kn).st = .absent →
      (∀ i < kn, (s.kern c i).st ≠ .absent) → readImage bytes = some im → im.kern.nodes.length = sizes.length →
      (∀ z ∈ sizes, z.1 ≠ 0 ∧ z.1 + z.2 < 2 ^ 24) →
      (∀ r ∈ im.routes, s.routeOk (s.ctx c).part r = true ∧ s.routeFits (s.ctx c).part r = true) →
      s.planOk c kn im.kern pl = true → s.saveFits c kn im.kern pl = true → s.mapKernel c kn im sizes pl = some s1 →
        Admitted (.kernLoad c bytes sizes pl) s 0x26 none [c] kn fun t => (t.kern c kn).st = .loaded ∧ (t.kern c kn).plan = pl
          ∧ (t.kern c kn).nodes = im.kern.nodes ∧ (t.kern c kn).textLen = im.kern.textLen ∧ (t.kern c kn).digest = sha256 im.whole
          ∧ (t.ctx c).log = (s.ctx c).log ++ [sha256 im.whole] ∧ ((s.ctx c).st = .created → (t.ctx c).st = .loaded))
    ∧ (∀ c kn : Nat,
        ((s.kern c kn).st = .loaded → (∀ r ∈ (s.ctx c).runs, r.kern ≠ kn) → Admitted (.kernUnload c kn) s 0x27 none [c, kn] 0 fun t => t.kern c kn = {})
        ∧ ((s.kern c kn).st = .active → (∃ r ∈ (s.ctx c).runs, r.kern = kn) → Admitted (.kernUnload c kn) s 0x27 none [c, kn] 0 fun t =>
            t.kern c kn = { s.kern c kn with st := .retiring } ∧ (t.ctx c).runs = (s.ctx c).runs))
    ∧ (∀ (c kn : Nat) (pl : Plan), (s.kern c kn).st = .loaded ∨ (s.kern c kn).st = .active → s.planOk c kn (s.kern c kn) pl = true →
        s.saveFits c kn (s.kern c kn) pl = true → Admitted (.planSet c kn pl) s 0x28 none [c, kn] 0 fun t =>
          t.kern c kn = { s.kern c kn with plan := pl } ∧ t.groups = s.groups)
    ∧ ∀ p : Nat,
      let x := s.part p
      let installs (t : State) (rs : List Route) : Prop := (∀ r ∈ rs, smGet none (t.part p).routes r.num = some r)
        ∧ ∀ n, n ∉ rs.map (fun r => r.num) → smGet none (t.part p).routes n = smGet none x.routes n
      (s.tablesOpen p = true →
        (∀ rs : List Route, (∀ r ∈ rs, s.routeOk p r = true) → (rs.map fun r => r.num).Nodup →
          Admitted (.routesSet p rs) s 12 none [p] 0 fun t => installs t rs)
        ∧ (∀ pl : CastlePlan, s.castleOk p pl = true → Admitted (.castleSet p pl) s 13 none [p] 0 fun t =>
            (t.part p).plan = pl ∧ (t.part p).planFrom = s.time)
        ∧ (∀ (i : Nat) (chans : List Nat), i < 8192 → chans.length ≤ 8 → distinct chans = true → (∀ c ∈ chans, c ∈ x.chans) →
            (∀ c, chans.head? = some c → s.hasL2 c = true) → Admitted (.replicaSet p i chans) s 15 none [p, i] 0 fun t =>
              t.repChans p i = chans ∧ ∀ r, r < 8 → smGet [] t.repLog (repKey p i r) = [])
        ∧ (∀ a n : Nat, 0 < n →
            let ls := (s.linesOf p ((a + n - 1) / 256 - a / 256 + 1) (a / 256 * 256)).filter fun l => (smGet {} s.l2 l).pin = some p
            Admitted (.pinRelease p a n) s 16 none [p, a, n] ls.eraseDups.length fun t => (∀ l ∈ ls, (smGet {} t.l2 l).pin = none)
              ∧ ∀ l, l ∉ ls → smGet {} t.l2 l = smGet {} s.l2 l)
        ∧ (∀ (e : Nat) (r : PeerRec), e < 256 → peerFits r = true → Admitted (.peerSet p e r) s 18 none [p, e] 0 fun t =>
            smGet {} (t.part p).peers e = r ∧ ∀ j, j ≠ e → smGet {} (t.part p).peers j = smGet {} x.peers j)
        ∧ (∀ (q port : Nat) (key : Word), q < 128 → port < 144 → Admitted (.keySet p q port key) s 19 none [p, q, port] 0 fun t =>
            smGet none (t.part p).keys (256 * q + port) = some key
              ∧ ∀ i ∈ (t.part p).closedStreams, i ∈ x.closedStreams ∧ ¬(i.1 % 128 = q ∧ (i.2 = port ∨ ∃ e ∈ x.peers, e.2.valid = true
                  ∧ streamKey e.2.module e.2.rpart = i.1 ∧ (e.2.port = port ∨ (e.2.altv = true ∧ e.2.altport = port)))))
        ∧ (∀ f g : Nat, f ≠ g → smGet 0 s.owner f = p + 1 → (∀ e ∈ s.l2, e.1 / 256 = f → e.2.pin = none) → f ∉ rootFrames x.root →
            (∀ l ∈ s.leaves p, l.2 = 65536 ∧ leafRep l.1 = none) → g / 65536 ∈ x.chans → g % 65536 < s.chanFrames (g / 65536) →
            g ∉ s.retired → smGet 0 s.owner g = 0 → Memory.wf s.mem = true → (∀ e ∈ s.entries p, e.1 / 65536 ≠ f ∧ e.1 / 65536 ≠ g) →
              Admitted (.pageRetire p f g) s 17 none [p, f] 0 fun t => f ∈ t.retired ∧ smGet 0 t.owner f = 0 ∧ smGet 0 t.owner g = p + 1
                ∧ ∀ o, o < 65536 → memGet t.mem (g * 65536 + o) = memGet s.mem (f * 65536 + o)))
      ∧ (x.st ≠ .free → ∀ a n : Nat, Admitted (.ptInval p a n) s 14 none [p, a, n] 0 fun t => ∀ site,
          (t.tile site).tlb = (s.tile site).tlb.filter fun e => !e.hits p a n)
      ∧ ∀ (tb : List RouterEntry) (rs : List Route) (pl : CastlePlan), s.tableOk x.sites tb = true →
          (∀ r ∈ rs, (s.setTable p tb).routeOk p r = true) → (s.setTable p tb).castleOk p pl = true → (rs.map fun r => r.num).Nodup →
            Completes (.routeRepair p tb rs pl) s fun t => (t.part p).table = tb ∧ (t.part p).plan = pl ∧ installs t rs

/-! ### Etsel packets -/

/-- Packets that the module takes from its peers. A read, a write and an atomic are performed in device memory and answered
where nothing waits before them on their virtual lane and the peer takes responses; the packets of a message wait in the receive
buffer until the last one has come, and the whole message, once it holds its entry of the range scoreboard, lands in its
receiver's window, wakes it and is acknowledged; responses end the request that they answer, an error ends it as an error, and a
management packet changes nothing; a packet for another module is dropped and counted (R201, R215, R236, R254, R255, R340, R344 to R348).
The stream identifier in the IV of a packet is a free value (log 113), and the CODE of an acknowledgement stands in its header (log 31). -/
def Obligations.EtselEvents : Prop :=
  (∀ (p : Etsel) (s : State), p.port < 144 → s.portUp p.port = true → p.hdr.dmod ≠ s.flash.module → ∀ i ∈ [Instr.etselRead p, .etselWrite p,
    .etselAtomic p, .etselReadData p, .etselWriteAcknowledgement p, .etselXsend p, .etselError p, .etselXsendAcknowledgement p, .etselManagement p],
      Completes i s fun t => (t.port p.port).drops = (s.port p.port).drops + 1 ∧ SameMemory s t ∧ t.ops = s.ops ∧ t.copies = s.copies)
  ∧ ∀ (p : Etsel) (s : State), Takes s p →
    let d := p.hdr.dpart
    let head (n : Nat) : EtselHdr :=
      { dmod := p.hdr.smod, smod := s.flash.module, dpart := p.hdr.spart, spart := d, vl := 1, tag := p.hdr.tag, bytes := n - 1 }
    let packet (op n : Nat) (bs : List Byte) (ps : List Bool) : Output :=
      .packet p.port op { head n with ndata := (bs.length + 31) / 32 } bs ps p.ctx p.grid (s.nextIv d p.hdr.smod p.hdr.spart)
    let answers (t : State) (op n : Nat) (bs : List Byte) : Prop := ∃ ps, t.out.getLast? = some (packet op n bs ps)
    let served : Prop := 1 ∉ (s.port p.port).xoff ∧ ∀ x ∈ (s.port p.port).rbuf, x.pkt.hdr.vl ≠ p.hdr.vl
    let reaches (a : Acc1) (n : Nat) (x : Xlate) : Prop := served ∧ (s.part d).st ≠ .free
      ∧ (∃ s1, s.globalCheck (etselSite p.port) d p.hdr.addr a = (s1, .ok x)) ∧ leafTgt x.leaf = 0 ∧ leafRep x.leaf = none
      ∧ leafMig x.leaf = false ∧ s.owns d x.pa = true ∧ x.pa % 64 + n ≤ 64 ∧ s.peerCut p x.pa false = false ∧ s.peerCut p x.pa true = false
    (∀ x, reaches .load (p.hdr.bytes + 1) x → Completes (.etselRead p) s fun t =>
        answers t 3 (p.hdr.bytes + 1) (memRead s.mem x.pa (p.hdr.bytes + 1)) ∧ t.mem = s.mem)
    ∧ (∀ x, reaches .store (p.hdr.bytes + 1) x → p.hdr.bytes < p.data.length → Completes (.etselWrite p) s fun t =>
        answers t 4 1 [] ∧ Stored s.mem t.mem x.pa (p.data.take (p.hdr.bytes + 1)))
    ∧ (∀ x,
        let op := bits p.hdr.actl 0 4
        let ty := bits p.hdr.actl 4 3
        let n := atomSize ty
        reaches .atom n x → op ≤ 9 → ty ≤ 2 → x.pa % n = 0 → Completes (.etselAtomic p) s fun t =>
          answers t 3 n (memRead s.mem x.pa n) ∧ Stored s.mem t.mem x.pa (leBytes n
            (atomValue op ty (memLoad s.mem x.pa n) (leNat (p.data.take n)) (leNat ((p.data.drop n).take n)))))
    ∧ (∀ (o : Op) (x : LaneOp), s.asked p.hdr = some (o, x) → s.op? o.id = some o → o.lane? x.lane = some x →
        let back : Prop := s.cut o.part (etselSite x.port) (o.core / 4) = false
        (o.kind.store = false → x.l1 = false → back → Completes (.etselReadData p) s fun t =>
          LaneAt t o.id x.lane .performed ((if p.data.length = 64 then p.data.drop (x.ea.toNat % 64) else p.data).take o.size)
            ∧ SameMemory s t)
        ∧ (o.kind.store = false → o.kind.load = true → x.l1 = true → back → Completes (.etselReadData p) s fun t =>
            (t.l1 o.core (l1Key o.part x.ea.toNat)).valid = BitVec.allOnes 64 ∧ LaneAt t o.id x.lane .waiting x.val)
        ∧ (o.kind.load = false → back → Completes (.etselWriteAcknowledgement p) s fun t =>
            LaneAt t o.id x.lane .performed [] ∧ SameMemory s t)
        ∧ (o.k < 2 ^ 40 → o.kind ≠ .wback → o.ctx < 4096 → back → Completes (.etselError p) s fun t =>
            LaneAt t o.id x.lane .performed (List.replicate (max 8 o.size) 0)
            ∧ (t.ctx o.ctx).counts[3] = BitVec.ofNat 32 (min (2 ^ 32 - 1) ((s.ctx o.ctx).counts[3].toNat + 1)) ∧ SameMemory s t)
        ∧ (¬back → Completes (.etselError p) s fun t => LaneAt t o.id x.lane .lost x.val ∧ SameMemory s t))
    ∧ (∀ c : Copy, s.messaged p.hdr = some c → Completes (.etselXsendAcknowledgement p) s fun t =>
        (∀ y ∈ t.copies, y.id ≠ c.id) ∧ ((s.team c.team).image = none → SameMemory s t))
    ∧ Completes (.etselXsend p) s (fun t =>
        (t.port p.port).rbuf = (s.port p.port).rbuf ++ [{ id := s.nextId, op := 5, pkt := p }] ∧ SameMemory s t ∧ t.wakes = s.wakes)
    ∧ (let tk := teamKey p.ctx (BitVec.ofNat 32 p.grid) (p.hdr.addr.truncate 32)
       let size := 8 * 2 ^ bits p.hdr.actl 4 2
       let off := bits p.hdr.addr 32 23
       let ls := laneList p.hdr.mask
       let bs : List WByte := (ls.zip (List.range ls.length)).flatMap fun x => wbytes (off + x.1 * size) ((p.data.drop (x.2 * size)).take size) []
       let range := (s.tile (s.team tk).site).range
       ∀ z : Inbound, (s.port p.port).rbuf = [z] → z.op = 5 → z.pkt = p → p.hdr.last = true → 1 ∉ (s.port p.port).xoff →
         (s.team tk).present = true → (s.ctx (s.team tk).ctx).part = d → (s.team tk).st ≠ .transit → (s.team tk).image = none →
         p.hdr.addr.getLsbD 55 = false → (∀ b ∈ bs, b.1 < (s.team tk).wsize) →
         (∃ e ∈ range, e.share = true ∧ e.copy = some z.id ∧ e.team = tk) → (∀ e ∈ range, e.mma = none) →
         s.cutBoth d (etselSite p.port) (s.team tk).site = false →
           let t := s.drainLane p.port p.hdr.vl
           t.spad = bs.foldl (fun m b => memSet m ((s.team tk).spadAddr b.1) b.2.1) s.spad ∧ t.mem = s.mem ∧ t.bank = s.bank
             ∧ t.wakes = s.wakes ++ [tk] ∧ (t.port p.port).rbuf = [] ∧ packet 7 1 [] [] ∈ t.out)
    ∧ Completes (.etselManagement p) s fun t => t = s

/-! ### The mesh and the ports -/

/-- A flit that its tag permits is delivered or goes on a hop by its route, one flit a FCLK on a link, the ready channels in
turn and the flits of one way in their order; one that has to wait stays, and one that meets no permission or a down link is
dropped and counted. A good site that fails is mapped out or a hole, the nearest spare of its field takes its place, and its
partition loses it (R11, R13, R15, R330, R331, R333, R337, R343, R359; the choice of a spare in the site's own field alone, log 83, the
groups of a failed site becoming free, log 30, and the channel after which the round-robin of an output begins, log 6, are the model's). The
states of a port: each event and each bit of its control word has the effect of the table of states, and a training comes to what the port
can run or to down (R343 to R345, R349, R352 to R354). -/
def Obligations.MeshAndPortEvents : Prop :=
  (
    ∀ s : State,
      (∀ x : Flit, x.tag < 128 →
        let links := smGet [] (s.router x.site).links x.tag
        let same (y : Flit) : Bool := { y with stall := x.stall } = x
        let rest := s.flits.filter fun y => !same y
        let here := if s.flits.any same then s.flits.map fun y => if same y then x else y else s.flits ++ [x]
        let gone (t : State) : Prop := t.flits = rest
        let counted (n m : BitVec 32) : Prop := m = if n = BitVec.allOnes 32 then n else n + 1
        (4 ≤ x.inLink ∨ x.inLink ∈ links →
          ((s.flitLink x).1 = none → Completes (.flitArrival x) s fun t => gone t ∧ t.ops = s.ops ∧ t.parts = s.parts)
          ∧ ∀ l path, s.flitLink x = (some l, path) →
              let turn (c : Nat) : Nat := (c + 4 - (smGet 3 (s.router x.site).rr l + 1) % 4) % 4
              let goes : Prop := x.stall = false ∧ smGet 0 (s.router x.site).sent l ≠ s.time.toNat + 1
                ∧ (here.find? fun z => sameWay z x) = some x
                ∧ ∀ z ∈ here, s.flitReady x.site l z = true → z.chan < 4 → turn x.chan ≤ turn z.chan
              (l ∈ links → l ∉ (s.router x.site).down → x.chan < 4 → goes → Completes (.flitArrival x) s fun t =>
                t.flits = rest ++ [{ x with site := stepLink x.site l, inLink := (l + 2) % 4, path }]
                  ∧ smGet 3 (t.router x.site).rr l = x.chan ∧ t.ops = s.ops ∧ t.parts = s.parts)
              ∧ (l ∈ links → l ∉ (s.router x.site).down → ¬goes → Completes (.flitArrival x) s fun t => t = { s with flits := here })
              ∧ (l ∈ links → l ∈ (s.router x.site).down → Completes (.flitArrival x) s fun t =>
                  gone t ∧ counted (s.part x.tag).routedrop (t.part x.tag).routedrop)
              ∧ (l ∉ links → Completes (.flitArrival x) s fun t => gone t ∧ counted (s.part x.tag).tagdrop (t.part x.tag).tagdrop
                  ∧ (t.router x.site).log = ((x.tag, x.src, x.chan) :: (s.router x.site).log).take 16))
        ∧ (x.inLink < 4 → x.inLink ∉ links → Completes (.flitArrival x) s fun t =>
            gone t ∧ counted (s.part x.tag).tagdrop (t.part x.tag).tagdrop))
      ∧ ∀ (site : Nat) (ok : Bool), s.booted = true → site < 4608 → s.site site = .good → Completes (.siteFailure site ok) s fun t =>
          t.site site = (if ok then .mappedOut else .hole)
            ∧ (∀ y, s.spareFor site = some y → t.site y = .good ∧ y ∈ fieldSites (fieldOf site) ∧ s.site y = .spare
                ∧ ∀ z ∈ fieldSites (fieldOf site), s.site z = .spare → Machine.dist y site < Machine.dist z site ∨ (Machine.dist y site = Machine.dist z site ∧ y ≤ z))
            ∧ (∀ p, s.parts.find? (fun e => e.2.sites.contains site || e.2.grow.any fun g => g.sites.contains site) = some (p, s.part p) →
                (t.part p).sites = (s.part p).sites.filter (fun z => z != site) ∧ ∀ k, siteOf k = site → (t.grp k).st = .free)
            ∧ (ok = false → ∀ e ∈ neighbours site, e.2 ∈ (t.router e.1).down))
  ∧ (
    ∀ (n : Nat) (s : State),
      let p := s.port n
      let up : Prop := p.st = .up ∨ p.st = .degraded
      let becomes (i : Instr) (q : Port) : Prop := Completes i s fun t => t.port n = q ∧ (∀ m, m ≠ n → t.port m = s.port m) ∧ SameMemory s t
      let down (q : Port) : Port := { q with st := .down, retrain := false, width := 0, xoff := [], fails := [] }
      (up ∨ p.st = .training ∨ p.st = .frozen → becomes (.lossOfSignal n) (down p))
      ∧ (up → n < 144 → 1 < p.width → becomes (.laneFailure n) { p with st := .degraded, width := p.width - 1 })
      ∧ (up → n < 144 → p.width ≤ 1 → becomes (.laneFailure n) (down p))
      ∧ (up → 144 ≤ n → 8 < p.width → becomes (.laneFailure n) { p with st := .degraded, width := 8 })
      ∧ (∀ (w trip speed : Nat) (full cxl : Bool),
          let runs : Prop := if n < 144 then (w = 1 ∨ w = 2) ∧ trip ≤ 2048
            else (w = 8 ∨ w = 16) ∧ (speed = 64 ∨ (cxl = false ∧ (speed = 32 ∨ speed = 128)))
          let good : Prop := runs ∧ s.portServed n = true ∧ s.time.toNat < p.since.toNat + 180000000
          let top : Prop := full = true ∧ (n < 144 → w = 2) ∧ (144 ≤ n → w = 16 ∧ (cxl = true ∨ speed = 128))
          let i := Instr.trainingComplete n w full { trip, cxl, speed }
          (p.st = .training → good → top → becomes i { p with st := .up, width := w, trip, cxl, speed })
          ∧ (p.st = .training → good → ¬top → becomes i { p with st := .degraded, width := w, trip, cxl, speed })
          ∧ (p.st = .training → ¬good → becomes i (down p))
          ∧ (p.st = .degraded → p.retrain = true → top → runs → becomes i { p with st := .up, width := w, trip, cxl, speed, retrain := false })
          ∧ (p.st = .degraded → p.retrain = true → ¬(top ∧ runs) → becomes i { p with retrain := false }))
      ∧ (p.st = .training → p.since.toNat + 180000000 ≤ s.time.toNat → becomes (.trainingTimeout n) (down p))
      ∧ (up ∨ p.st = .frozen → Completes (.portIsolate n) s fun t => t.port n = { p with st := .isolated, retrain := false }
          ∧ ∀ (o : Op) (x : LaneOp), s.ops = [o] → o.lanes = [x] → x.phase = .sent → x.tgt = 1 → (s.part o.part).port = n →
              LaneAt t o.id x.lane .performed (List.replicate (max 8 o.size) 0))
      ∧ (up → becomes (.portFreeze n) { p with st := .frozen, before := p.st, retrain := false })
      ∧ becomes (.en n true) { p with en := true } ∧ becomes (.en n false) { down p with en := false }
      ∧ (s.portServed n = true → (p.st = .down → p.en = true → becomes (.retrain n) { p with st := .training, since := s.time })
        ∧ (p.st = .down → p.en = false → becomes (.retrain n) p)
        ∧ (p.st = .isolated → becomes (.retrain n) { p with st := .training, since := s.time })
        ∧ (p.st = .degraded → becomes (.retrain n) { p with retrain := true, since := s.time }))
      ∧ (s.portServed n = false → becomes (.retrain n) p)
      ∧ (p.st = .frozen → becomes (.unfreeze n) { p with st := p.before, fails := [] })
      ∧ (s.booted = true → n < 152 → ∀ v : Word,
          (v.getLsbD 0 = true → v.getLsbD 1 = false → v.getLsbD 2 = false → Admitted (.portCtl n v) s 0x30 none [n, v.toNat] 0 fun t =>
            (t.port n).en = true ∧ (t.port n).cto = v.extractLsb' 16 16 ∧ (t.port n).st = p.st)
          ∧ (v.getLsbD 0 = true → v.getLsbD 1 = true → p.st = .down → s.portServed n = true → Admitted (.portCtl n v) s 0x30 none [n, v.toNat] 0 fun t => (t.port n).st = .training)
          ∧ (v.getLsbD 0 = false → v.getLsbD 1 = false → Admitted (.portCtl n v) s 0x30 none [n, v.toNat] 0 fun t => (t.port n).en = false ∧ (t.port n).st = .down))
      ∧ (up → ∀ vl, vl < 4 → vl ∉ p.xoff → becomes (.xoff n vl) { p with xoff := vl :: p.xoff })
      ∧ (up → ∀ vl, becomes (.xon n vl) { p with xoff := p.xoff.filter fun x => x != vl })
      ∧ (up → n < 144 → becomes (.flitCrcFailure n) { p with replay := p.replay + 1 })
      ∧ ∀ vf : Nat,
          Completes (.functionLevelReset vf) s (fun t => t.vf vf = { s.vf vf with frozen := false } ∧ SameMemory s t)
          ∧ (144 ≤ n → s.hostLate n vf = true → up ∨ p.st = .frozen → ∀ c, (s.vf vf).ctx = some c → (s.ctx c).st = .running →
              Completes (.hostCompletionTimeout n vf) s fun t =>
                (t.port n).st = .isolated ∧ (t.vf vf).frozen = true ∧ (t.ctx c).st = .faulted))

/-! ### Partitions -/

/-- A partition is carved from free units, grows, shrinks, is compacted, and has its quotas changed when its checks pass; it
quiesces, is exported and imported by a stream of deciphered page records and saved state, ends an export, is aborted and
destroyed, and what leaves it is zeroed and free again (R355 to R369). The model's choices are the records of an import and their order
(log 50), that frames are given in order (log 55), how a compaction moves frames and renames routes (log 57), the byte order of a crypt line
(log 94), and that a growth takes one FCLK (log 23). -/
def Obligations.PartitionEvents : Prop :=
  ∀ (p : Nat) (s : State), s.booted = true →
    let x := s.part p
    let first : Prop := p < 128 ∧ x.st = .free ∧ ∀ q < p, (s.part q).st ≠ .free
    let holds (t : State) (st : PartState) (sites chans : List Nat) (table : List RouterEntry) : Prop :=
      (t.part p).st = st ∧ (t.part p).sites = sites ∧ (t.part p).chans = chans ∧ (t.part p).table = table
    let wiped (t : State) (sites frames : List Nat) : Prop :=
      (∀ f ∈ frames, smGet 0 t.owner f = 0 ∧ ∀ a, f * 65536 ≤ a → a < f * 65536 + 65536 → memGet t.mem a = 0)
        ∧ ∀ n ∈ sites, (∀ a, 2 ^ 23 * n ≤ a → a < 2 ^ 23 * n + 2 ^ 23 → memGet t.spad a = 0) ∧ ∀ k, siteOf k = n → (t.grp k).st = .free
    (∀ (sites chans : List Nat) (d : PartDesc) (tb : List RouterEntry),
      let fs := (s.poolFrames chans).take d.hbmq
      (first → s.carveCode p sites chans d tb = 0 →
        (∀ port root : Nat, 144 ≤ port → port ≤ 151 → (∀ f ∈ rootFrames root, f ∈ fs) →
          Admitted (.partCarve sites chans d tb port root) s 1 none [] p fun t => holds t .active sites chans tb ∧ (t.part p).desc = d
            ∧ (t.part p).root = root ∧ (t.vf p).port = port ∧ ∀ f ∈ fs, smGet 0 t.owner f = p + 1)
        ∧ ∀ src : StreamHead, src.table = tb → s.cmdTurn 8 none [src.buffer] = true → s.bufferLost 8 = false →
            Completes (.partImport sites chans d src) s fun t => holds t .migratingIn sites chans tb ∧ (t.part p).desc = d
              ∧ ∀ f ∈ fs, smGet 0 t.owner f = p + 1)
      ∧ (∀ force : Bool, x.st = .active → s.tdispBars p force = false →
          (∀ g : GrowTables, s.cmdTurn 2 (some force) [p] = true → s.bufferLost 2 = false →
            distinct (x.sites ++ sites) = true → distinct (x.chans ++ chans) = true → (∀ z ∈ sites, s.siteFree z = true) →
            (∀ c ∈ chans, s.chanFree p c x.desc.prot = true) → s.tableOk (x.sites ++ sites) g.routes = true →
            g.hash ≠ [] → (∀ e ∈ g.hash, e.1 ∈ x.sites ++ sites ∧ e.2 < 32) →
            s.sharesOk p chans (shareOf x.desc) = true → Completes (.partGrow p sites chans g force) s fun t =>
              holds t .growing x.sites x.chans x.table
                ∧ (t.part p).grow = some { sites := x.sites ++ sites, chans := x.chans ++ chans, tables := g, since := s.time })
          ∧ (let rest := x.sites.filter fun z => !sites.contains z
             let kept := x.table.filter fun e => rest.contains e.site || s.site e.site = .spare || s.site e.site = .mappedOut
             (∀ z ∈ sites, z ∈ x.sites) → (∀ c ∈ chans, c ∈ x.chans) → rest ≠ [] →
             (∀ e ∈ s.groups, siteOf e.1 ∈ sites → e.2.st = .free) →
             (∀ e ∈ s.ctxs, e.2.part = p → ∀ k ∈ e.2.kerns,
               (∀ b ∈ k.2.plan.sets, ∀ z ∈ b.slots, z.site ∉ sites) ∧ ∀ z ∈ k.2.plan.spawns, z.site ∉ sites) →
             (∀ f ∈ s.ownFrames p, f / 65536 ∈ chans → s.frameUsed p f = false) → x.moving = [] → s.tableOk rest kept = true →
             x.desc.bmunits ≤ bankUnits rest → Admitted (.partShrink p sites chans force) s 3 (some force) [p] 0 fun t =>
               holds t .shrinking rest (x.chans.filter fun c => !chans.contains c) kept
                 ∧ (t.part p).leaving = x.leaving ++ sites ∧ (t.part p).leavingCh = chans)
          ∧ (s.sharesOk p x.chans (shareOf d) = true → descFits d = true → d.bmunits ≤ bankUnits x.sites → s.bankUsed p ≤ d.bmunits →
              (∃ s1, s.requota p d.hbmq = some s1) → Admitted (.partQuota p d force) s 5 (some force) [p] 0 fun t =>
                (t.part p).desc = { d with prot := x.desc.prot } ∧ (t.part p).sites = x.sites)
          ∧ ∀ (dest : StreamDest) (threshold : Nat), s.cmdTurn 7 (some force) [p, dest.module, dest.buffer, threshold] = true →
              Completes (.partExport p dest threshold force) s fun t => (t.part p).st = .precopying
                ∧ (t.part p).threshold = threshold ∧ (t.part p).rounds = 0 ∧ (t.part p).sites = x.sites
                ∧ (t.part p).xframes = s.ownFrames p ∧ (t.part p).resend = [] ∧ .stream dest (.header x.desc x.table) ∈ t.out))
    ∧ (∀ g : Growth, x.grow = some g → g.since.toNat < s.time.toNat →
        let t := s.growDone p
        holds t .active g.sites g.chans g.tables.routes ∧ (t.part p).hash = g.tables.hash ∧ (t.part p).planFrom = s.time
          ∧ (x.exporting = true → t.out.getLast? = some (.status 2 0 0)))
    ∧ (∀ (map : List (Nat × Nat)) (tb : List RouterEntry) (pl : CastlePlan) (force : Bool),
        let m := map.filter fun e => e.1 != e.2
        let new := x.sites.map (siteMoved m)
        let cm := (m.map fun e => (s.chanOf e.1, s.chanOf e.2)).filter fun e => x.chans.contains e.1
        let fs := (s.ownFrames p).filter fun f => cm.any fun e => e.1 = f / 65536
        let to_ (f : Nat) : Nat := siteMoved cm (f / 65536) * 65536 + f % 65536
        x.st = .active → x.moving = [] → s.tdispBars p force = false → (∀ e ∈ map, e.1 ∈ x.sites) → distinct (map.map Prod.fst) = true →
        distinct new = true → (∀ e ∈ m, e.2 ∈ x.sites ∨ s.siteFree e.2 = true) → ({ x with sites := new } : Part).origin = x.origin →
        s.tableOk new tb = true → (s.modPart p fun y => { y with sites := new }).castleOk p pl = true →
        (∀ e ∈ x.routes, ∀ r, e.2 = some r →
          ((s.setTable p tb).modPart p fun y => { y with sites := new }).routeOk p (routeMoved r x.origin m) = true) →
        (∀ e ∈ cm, s.chanFree p e.2 x.desc.prot = true) → (∀ e ∈ s.l2, e.1 / 256 ∈ fs → e.2.pin = none) →
        (∀ f ∈ fs, to_ f ∈ fs ∨ (smGet 0 s.owner (to_ f) = 0 ∧ to_ f ∉ s.retired ∧ to_ f % 65536 < s.chanFrames (to_ f / 65536))) →
        s.sharesOk p (cm.map Prod.snd) (shareOf x.desc) = true → Admitted (.partCompact p map tb pl force) s 4 (some force) [p] 0 fun t =>
          (∀ f ∈ fs, smGet 0 t.owner (to_ f) = p + 1)
            ∧ (t.part p).chans = x.chans ++ (cm.map Prod.snd).filter (fun c => !x.chans.contains c)
            ∧ (m = [] → (t.part p).st = .active ∧ (t.part p).table = tb ∧ (t.part p).plan = pl)
            ∧ (m ≠ [] → (t.part p).st = .compacting ∧ (t.part p).moving = [{ pairs := m }] ∧ (t.part p).cframes = fs.map fun f => (f, to_ f)))
    ∧ (x.st = .compacting → x.moving = [] →
        let t := s.endCompact p
        (t.part p).st = .active ∧ (t.part p).sites = x.sites.map (siteMoved x.cmap) ∧ (t.part p).table = x.ctable ∧ (t.part p).plan = x.cplan
          ∧ (t.part p).planFrom = s.time ∧ (t.part p).routes = x.routes.map (fun e => (e.1, e.2.map fun r => routeMoved r x.origin x.cmap))
          ∧ ∀ e ∈ x.cframes, smGet 0 t.owner e.2 = p + 1 ∧ ((∀ y ∈ x.cframes, y.2 ≠ e.1) → smGet 0 t.owner e.1 = 0))
    ∧ (let quiet (t : State) : Prop := (t.part p).st = .quiescing ∧ ∀ c kn, (s.ctx c).part = p → (s.ctx c).st ≠ .destroyed →
         ∀ q ∈ (t.kern c kn).queues, q.closed = true
       (x.st = .active → Admitted (.partQuiesce p) s 6 none [p] 0 quiet)
       ∧ (x.st = .precopying →
           ∀ order : List Nat,
           (x.resend.length < x.threshold ∨ 31 ≤ x.rounds → Completes (.precopyRound p order) s fun t =>
               quiet t ∧ (t.part p).rounds = x.rounds + 1)
           ∧ (x.threshold ≤ x.resend.length → x.rounds < 31 → Completes (.precopyRound p order) s fun t =>
               (t.part p).st = .precopying ∧ (t.part p).rounds = x.rounds + 1 ∧ (t.part p).resend = [])))
    ∧ (x.st = .quiescing → (∀ c ∈ s.ctxsOf p, (s.ctx c).still = true) → (∀ c ∈ s.copies, c.part ≠ p) → (∀ o ∈ s.ops, o.part ≠ p) →
        Completes (.quiesceComplete p) s fun t => (t.part p).st = .migratingOut
          ∧ (x.exporting = true → t.out.getLast? = some (.status 7 0 x.rounds)))
    ∧ (x.st = .migratingIn → (∀ d tb, Completes (.exportRecord p (.header d tb)) s fun t => t = s) ∧ ∀ y : SavedPart,
        let fits : Prop := s.installOk p y = true ∧ ((s.install p y).requota p y.desc.hbmq).isSome = true
        (fits → Completes (.exportRecord p (.saved y)) s fun t => (t.part p).st = .active
          ∧ (t.part p).routes = y.routes ∧ (∀ e ∈ y.ctxs, (t.ctx e.1).st = .saved ∧ (t.ctx e.1).part = p)
          ∧ (x.exporting = true → t.out.getLast? = some (.status 8 0 p)))
        ∧ (¬fits → Completes (.exportRecord p (.saved y)) s fun t => (t.part p).st = .scrubbing ∧ t.mem = s.mem
            ∧ (x.exporting = true → t.out.getLast? = some (.status 8 4 0))))
    ∧ (x.st = .migratingIn → ∀ bs : List Byte,
        let r := readPage bs
        let base := (s.ownFrames p).getD (r.page / 16) 0 * 65536 + r.page % 16 * 4096
        let good : Prop := bs.length = 4192 ∧ x.accepts r = true ∧ r.page / 16 < (s.ownFrames p).length
        (good → Completes (.exportRecord p (.page bs)) s fun t =>
          (t.part p).st = .migratingIn ∧ smGet 0 (t.part p).majors r.page = r.major
            ∧ (∀ i ∈ r.carried, smGet 0 (t.part p).minors (pageLine r.page i) = r.minors.getD i 0
                ∧ memRead t.mem (base + 64 * i) 64 =
                  cryptLine (exportKey x.session) r.major (r.minors.getD i 0) i r.page ((bs.drop (0x60 + 64 * i)).take 64))
            ∧ ∀ a, (∀ i ∈ r.carried, a < base + 64 * i ∨ base + 64 * i + 64 ≤ a) → memGet t.mem a = memGet s.mem a)
        ∧ (¬good → Completes (.exportRecord p (.page bs)) s fun t => (t.part p).st = .scrubbing ∧ t.mem = s.mem
            ∧ (x.exporting = true → t.out.getLast? = some (.status 8 4 0))))
    ∧ (x.st = .migratingOut → Admitted (.partExportDone p) s 9 none [p] 0 fun t => (t.part p).st = .scrubbing
        ∧ ∀ c, if (s.ctx c).part = p ∧ (s.ctx c).st = .migrating then (t.ctx c).st = .scrubbing else t.ctx c = s.ctx c)
    ∧ (x.st = .quiescing ∨ x.st = .migratingOut ∨ x.st = .precopying → Admitted (.partAbort p) s 10 none [p] 0 fun t => (t.part p).st = .active
        ∧ ∀ c, (s.ctx c).part = p → (s.ctx c).st = .migrating → (s.ctx c).preempt = none → (t.ctx c).st = .saved)
    ∧ (x.st = .active ∨ x.st = .precopying → Admitted (.partDestroy p) s 11 none [p] 0 fun t => (t.part p).st = .scrubbing
        ∧ ∀ c, (s.ctx c).part = p → (s.ctx c).st ≠ .destroyed → (t.ctx c).st = .killed ∨ (t.ctx c).st = .scrubbing)
    ∧ ∀ failed : List Nat,
        let out (t : State) (sites frames : List Nat) : Prop :=
          (∀ n ∈ failed, n ∈ sites → s.site n = .good → t.site n = .mappedOut)
            ∧ ∀ n ∈ failed, (∃ f ∈ frames, s.chanSite (f / 65536) = some n) → s.site n = .good → t.site n = .mappedOut
        (x.st = .scrubbing → s.sitesStill (x.sites ++ x.leaving) = true → (∀ o ∈ s.ops, o.part ≠ p) →
          Completes (.partitionScrubComplete p failed) s fun t => t.part p = { gen := x.gen + 1 } ∧ t.vf p = {}
            ∧ wiped t (x.sites ++ x.leaving) (s.ownFrames p) ∧ out t (x.sites ++ x.leaving) (s.ownFrames p)
            ∧ (∀ a, a / 2 ^ 32 = p → memGet t.bank a = 0)
            ∧ ∀ c, (s.ctx c).part = p → (s.ctx c).st ≠ .destroyed → t.ctx c = {})
        ∧ (x.st = .shrinking ∨ (x.st = .active ∧ x.leaving ≠ []) → s.sitesStill x.leaving = true →
            let fs := (s.ownFrames p).filter fun f => x.leavingCh.contains (f / 65536)
            Completes (.partitionScrubComplete p failed) s fun t =>
              (t.part p).st = .active ∧ (t.part p).leaving = [] ∧ (t.part p).leavingCh = []
                ∧ ((∀ n ∈ failed, ∀ e ∈ s.parts, n ∉ e.2.sites) → (t.part p).gen = x.gen + 1)
                ∧ wiped t x.leaving fs ∧ out t x.leaving fs)

/-! ### Interfaces, reports, reset and power -/

/-- A virtual function is bound and its interface locks, starts and stops; the module reports the status of a partition, a drop
log, its wafer record and its measurements; a host write triggers a command line; and a module reset keeps nothing but flash
(R331, R350, R370 to R377). The model's choices are the time and the memories after a reset (logs 3 and 7), the VALUE of STATUS, the layout
of its block and of LOG_READ's and the values of a signature and of the public key (log 51), the bytes of the wafer record (log 52), and what a
failed base record does (log 62). -/
def Obligations.ModuleEvents : Prop :=
  ∀ s : State,
    (∀ (p port c : Nat) (force : Bool), s.booted = true → (s.part p).st = .active → s.tdispBars p force = false → 144 ≤ port → port ≤ 151 →
      c < 4096 → (s.ctx c).st ≠ .destroyed → (s.ctx c).part = p → Admitted (.vfBind p port c force) s 20 (some force) [p, port, c] 0 fun t =>
        (t.vf p).port = port ∧ (t.vf p).ctx = some c ∧ (t.part p).port = port)
    ∧ (∀ f : Nat,
        ((s.vf f).tdisp = .unlocked → (s.vf f).ide = true → (s.part f).desc.prot = true → (s.part f).st = .active →
          Completes (.lockInterface f) s fun t => t.vf f = { s.vf f with tdisp := .locked })
        ∧ ((s.vf f).tdisp = .locked → Completes (.startInterface f) s fun t => t.vf f = { s.vf f with tdisp := .run })
        ∧ Completes (.stopInterface f) s fun t => t.vf f = { s.vf f with tdisp := .unlocked })
    ∧ (s.booted = true →
        (∀ p : Nat, (s.part p).st ≠ .free → s.cmdTurn 0x31 none [p] = true → Completes (.status p) s fun t =>
          ∃ n bs, t.out = s.out ++ [.data (leBytes 4 n ++ bs), .status 0x31 0 (if s.goodSites < 4480 then 1 else 0)]
            ∧ (∀ e ∈ ([(.active, 2), (.shrinking, 4), (.compacting, 5), (.quiescing, 6), (.migratingOut, 7), (.migratingIn, 8),
                (.scrubbing, 9), (.precopying, 10)] : List (PartState × Nat)), (s.part p).st = e.1 → n = e.2)
            ∧ bs = leBytes 4 (s.part p).gen.toNat ++ leBytes 4 (s.part p).tagdrop.toNat ++ leBytes 4 (s.part p).routedrop.toNat
                ++ leBytes 4 (s.l2.countP fun e => e.2.pin = some p) ++ leBytes 4 (s.ownFrames p).length)
        ∧ (∀ n, n < 4608 → s.cmdTurn 0x32 none [n] = true → Completes (.logRead n) s fun t =>
            t.out = s.out ++ [.data ((s.router n).log.reverse.flatMap fun e => leBytes 4 e.1 ++ leBytes 4 e.2.1 ++ leBytes 4 e.2.2),
              .status 0x32 0 0])
        ∧ (s.cmdTurn 0x33 none [] = true → Completes .wrecRead s fun t => ∃ bs, t.out = s.out ++ [.data (leBytes 4 0x52574648 ++ bs), .status 0x33 0 0])
        ∧ (∀ (v : Bool) (f : Nat), Completes (.spdmRequest { virt := v, fnum := f, index := 3 }) s fun t =>
            ∃ sig, sig.length = 7856 ∧ t.out = s.out ++ [.measurement (digestBytes (sha256 (wholeRecord s.flash))) sig publicKey])
        ∧ (∀ f c : Nat, (s.vf f).ctx = some c → Completes (.spdmRequest { virt := true, fnum := f, index := 5 }) s fun t =>
            ∃ sig, sig.length = 7856 ∧ t.out = s.out ++ [.measurement ((s.ctx c).log.flatMap digestBytes) sig publicKey]))
    ∧ (∀ (n o : Nat) (data : List Byte), 144 ≤ n → s.portUp n = true →
        (((s.port n).cmd.busy = true → Completes (.commandLineWrite n o data) s fun t => (t.port n).cmd = (s.port n).cmd)
        ∧ ((s.port n).cmd.busy = false → smGet 0 (s.port n).cmd.bytes 0x7F = 0 → o + data.length ≤ 0x7F →
            Completes (.commandLineWrite n o data) s fun t => (t.port n).cmd.busy = false ∧ t.cmds = s.cmds
              ∧ ∀ j b, data[j]? = some b →
                if 0x70 ≤ o + j ∧ o + j < 0x78 then smGet 0 (t.port n).cmd.bytes (o + j) = smGet 0 (s.port n).cmd.bytes (o + j)
                else smGet 0 (t.port n).cmd.bytes (o + j) = b)
        ∧ ((s.port n).cmd.busy = false → s.booted = true → roithOps.contains ((s.port n).cmd.nat 0 2) = true →
            Completes (.commandLineWrite n 0x7F [1]) s fun t => (t.port n).cmd.busy = true ∧ t.cmds = s.cmds ++ [n])
        ∧ ((s.port n).cmd.busy = false → s.booted = true → roithOps.contains ((s.port n).cmd.nat 0 2) = false →
            Completes (.commandLineWrite n 0x7F [1]) s fun t => (t.port n).cmd.nat 0x70 4 = 1 ∧ (t.port n).cmd.nat 0x7F 1 = 0 ∧ t.cmds = s.cmds)))
    ∧ (Completes .moduleReset s fun t => t.flash = s.flash ∧ t.time = 0 ∧ t.groups = [] ∧ t.cores = [] ∧ t.mem = [] ∧ t.spad = [] ∧ t.bank = []
        ∧ t.ctxs = [] ∧ t.parts = [] ∧ t.vfs = [] ∧ t.teams = [] ∧ t.ops = [] ∧ t.copies = []
        ∧ t.booted = ((s.flash.imageA || s.flash.imageB) && s.flash.baseOk) ∧ (t.booted = false → t.bootCode = 4)
        ∧ (t.booted = true → ∀ n, n < 4608 → n ∈ s.flash.entries.map Prod.fst ++ s.flash.changes.map Prod.fst →
            t.site n = match (s.flash.entry n).state with | 0 => .good | 1 => .spare | 2 => .mappedOut | _ => .hole))

/-- At a control interval every good or spare tile takes its control word and one row of the table, with a sustained limit of at
most 2,700; a fast limiter sample sets rations to 1; a control word is set at once and acts at the next interval; the energy of
a tile is divided by the slot time of its contexts (R5, R381 to R384, R386). The average before 10,000 intervals have passed comes with the
event, and PNOW falls by 0.05 PLIM at most; both are the model's choice (log 116). -/
def Obligations.PowerEvents : Prop :=
  ∀ s : State,
    (∀ (pnow early : Nat) (ps : List PowerSample),
      (¬(18000 ∣ s.time.toNat) ∨ s.ctlAt = s.time.toNat + 1 → Completes (.controlInterval pnow early ps) s fun t => t = s)
      ∧ ∀ n, 18000 ∣ s.time.toNat → s.ctlAt ≠ s.time.toNat + 1 → n < 4608 → s.site n = .good ∨ s.site n = .spare →
        let x := s.tile n
        let plim := min 2700 s.plim
        let now := max pnow (s.pnow - plim / 20)
        let past := (now :: s.pnows).take 10000
        let avg := if past.length < 10000 then early else past.sum / 10000
        let gmax := min 6 (bits x.ctl 8 4)
        let lmax := min 2 (bits x.ctl 2 2)
        let lmin := min lmax (bits x.ctl 0 2)
        let r := min x.ration gmax
        let l := max lmin (min x.lclk lmax)
        let m := (ps.find? fun y => y.site = n).getD { site := n, temp := x.temp, power := x.power }
        let temp := m.temp
        let floor := x.power - x.power * plim / (20 * s.pnow)
        let within (r : Nat) : Nat := if gmax = 0 then 0 else max 1 (min gmax r)
        let next (ration lclk : Nat) : Prop := Completes (.controlInterval pnow early ps) s fun t =>
          (t.tile n).ration = within ration ∧ (t.tile n).lclk = lclk ∧ (t.tile n).gmax = gmax ∧ (t.tile n).ctl = x.ctl
            ∧ (t.tile n).power = max m.power floor ∧ ((t.tile n).tempo = true ↔ m.power < floor) ∧ t.pnow = now
        (2950 ≤ now → next (r - 2) (max lmin (l - 1)))
        ∧ (now < 2950 → plim < avg → r ≠ 1 → next (r - 1) l)
        ∧ (now < 2950 → plim < avg → r = 1 → next r (max lmin (l - 1)))
        ∧ (now < 2950 → avg ≤ plim → 95 ≤ temp → next r (max lmin (l - 1)))
        ∧ (now < 2950 → temp ≤ 85 → 20 * avg ≤ 19 * plim → r < gmax → next (r + 1) l)
        ∧ (now < 2950 → temp ≤ 85 → 20 * avg ≤ 19 * plim → gmax ≤ r → next r (min lmax (l + 1)))
        ∧ (now < 2950 → avg ≤ plim → temp < 95 → ¬(temp ≤ 85 ∧ 20 * avg ≤ 19 * plim) → next r l))
    ∧ (∀ n, n < 4608 → s.site n = .good ∨ s.site n = .spare → Completes (.fastLimiterSample 29500) s fun t =>
        t.tile n = { s.tile n with ration := if (s.tile n).gmax = 0 then 0 else max 1 (min (s.tile n).gmax 1) } ∧ SameMemory s t)
    ∧ (∀ (n : Nat) (w : Word), n < 4608 → Completes (.powerControlWrite n w) s fun t =>
        t.tile n = { s.tile n with ctl := w &&& 0xF0F } ∧ ∀ m, m ≠ n → t.tile m = s.tile m)
    ∧ ∀ m : EnergySample, 1800000 ∣ s.time.toNat → smSorted s.tiles = true →
        let occ := (s.tile m.site).occ
        let total := (occ.map Prod.snd).sum
        let share (n : Nat) : Nat := if total = 0 then 0 else (m.energy - m.ballast) * n / total
        (occ.map Prod.fst).Nodup → (∀ e ∈ occ, (s.ctx e.1).st ≠ .destroyed) → Completes (.energyAccounting [m]) s fun t =>
          (∀ e ∈ occ, (t.ctx e.1).energy = (s.ctx e.1).energy + BitVec.ofNat 64 (share e.2))
            ∧ t.ovhd = s.ovhd + BitVec.ofNat 64 (m.energy - (occ.map fun e => share e.2).sum)
            ∧ (t.tile m.site).energy = (s.tile m.site).energy + BitVec.ofNat 64 m.energy ∧ (t.tile m.site).occ = [] ∧ SameMemory s t
end

