-- ==== Sys2Proof/Laws/Elements.lean ====
section
/-!
SUPPORT. Elements of packed registers (R53, R77).
-/

namespace Sys2Proof.Machine

theorem packVal_lt (w : Nat) (es : List Elem) : packVal w es < 2 ^ (w * es.length) := by
  induction es with
  | nil => simp [packVal]
  | cons e r ih =>
    simp only [packVal, List.length_cons]
    have h1 : e.1 % 2 ^ w < 2 ^ w := Nat.mod_lt _ (by positivity)
    have : 2 ^ (w * (r.length + 1)) = 2 ^ w * 2 ^ (w * r.length) := by rw [← pow_add]; congr 1; ring
    rw [this]
    calc e.1 % 2 ^ w + 2 ^ w * packVal w r < 2 ^ w + 2 ^ w * packVal w r := by omega
      _ = 2 ^ w * (packVal w r + 1) := by ring
      _ ≤ _ := Nat.mul_le_mul_left _ ih

theorem packVal_elem (w : Nat) (es : List Elem) (i : Nat) (h : i < es.length) :
    packVal w es / 2 ^ (w * i) % 2 ^ w = es[i].1 % 2 ^ w := by
  induction es generalizing i with
  | nil => simp at h
  | cons e r ih =>
    cases i with
    | zero => simp [packVal, Nat.add_mod]
    | succ i =>
      have : 2 ^ (w * (i + 1)) = 2 ^ w * 2 ^ (w * i) := by rw [← pow_add]; congr 1; ring
      rw [this, ← Nat.div_div_eq_div_mul]
      simp only [packVal]
      rw [Nat.add_mul_div_left _ _ (by positivity), Nat.div_eq_of_lt (Nat.mod_lt _ (by positivity))]
      simpa using ih i (by simpa using h)

/-- An element of a packed register is the element that was packed. -/
theorem elem_packReg (w : Nat) (es : List Elem) (i : Nat) (h : i < es.length) (h64 : w * es.length ≤ 64) :
    elem (packReg w es) w i = es[i].1 % 2 ^ w := by
  unfold elem packReg
  have : packVal w es < 2 ^ 64 := (packVal_lt w es).trans_le (Nat.pow_le_pow_right (by norm_num) h64)
  simp only [BitVec.toNat_ofNat]
  rw [Nat.mod_eq_of_lt this, packVal_elem w es i h]

theorem packPoi_clean (w : Nat) (es : List Elem) (h : ∀ e ∈ es, e.2 = false) : packPoi w es = 0 := by
  induction es with
  | nil => rfl
  | cons e r ih => simp [packPoi, h e (by simp), ih fun x hx => h x (by simp [hx])]

/-- A register without poison has no poisoned element. -/
theorem elemBad_clean {r : Reg} (h : r.poi = 0) (w i : Nat) : elemBad r w i = false := by simp [elemBad, h]

end Sys2Proof.Machine
end

