-- ==== Sys2Proof/Laws/SMap.lean ====
section
/-!
SUPPORT. Sparse maps and memories: what a read gives after a write, and that every operation keeps the
canonical form.
-/

namespace Sys2Proof.Machine

variable {α : Type}

/-! ### Reading -/

theorem smGet_smPut (d : α) (m : SMap α) (k j : Nat) (v : α) :
    smGet d (smPut m k v) j = if j = k then v else smGet d m j := by
  induction m with
  | nil => by_cases h : k = j <;> simp [smPut, smGet, h, eq_comm]
  | cons e r ih =>
    obtain ⟨i, x⟩ := e
    simp only [smPut]
    split
    · by_cases h : k = j <;> simp [smGet, h, eq_comm]
    · split
      · rename_i h1 h2
        subst h2
        by_cases h : k = j <;> simp [smGet, h, eq_comm]
      · rename_i h1 h2
        simp only [smGet, ih]
        by_cases h : i = j
        · subst h
          simp [Ne.symm h2]
        · simp [h]

/-- The keys of a map in canonical form rise from its first on. -/
theorem smSorted_cons {e : Nat × α} {r : SMap α} (h : smSorted (e :: r) = true) :
    smSorted r = true ∧ ∀ x ∈ r, e.1 < x.1 := by
  induction r generalizing e with
  | nil => simp [smSorted]
  | cons f r ih =>
    simp only [smSorted, Bool.and_eq_true, decide_eq_true_eq] at h
    refine ⟨h.2, fun x hx => ?_⟩
    rcases List.mem_cons.1 hx with rfl | hx
    · exact h.1
    · exact h.1.trans ((ih h.2).2 x hx)

theorem smSorted_of {e : Nat × α} {r : SMap α} (h : smSorted r = true) (hlt : ∀ x ∈ r, e.1 < x.1) :
    smSorted (e :: r) = true := by
  cases r with
  | nil => rfl
  | cons f r => simp [smSorted, h, hlt f (by simp)]

/-- The keys of a map rise exactly when the list of pairs is pairwise rising. -/
theorem smSorted_iff (m : SMap α) : smSorted m = true ↔ m.Pairwise fun a b => a.1 < b.1 := by
  induction m with
  | nil => simp [smSorted]
  | cons e r ih =>
    constructor
    · intro h
      exact List.pairwise_cons.2 ⟨(smSorted_cons h).2, ih.1 (smSorted_cons h).1⟩
    · intro h
      obtain ⟨h1, h2⟩ := List.pairwise_cons.1 h
      exact smSorted_of (ih.2 h2) h1

theorem smGet_filter_ne (d : α) (m : SMap α) (k j : Nat) (h : j ≠ k) :
    smGet d (smErase m k) j = smGet d m j := by
  induction m with
  | nil => rfl
  | cons e r ih =>
    obtain ⟨i, x⟩ := e
    unfold smErase at ih ⊢
    by_cases hi : i = k
    · subst hi
      simp only [bne_self_eq_false, Bool.false_eq_true, not_false_eq_true, List.filter_cons_of_neg, ih, smGet]
      simp [Ne.symm h]
    · simp only [bne_iff_ne, ne_eq, hi, not_false_eq_true, List.filter_cons_of_pos, smGet, ih]

theorem smGet_erase_self (d : α) (m : SMap α) (k : Nat) : smGet d (smErase m k) k = d := by
  induction m with
  | nil => rfl
  | cons e r ih =>
    obtain ⟨i, x⟩ := e
    unfold smErase at ih ⊢
    by_cases hi : i = k
    · subst hi; simpa using ih
    · simpa [hi, smGet] using ih

/-- A read after a write: the value written, or what was there. -/
theorem smGet_smSet [DecidableEq α] (d : α) (m : SMap α) (k j : Nat) (v : α) :
    smGet d (smSet d m k v) j = if j = k then v else smGet d m j := by
  unfold smSet
  split
  · rename_i h
    by_cases hj : j = k
    · subst hj; simp [smGet_erase_self, h]
    · simp [hj, smGet_filter_ne]
  · exact smGet_smPut d m k j v

theorem smGet_smMod [DecidableEq α] (d : α) (m : SMap α) (k j : Nat) (f : α → α) :
    smGet d (smMod d m k f) j = if j = k then f (smGet d m k) else smGet d m j := smGet_smSet d m k j _

/-! ### The canonical form -/

theorem mem_smPut {m : SMap α} {k : Nat} {v : α} {x : Nat × α} (h : x ∈ smPut m k v) : x = (k, v) ∨ x ∈ m := by
  induction m with
  | nil => simpa [smPut] using h
  | cons e r ih =>
    obtain ⟨j, y⟩ := e
    simp only [smPut] at h
    split at h
    · rcases List.mem_cons.1 h with h | h
      · exact .inl h
      · exact .inr h
    · split at h
      · rcases List.mem_cons.1 h with h | h
        · exact .inl h
        · exact .inr (List.mem_cons_of_mem _ h)
      · rcases List.mem_cons.1 h with h | h
        · exact .inr (h ▸ List.mem_cons_self)
        · rcases ih h with h | h
          · exact .inl h
          · exact .inr (List.mem_cons_of_mem _ h)

theorem smSorted_smPut {m : SMap α} (k : Nat) (v : α) (h : smSorted m = true) : smSorted (smPut m k v) = true := by
  induction m with
  | nil => rfl
  | cons e r ih =>
    obtain ⟨j, y⟩ := e
    obtain ⟨h1, h2⟩ := smSorted_cons h
    simp only [smPut]
    split
    · rename_i hk
      refine smSorted_of h fun x hx => ?_
      rcases List.mem_cons.1 hx with rfl | hx
      · exact hk
      · exact hk.trans (h2 x hx)
    · split
      · rename_i hk
        subst hk
        exact smSorted_of h1 h2
      · rename_i h3 h4
        refine smSorted_of (ih h1) fun x hx => ?_
        rcases mem_smPut hx with rfl | hx
        · show j < k
          omega
        · exact h2 x hx

/-- The canonical form as a statement about the list. -/
theorem smWf_iff [DecidableEq α] (d : α) (m : SMap α) :
    smWf d m = true ↔ (m.Pairwise fun a b => a.1 < b.1) ∧ ∀ e ∈ m, e.2 ≠ d := by
  simp [smWf, smSorted_iff]

@[simp] theorem smWf_nil [DecidableEq α] (d : α) : smWf d ([] : SMap α) = true := rfl

theorem smWf_filter [DecidableEq α] {d : α} {m : SMap α} (p : Nat × α → Bool) (h : smWf d m = true) :
    smWf d (m.filter p) = true := by
  rw [smWf_iff] at h ⊢
  exact ⟨h.1.filter p, fun e he => h.2 e (List.mem_filter.1 he).1⟩

theorem smWf_smErase [DecidableEq α] {d : α} {m : SMap α} (k : Nat) (h : smWf d m = true) : smWf d (smErase m k) = true :=
  smWf_filter _ h

/-- Writing keeps the canonical form. -/
theorem smWf_smSet [DecidableEq α] {d : α} {m : SMap α} (k : Nat) (v : α) (h : smWf d m = true) :
    smWf d (smSet d m k v) = true := by
  unfold smSet
  split
  · exact smWf_smErase k h
  · rename_i hv
    have h' := (smWf_iff d m).1 h
    rw [smWf_iff, ← smSorted_iff]
    refine ⟨smSorted_smPut k v ((smSorted_iff m).2 h'.1), fun e he => ?_⟩
    rcases mem_smPut he with rfl | he
    · exact hv
    · exact h'.2 e he

theorem smWf_smMod [DecidableEq α] {d : α} {m : SMap α} (k : Nat) (f : α → α) (h : smWf d m = true) :
    smWf d (smMod d m k f) = true := smWf_smSet k _ h

/-- A fold of writes keeps the canonical form. -/
theorem smWf_foldl [DecidableEq α] {β : Type} {d : α} (k : β → Nat) (v : SMap α → β → α) (l : List β) (m : SMap α)
    (h : smWf d m = true) : smWf d (l.foldl (fun m e => smSet d m (k e) (v m e)) m) = true := by
  induction l generalizing m with
  | nil => exact h
  | cons e l ih => exact ih _ (smWf_smSet _ _ h)

/-! ### Memories -/

@[simp] theorem memGet_nil (a : Nat) : memGet [] a = 0 := rfl

/-- A byte reads as written, and every other byte as before. -/
theorem memGet_memSet (m : Memory) (a x : Nat) (b : Byte) : memGet (memSet m a b) x = if x = a then b else memGet m x :=
  smGet_smSet _ m a x b

theorem memWf_memSet {m : Memory} (a : Nat) (b : Byte) (h : Memory.wf m = true) : Memory.wf (memSet m a b) = true :=
  smWf_smSet a b h

/-- Bytes outside a write read as before. -/
theorem memGet_memWrite_of_lt (m : Memory) (a x : Nat) (bs : List Byte) (h : x < a ∨ a + bs.length ≤ x) :
    memGet (memWrite m a bs) x = memGet m x := by
  induction bs generalizing m a with
  | nil => rfl
  | cons b bs ih =>
    simp only [List.length_cons] at h
    simp only [memWrite]
    rw [ih (memSet m a b) (a + 1) (by omega), memGet_memSet, if_neg (by omega)]

/-- Bytes inside a write read as written. -/
theorem memGet_memWrite_of_mem (m : Memory) (a i : Nat) (bs : List Byte) (h : i < bs.length) :
    memGet (memWrite m a bs) (a + i) = bs[i] := by
  induction bs generalizing m a i with
  | nil => simp at h
  | cons b bs ih =>
    simp only [memWrite]
    cases i with
    | zero =>
      rw [memGet_memWrite_of_lt _ _ _ _ (by omega), memGet_memSet]
      simp
    | succ i =>
      have := ih (memSet m a b) (a + 1) i (by simpa using h)
      rw [show a + (i + 1) = a + 1 + i by omega, this]
      rfl

theorem memWf_memWrite {m : Memory} (a : Nat) (bs : List Byte) (h : Memory.wf m = true) : Memory.wf (memWrite m a bs) = true := by
  induction bs generalizing m a with
  | nil => exact h
  | cons b bs ih => exact ih _ (memWf_memSet a b h)

theorem memWf_memStore {m : Memory} (a n x : Nat) (h : Memory.wf m = true) : Memory.wf (memStore m a n x) = true :=
  memWf_memWrite a _ h

theorem memWf_filter {m : Memory} (p : Host.Cell → Bool) (h : Memory.wf m = true) : Memory.wf (m.filter p) = true :=
  smWf_filter p h

/-- Little-endian bytes are the number again, modulo their range. -/
theorem leNat_leBytes (n x : Nat) : leNat (leBytes n x) = x % 256 ^ n := by
  induction n generalizing x with
  | zero => simp [leBytes, leNat, Nat.mod_one]
  | succ n ih =>
    show (BitVec.ofNat 8 x).toNat + 256 * leNat (leBytes n (x / 256)) = _
    rw [ih, BitVec.toNat_ofNat, Nat.pow_succ' (m := 256), Nat.mod_mul]

end Sys2Proof.Machine
end

