-- ==== Sys2Proof/Laws/State.lean ====
section
/-!
SUPPORT. The fields of the state after each update, and what an accessor reads after one.
-/

namespace Sys2Proof.Machine

/-! ### setGrp -/

@[simp] theorem State.setGrp_time (s : State) (k : Nat) (g : Group) : (s.setGrp k g).time = s.time := rfl
@[simp] theorem State.setGrp_agenda (s : State) (k : Nat) (g : Group) : (s.setGrp k g).agenda = s.agenda := rfl
@[simp] theorem State.setGrp_stage (s : State) (k : Nat) (g : Group) : (s.setGrp k g).stage = s.stage := rfl
@[simp] theorem State.setGrp_turns (s : State) (k : Nat) (g : Group) : (s.setGrp k g).turns = s.turns := rfl
@[simp] theorem State.setGrp_cur (s : State) (k : Nat) (g : Group) : (s.setGrp k g).cur = s.cur := rfl
@[simp] theorem State.setGrp_nextId (s : State) (k : Nat) (g : Group) : (s.setGrp k g).nextId = s.nextId := rfl
@[simp] theorem State.setGrp_freeCtr (s : State) (k : Nat) (g : Group) : (s.setGrp k g).freeCtr = s.freeCtr := rfl
@[simp] theorem State.setGrp_out (s : State) (k : Nat) (g : Group) : (s.setGrp k g).out = s.out := rfl
@[simp] theorem State.setGrp_cores (s : State) (k : Nat) (g : Group) : (s.setGrp k g).cores = s.cores := rfl
@[simp] theorem State.setGrp_tiles (s : State) (k : Nat) (g : Group) : (s.setGrp k g).tiles = s.tiles := rfl
@[simp] theorem State.setGrp_routers (s : State) (k : Nat) (g : Group) : (s.setGrp k g).routers = s.routers := rfl
@[simp] theorem State.setGrp_flits (s : State) (k : Nat) (g : Group) : (s.setGrp k g).flits = s.flits := rfl
@[simp] theorem State.setGrp_mem (s : State) (k : Nat) (g : Group) : (s.setGrp k g).mem = s.mem := rfl
@[simp] theorem State.setGrp_mpoi (s : State) (k : Nat) (g : Group) : (s.setGrp k g).mpoi = s.mpoi := rfl
@[simp] theorem State.setGrp_hostLines (s : State) (k : Nat) (g : Group) : (s.setGrp k g).hostLines = s.hostLines := rfl
@[simp] theorem State.setGrp_spad (s : State) (k : Nat) (g : Group) : (s.setGrp k g).spad = s.spad := rfl
@[simp] theorem State.setGrp_spoi (s : State) (k : Nat) (g : Group) : (s.setGrp k g).spoi = s.spoi := rfl
@[simp] theorem State.setGrp_sown (s : State) (k : Nat) (g : Group) : (s.setGrp k g).sown = s.sown := rfl
@[simp] theorem State.setGrp_bank (s : State) (k : Nat) (g : Group) : (s.setGrp k g).bank = s.bank := rfl
@[simp] theorem State.setGrp_bpoi (s : State) (k : Nat) (g : Group) : (s.setGrp k g).bpoi = s.bpoi := rfl
@[simp] theorem State.setGrp_bred (s : State) (k : Nat) (g : Group) : (s.setGrp k g).bred = s.bred := rfl
@[simp] theorem State.setGrp_ecc (s : State) (k : Nat) (g : Group) : (s.setGrp k g).ecc = s.ecc := rfl
@[simp] theorem State.setGrp_l2 (s : State) (k : Nat) (g : Group) : (s.setGrp k g).l2 = s.l2 := rfl
@[simp] theorem State.setGrp_served (s : State) (k : Nat) (g : Group) : (s.setGrp k g).served = s.served := rfl
@[simp] theorem State.setGrp_repLog (s : State) (k : Nat) (g : Group) : (s.setGrp k g).repLog = s.repLog := rfl
@[simp] theorem State.setGrp_owner (s : State) (k : Nat) (g : Group) : (s.setGrp k g).owner = s.owner := rfl
@[simp] theorem State.setGrp_retired (s : State) (k : Nat) (g : Group) : (s.setGrp k g).retired = s.retired := rfl
@[simp] theorem State.setGrp_ops (s : State) (k : Nat) (g : Group) : (s.setGrp k g).ops = s.ops := rfl
@[simp] theorem State.setGrp_copies (s : State) (k : Nat) (g : Group) : (s.setGrp k g).copies = s.copies := rfl
@[simp] theorem State.setGrp_wakes (s : State) (k : Nat) (g : Group) : (s.setGrp k g).wakes = s.wakes := rfl
@[simp] theorem State.setGrp_teams (s : State) (k : Nat) (g : Group) : (s.setGrp k g).teams = s.teams := rfl
@[simp] theorem State.setGrp_ctxs (s : State) (k : Nat) (g : Group) : (s.setGrp k g).ctxs = s.ctxs := rfl
@[simp] theorem State.setGrp_parts (s : State) (k : Nat) (g : Group) : (s.setGrp k g).parts = s.parts := rfl
@[simp] theorem State.setGrp_vfs (s : State) (k : Nat) (g : Group) : (s.setGrp k g).vfs = s.vfs := rfl
@[simp] theorem State.setGrp_ports (s : State) (k : Nat) (g : Group) : (s.setGrp k g).ports = s.ports := rfl
@[simp] theorem State.setGrp_cmds (s : State) (k : Nat) (g : Group) : (s.setGrp k g).cmds = s.cmds := rfl
@[simp] theorem State.setGrp_flash (s : State) (k : Nat) (g : Group) : (s.setGrp k g).flash = s.flash := rfl
@[simp] theorem State.setGrp_sites (s : State) (k : Nat) (g : Group) : (s.setGrp k g).sites = s.sites := rfl
@[simp] theorem State.setGrp_booted (s : State) (k : Nat) (g : Group) : (s.setGrp k g).booted = s.booted := rfl
@[simp] theorem State.setGrp_bootCode (s : State) (k : Nat) (g : Group) : (s.setGrp k g).bootCode = s.bootCode := rfl
@[simp] theorem State.setGrp_pnow (s : State) (k : Nat) (g : Group) : (s.setGrp k g).pnow = s.pnow := rfl
@[simp] theorem State.setGrp_pnows (s : State) (k : Nat) (g : Group) : (s.setGrp k g).pnows = s.pnows := rfl
@[simp] theorem State.setGrp_ctlAt (s : State) (k : Nat) (g : Group) : (s.setGrp k g).ctlAt = s.ctlAt := rfl
@[simp] theorem State.setGrp_plim (s : State) (k : Nat) (g : Group) : (s.setGrp k g).plim = s.plim := rfl
@[simp] theorem State.setGrp_ovhd (s : State) (k : Nat) (g : Group) : (s.setGrp k g).ovhd = s.ovhd := rfl
@[simp] theorem State.setGrp_limited (s : State) (k : Nat) (g : Group) : (s.setGrp k g).limited = s.limited := rfl

/-! ### modGrp -/

@[simp] theorem State.modGrp_time (s : State) (k : Nat) (f : Group → Group) : (s.modGrp k f).time = s.time := rfl
@[simp] theorem State.modGrp_agenda (s : State) (k : Nat) (f : Group → Group) : (s.modGrp k f).agenda = s.agenda := rfl
@[simp] theorem State.modGrp_stage (s : State) (k : Nat) (f : Group → Group) : (s.modGrp k f).stage = s.stage := rfl
@[simp] theorem State.modGrp_turns (s : State) (k : Nat) (f : Group → Group) : (s.modGrp k f).turns = s.turns := rfl
@[simp] theorem State.modGrp_cur (s : State) (k : Nat) (f : Group → Group) : (s.modGrp k f).cur = s.cur := rfl
@[simp] theorem State.modGrp_nextId (s : State) (k : Nat) (f : Group → Group) : (s.modGrp k f).nextId = s.nextId := rfl
@[simp] theorem State.modGrp_freeCtr (s : State) (k : Nat) (f : Group → Group) : (s.modGrp k f).freeCtr = s.freeCtr := rfl
@[simp] theorem State.modGrp_out (s : State) (k : Nat) (f : Group → Group) : (s.modGrp k f).out = s.out := rfl
@[simp] theorem State.modGrp_cores (s : State) (k : Nat) (f : Group → Group) : (s.modGrp k f).cores = s.cores := rfl
@[simp] theorem State.modGrp_tiles (s : State) (k : Nat) (f : Group → Group) : (s.modGrp k f).tiles = s.tiles := rfl
@[simp] theorem State.modGrp_routers (s : State) (k : Nat) (f : Group → Group) : (s.modGrp k f).routers = s.routers := rfl
@[simp] theorem State.modGrp_flits (s : State) (k : Nat) (f : Group → Group) : (s.modGrp k f).flits = s.flits := rfl
@[simp] theorem State.modGrp_mem (s : State) (k : Nat) (f : Group → Group) : (s.modGrp k f).mem = s.mem := rfl
@[simp] theorem State.modGrp_mpoi (s : State) (k : Nat) (f : Group → Group) : (s.modGrp k f).mpoi = s.mpoi := rfl
@[simp] theorem State.modGrp_hostLines (s : State) (k : Nat) (f : Group → Group) : (s.modGrp k f).hostLines = s.hostLines := rfl
@[simp] theorem State.modGrp_spad (s : State) (k : Nat) (f : Group → Group) : (s.modGrp k f).spad = s.spad := rfl
@[simp] theorem State.modGrp_spoi (s : State) (k : Nat) (f : Group → Group) : (s.modGrp k f).spoi = s.spoi := rfl
@[simp] theorem State.modGrp_sown (s : State) (k : Nat) (f : Group → Group) : (s.modGrp k f).sown = s.sown := rfl
@[simp] theorem State.modGrp_bank (s : State) (k : Nat) (f : Group → Group) : (s.modGrp k f).bank = s.bank := rfl
@[simp] theorem State.modGrp_bpoi (s : State) (k : Nat) (f : Group → Group) : (s.modGrp k f).bpoi = s.bpoi := rfl
@[simp] theorem State.modGrp_bred (s : State) (k : Nat) (f : Group → Group) : (s.modGrp k f).bred = s.bred := rfl
@[simp] theorem State.modGrp_ecc (s : State) (k : Nat) (f : Group → Group) : (s.modGrp k f).ecc = s.ecc := rfl
@[simp] theorem State.modGrp_l2 (s : State) (k : Nat) (f : Group → Group) : (s.modGrp k f).l2 = s.l2 := rfl
@[simp] theorem State.modGrp_served (s : State) (k : Nat) (f : Group → Group) : (s.modGrp k f).served = s.served := rfl
@[simp] theorem State.modGrp_repLog (s : State) (k : Nat) (f : Group → Group) : (s.modGrp k f).repLog = s.repLog := rfl
@[simp] theorem State.modGrp_owner (s : State) (k : Nat) (f : Group → Group) : (s.modGrp k f).owner = s.owner := rfl
@[simp] theorem State.modGrp_retired (s : State) (k : Nat) (f : Group → Group) : (s.modGrp k f).retired = s.retired := rfl
@[simp] theorem State.modGrp_ops (s : State) (k : Nat) (f : Group → Group) : (s.modGrp k f).ops = s.ops := rfl
@[simp] theorem State.modGrp_copies (s : State) (k : Nat) (f : Group → Group) : (s.modGrp k f).copies = s.copies := rfl
@[simp] theorem State.modGrp_wakes (s : State) (k : Nat) (f : Group → Group) : (s.modGrp k f).wakes = s.wakes := rfl
@[simp] theorem State.modGrp_teams (s : State) (k : Nat) (f : Group → Group) : (s.modGrp k f).teams = s.teams := rfl
@[simp] theorem State.modGrp_ctxs (s : State) (k : Nat) (f : Group → Group) : (s.modGrp k f).ctxs = s.ctxs := rfl
@[simp] theorem State.modGrp_parts (s : State) (k : Nat) (f : Group → Group) : (s.modGrp k f).parts = s.parts := rfl
@[simp] theorem State.modGrp_vfs (s : State) (k : Nat) (f : Group → Group) : (s.modGrp k f).vfs = s.vfs := rfl
@[simp] theorem State.modGrp_ports (s : State) (k : Nat) (f : Group → Group) : (s.modGrp k f).ports = s.ports := rfl
@[simp] theorem State.modGrp_cmds (s : State) (k : Nat) (f : Group → Group) : (s.modGrp k f).cmds = s.cmds := rfl
@[simp] theorem State.modGrp_flash (s : State) (k : Nat) (f : Group → Group) : (s.modGrp k f).flash = s.flash := rfl
@[simp] theorem State.modGrp_sites (s : State) (k : Nat) (f : Group → Group) : (s.modGrp k f).sites = s.sites := rfl
@[simp] theorem State.modGrp_booted (s : State) (k : Nat) (f : Group → Group) : (s.modGrp k f).booted = s.booted := rfl
@[simp] theorem State.modGrp_bootCode (s : State) (k : Nat) (f : Group → Group) : (s.modGrp k f).bootCode = s.bootCode := rfl
@[simp] theorem State.modGrp_pnow (s : State) (k : Nat) (f : Group → Group) : (s.modGrp k f).pnow = s.pnow := rfl
@[simp] theorem State.modGrp_pnows (s : State) (k : Nat) (f : Group → Group) : (s.modGrp k f).pnows = s.pnows := rfl
@[simp] theorem State.modGrp_ctlAt (s : State) (k : Nat) (f : Group → Group) : (s.modGrp k f).ctlAt = s.ctlAt := rfl
@[simp] theorem State.modGrp_plim (s : State) (k : Nat) (f : Group → Group) : (s.modGrp k f).plim = s.plim := rfl
@[simp] theorem State.modGrp_ovhd (s : State) (k : Nat) (f : Group → Group) : (s.modGrp k f).ovhd = s.ovhd := rfl
@[simp] theorem State.modGrp_limited (s : State) (k : Nat) (f : Group → Group) : (s.modGrp k f).limited = s.limited := rfl

/-! ### modCore -/

@[simp] theorem State.modCore_time (s : State) (c : Nat) (f : Core → Core) : (s.modCore c f).time = s.time := rfl
@[simp] theorem State.modCore_agenda (s : State) (c : Nat) (f : Core → Core) : (s.modCore c f).agenda = s.agenda := rfl
@[simp] theorem State.modCore_stage (s : State) (c : Nat) (f : Core → Core) : (s.modCore c f).stage = s.stage := rfl
@[simp] theorem State.modCore_turns (s : State) (c : Nat) (f : Core → Core) : (s.modCore c f).turns = s.turns := rfl
@[simp] theorem State.modCore_cur (s : State) (c : Nat) (f : Core → Core) : (s.modCore c f).cur = s.cur := rfl
@[simp] theorem State.modCore_nextId (s : State) (c : Nat) (f : Core → Core) : (s.modCore c f).nextId = s.nextId := rfl
@[simp] theorem State.modCore_freeCtr (s : State) (c : Nat) (f : Core → Core) : (s.modCore c f).freeCtr = s.freeCtr := rfl
@[simp] theorem State.modCore_out (s : State) (c : Nat) (f : Core → Core) : (s.modCore c f).out = s.out := rfl
@[simp] theorem State.modCore_groups (s : State) (c : Nat) (f : Core → Core) : (s.modCore c f).groups = s.groups := rfl
@[simp] theorem State.modCore_tiles (s : State) (c : Nat) (f : Core → Core) : (s.modCore c f).tiles = s.tiles := rfl
@[simp] theorem State.modCore_routers (s : State) (c : Nat) (f : Core → Core) : (s.modCore c f).routers = s.routers := rfl
@[simp] theorem State.modCore_flits (s : State) (c : Nat) (f : Core → Core) : (s.modCore c f).flits = s.flits := rfl
@[simp] theorem State.modCore_mem (s : State) (c : Nat) (f : Core → Core) : (s.modCore c f).mem = s.mem := rfl
@[simp] theorem State.modCore_mpoi (s : State) (c : Nat) (f : Core → Core) : (s.modCore c f).mpoi = s.mpoi := rfl
@[simp] theorem State.modCore_hostLines (s : State) (c : Nat) (f : Core → Core) : (s.modCore c f).hostLines = s.hostLines := rfl
@[simp] theorem State.modCore_spad (s : State) (c : Nat) (f : Core → Core) : (s.modCore c f).spad = s.spad := rfl
@[simp] theorem State.modCore_spoi (s : State) (c : Nat) (f : Core → Core) : (s.modCore c f).spoi = s.spoi := rfl
@[simp] theorem State.modCore_sown (s : State) (c : Nat) (f : Core → Core) : (s.modCore c f).sown = s.sown := rfl
@[simp] theorem State.modCore_bank (s : State) (c : Nat) (f : Core → Core) : (s.modCore c f).bank = s.bank := rfl
@[simp] theorem State.modCore_bpoi (s : State) (c : Nat) (f : Core → Core) : (s.modCore c f).bpoi = s.bpoi := rfl
@[simp] theorem State.modCore_bred (s : State) (c : Nat) (f : Core → Core) : (s.modCore c f).bred = s.bred := rfl
@[simp] theorem State.modCore_ecc (s : State) (c : Nat) (f : Core → Core) : (s.modCore c f).ecc = s.ecc := rfl
@[simp] theorem State.modCore_l2 (s : State) (c : Nat) (f : Core → Core) : (s.modCore c f).l2 = s.l2 := rfl
@[simp] theorem State.modCore_served (s : State) (c : Nat) (f : Core → Core) : (s.modCore c f).served = s.served := rfl
@[simp] theorem State.modCore_repLog (s : State) (c : Nat) (f : Core → Core) : (s.modCore c f).repLog = s.repLog := rfl
@[simp] theorem State.modCore_owner (s : State) (c : Nat) (f : Core → Core) : (s.modCore c f).owner = s.owner := rfl
@[simp] theorem State.modCore_retired (s : State) (c : Nat) (f : Core → Core) : (s.modCore c f).retired = s.retired := rfl
@[simp] theorem State.modCore_ops (s : State) (c : Nat) (f : Core → Core) : (s.modCore c f).ops = s.ops := rfl
@[simp] theorem State.modCore_copies (s : State) (c : Nat) (f : Core → Core) : (s.modCore c f).copies = s.copies := rfl
@[simp] theorem State.modCore_wakes (s : State) (c : Nat) (f : Core → Core) : (s.modCore c f).wakes = s.wakes := rfl
@[simp] theorem State.modCore_teams (s : State) (c : Nat) (f : Core → Core) : (s.modCore c f).teams = s.teams := rfl
@[simp] theorem State.modCore_ctxs (s : State) (c : Nat) (f : Core → Core) : (s.modCore c f).ctxs = s.ctxs := rfl
@[simp] theorem State.modCore_parts (s : State) (c : Nat) (f : Core → Core) : (s.modCore c f).parts = s.parts := rfl
@[simp] theorem State.modCore_vfs (s : State) (c : Nat) (f : Core → Core) : (s.modCore c f).vfs = s.vfs := rfl
@[simp] theorem State.modCore_ports (s : State) (c : Nat) (f : Core → Core) : (s.modCore c f).ports = s.ports := rfl
@[simp] theorem State.modCore_cmds (s : State) (c : Nat) (f : Core → Core) : (s.modCore c f).cmds = s.cmds := rfl
@[simp] theorem State.modCore_flash (s : State) (c : Nat) (f : Core → Core) : (s.modCore c f).flash = s.flash := rfl
@[simp] theorem State.modCore_sites (s : State) (c : Nat) (f : Core → Core) : (s.modCore c f).sites = s.sites := rfl
@[simp] theorem State.modCore_booted (s : State) (c : Nat) (f : Core → Core) : (s.modCore c f).booted = s.booted := rfl
@[simp] theorem State.modCore_bootCode (s : State) (c : Nat) (f : Core → Core) : (s.modCore c f).bootCode = s.bootCode := rfl
@[simp] theorem State.modCore_pnow (s : State) (c : Nat) (f : Core → Core) : (s.modCore c f).pnow = s.pnow := rfl
@[simp] theorem State.modCore_pnows (s : State) (c : Nat) (f : Core → Core) : (s.modCore c f).pnows = s.pnows := rfl
@[simp] theorem State.modCore_ctlAt (s : State) (c : Nat) (f : Core → Core) : (s.modCore c f).ctlAt = s.ctlAt := rfl
@[simp] theorem State.modCore_plim (s : State) (c : Nat) (f : Core → Core) : (s.modCore c f).plim = s.plim := rfl
@[simp] theorem State.modCore_ovhd (s : State) (c : Nat) (f : Core → Core) : (s.modCore c f).ovhd = s.ovhd := rfl
@[simp] theorem State.modCore_limited (s : State) (c : Nat) (f : Core → Core) : (s.modCore c f).limited = s.limited := rfl

/-! ### modTile -/

@[simp] theorem State.modTile_time (s : State) (t : Nat) (f : Tile → Tile) : (s.modTile t f).time = s.time := rfl
@[simp] theorem State.modTile_agenda (s : State) (t : Nat) (f : Tile → Tile) : (s.modTile t f).agenda = s.agenda := rfl
@[simp] theorem State.modTile_stage (s : State) (t : Nat) (f : Tile → Tile) : (s.modTile t f).stage = s.stage := rfl
@[simp] theorem State.modTile_turns (s : State) (t : Nat) (f : Tile → Tile) : (s.modTile t f).turns = s.turns := rfl
@[simp] theorem State.modTile_cur (s : State) (t : Nat) (f : Tile → Tile) : (s.modTile t f).cur = s.cur := rfl
@[simp] theorem State.modTile_nextId (s : State) (t : Nat) (f : Tile → Tile) : (s.modTile t f).nextId = s.nextId := rfl
@[simp] theorem State.modTile_freeCtr (s : State) (t : Nat) (f : Tile → Tile) : (s.modTile t f).freeCtr = s.freeCtr := rfl
@[simp] theorem State.modTile_out (s : State) (t : Nat) (f : Tile → Tile) : (s.modTile t f).out = s.out := rfl
@[simp] theorem State.modTile_groups (s : State) (t : Nat) (f : Tile → Tile) : (s.modTile t f).groups = s.groups := rfl
@[simp] theorem State.modTile_cores (s : State) (t : Nat) (f : Tile → Tile) : (s.modTile t f).cores = s.cores := rfl
@[simp] theorem State.modTile_routers (s : State) (t : Nat) (f : Tile → Tile) : (s.modTile t f).routers = s.routers := rfl
@[simp] theorem State.modTile_flits (s : State) (t : Nat) (f : Tile → Tile) : (s.modTile t f).flits = s.flits := rfl
@[simp] theorem State.modTile_mem (s : State) (t : Nat) (f : Tile → Tile) : (s.modTile t f).mem = s.mem := rfl
@[simp] theorem State.modTile_mpoi (s : State) (t : Nat) (f : Tile → Tile) : (s.modTile t f).mpoi = s.mpoi := rfl
@[simp] theorem State.modTile_hostLines (s : State) (t : Nat) (f : Tile → Tile) : (s.modTile t f).hostLines = s.hostLines := rfl
@[simp] theorem State.modTile_spad (s : State) (t : Nat) (f : Tile → Tile) : (s.modTile t f).spad = s.spad := rfl
@[simp] theorem State.modTile_spoi (s : State) (t : Nat) (f : Tile → Tile) : (s.modTile t f).spoi = s.spoi := rfl
@[simp] theorem State.modTile_sown (s : State) (t : Nat) (f : Tile → Tile) : (s.modTile t f).sown = s.sown := rfl
@[simp] theorem State.modTile_bank (s : State) (t : Nat) (f : Tile → Tile) : (s.modTile t f).bank = s.bank := rfl
@[simp] theorem State.modTile_bpoi (s : State) (t : Nat) (f : Tile → Tile) : (s.modTile t f).bpoi = s.bpoi := rfl
@[simp] theorem State.modTile_bred (s : State) (t : Nat) (f : Tile → Tile) : (s.modTile t f).bred = s.bred := rfl
@[simp] theorem State.modTile_ecc (s : State) (t : Nat) (f : Tile → Tile) : (s.modTile t f).ecc = s.ecc := rfl
@[simp] theorem State.modTile_l2 (s : State) (t : Nat) (f : Tile → Tile) : (s.modTile t f).l2 = s.l2 := rfl
@[simp] theorem State.modTile_served (s : State) (t : Nat) (f : Tile → Tile) : (s.modTile t f).served = s.served := rfl
@[simp] theorem State.modTile_repLog (s : State) (t : Nat) (f : Tile → Tile) : (s.modTile t f).repLog = s.repLog := rfl
@[simp] theorem State.modTile_owner (s : State) (t : Nat) (f : Tile → Tile) : (s.modTile t f).owner = s.owner := rfl
@[simp] theorem State.modTile_retired (s : State) (t : Nat) (f : Tile → Tile) : (s.modTile t f).retired = s.retired := rfl
@[simp] theorem State.modTile_ops (s : State) (t : Nat) (f : Tile → Tile) : (s.modTile t f).ops = s.ops := rfl
@[simp] theorem State.modTile_copies (s : State) (t : Nat) (f : Tile → Tile) : (s.modTile t f).copies = s.copies := rfl
@[simp] theorem State.modTile_wakes (s : State) (t : Nat) (f : Tile → Tile) : (s.modTile t f).wakes = s.wakes := rfl
@[simp] theorem State.modTile_teams (s : State) (t : Nat) (f : Tile → Tile) : (s.modTile t f).teams = s.teams := rfl
@[simp] theorem State.modTile_ctxs (s : State) (t : Nat) (f : Tile → Tile) : (s.modTile t f).ctxs = s.ctxs := rfl
@[simp] theorem State.modTile_parts (s : State) (t : Nat) (f : Tile → Tile) : (s.modTile t f).parts = s.parts := rfl
@[simp] theorem State.modTile_vfs (s : State) (t : Nat) (f : Tile → Tile) : (s.modTile t f).vfs = s.vfs := rfl
@[simp] theorem State.modTile_ports (s : State) (t : Nat) (f : Tile → Tile) : (s.modTile t f).ports = s.ports := rfl
@[simp] theorem State.modTile_cmds (s : State) (t : Nat) (f : Tile → Tile) : (s.modTile t f).cmds = s.cmds := rfl
@[simp] theorem State.modTile_flash (s : State) (t : Nat) (f : Tile → Tile) : (s.modTile t f).flash = s.flash := rfl
@[simp] theorem State.modTile_sites (s : State) (t : Nat) (f : Tile → Tile) : (s.modTile t f).sites = s.sites := rfl
@[simp] theorem State.modTile_booted (s : State) (t : Nat) (f : Tile → Tile) : (s.modTile t f).booted = s.booted := rfl
@[simp] theorem State.modTile_bootCode (s : State) (t : Nat) (f : Tile → Tile) : (s.modTile t f).bootCode = s.bootCode := rfl
@[simp] theorem State.modTile_pnow (s : State) (t : Nat) (f : Tile → Tile) : (s.modTile t f).pnow = s.pnow := rfl
@[simp] theorem State.modTile_pnows (s : State) (t : Nat) (f : Tile → Tile) : (s.modTile t f).pnows = s.pnows := rfl
@[simp] theorem State.modTile_ctlAt (s : State) (t : Nat) (f : Tile → Tile) : (s.modTile t f).ctlAt = s.ctlAt := rfl
@[simp] theorem State.modTile_plim (s : State) (t : Nat) (f : Tile → Tile) : (s.modTile t f).plim = s.plim := rfl
@[simp] theorem State.modTile_ovhd (s : State) (t : Nat) (f : Tile → Tile) : (s.modTile t f).ovhd = s.ovhd := rfl
@[simp] theorem State.modTile_limited (s : State) (t : Nat) (f : Tile → Tile) : (s.modTile t f).limited = s.limited := rfl

/-! ### modRouter -/

@[simp] theorem State.modRouter_time (s : State) (t : Nat) (f : Router → Router) : (s.modRouter t f).time = s.time := rfl
@[simp] theorem State.modRouter_agenda (s : State) (t : Nat) (f : Router → Router) : (s.modRouter t f).agenda = s.agenda := rfl
@[simp] theorem State.modRouter_stage (s : State) (t : Nat) (f : Router → Router) : (s.modRouter t f).stage = s.stage := rfl
@[simp] theorem State.modRouter_turns (s : State) (t : Nat) (f : Router → Router) : (s.modRouter t f).turns = s.turns := rfl
@[simp] theorem State.modRouter_cur (s : State) (t : Nat) (f : Router → Router) : (s.modRouter t f).cur = s.cur := rfl
@[simp] theorem State.modRouter_nextId (s : State) (t : Nat) (f : Router → Router) : (s.modRouter t f).nextId = s.nextId := rfl
@[simp] theorem State.modRouter_freeCtr (s : State) (t : Nat) (f : Router → Router) : (s.modRouter t f).freeCtr = s.freeCtr := rfl
@[simp] theorem State.modRouter_out (s : State) (t : Nat) (f : Router → Router) : (s.modRouter t f).out = s.out := rfl
@[simp] theorem State.modRouter_groups (s : State) (t : Nat) (f : Router → Router) : (s.modRouter t f).groups = s.groups := rfl
@[simp] theorem State.modRouter_cores (s : State) (t : Nat) (f : Router → Router) : (s.modRouter t f).cores = s.cores := rfl
@[simp] theorem State.modRouter_tiles (s : State) (t : Nat) (f : Router → Router) : (s.modRouter t f).tiles = s.tiles := rfl
@[simp] theorem State.modRouter_flits (s : State) (t : Nat) (f : Router → Router) : (s.modRouter t f).flits = s.flits := rfl
@[simp] theorem State.modRouter_mem (s : State) (t : Nat) (f : Router → Router) : (s.modRouter t f).mem = s.mem := rfl
@[simp] theorem State.modRouter_mpoi (s : State) (t : Nat) (f : Router → Router) : (s.modRouter t f).mpoi = s.mpoi := rfl
@[simp] theorem State.modRouter_hostLines (s : State) (t : Nat) (f : Router → Router) : (s.modRouter t f).hostLines = s.hostLines := rfl
@[simp] theorem State.modRouter_spad (s : State) (t : Nat) (f : Router → Router) : (s.modRouter t f).spad = s.spad := rfl
@[simp] theorem State.modRouter_spoi (s : State) (t : Nat) (f : Router → Router) : (s.modRouter t f).spoi = s.spoi := rfl
@[simp] theorem State.modRouter_sown (s : State) (t : Nat) (f : Router → Router) : (s.modRouter t f).sown = s.sown := rfl
@[simp] theorem State.modRouter_bank (s : State) (t : Nat) (f : Router → Router) : (s.modRouter t f).bank = s.bank := rfl
@[simp] theorem State.modRouter_bpoi (s : State) (t : Nat) (f : Router → Router) : (s.modRouter t f).bpoi = s.bpoi := rfl
@[simp] theorem State.modRouter_bred (s : State) (t : Nat) (f : Router → Router) : (s.modRouter t f).bred = s.bred := rfl
@[simp] theorem State.modRouter_ecc (s : State) (t : Nat) (f : Router → Router) : (s.modRouter t f).ecc = s.ecc := rfl
@[simp] theorem State.modRouter_l2 (s : State) (t : Nat) (f : Router → Router) : (s.modRouter t f).l2 = s.l2 := rfl
@[simp] theorem State.modRouter_served (s : State) (t : Nat) (f : Router → Router) : (s.modRouter t f).served = s.served := rfl
@[simp] theorem State.modRouter_repLog (s : State) (t : Nat) (f : Router → Router) : (s.modRouter t f).repLog = s.repLog := rfl
@[simp] theorem State.modRouter_owner (s : State) (t : Nat) (f : Router → Router) : (s.modRouter t f).owner = s.owner := rfl
@[simp] theorem State.modRouter_retired (s : State) (t : Nat) (f : Router → Router) : (s.modRouter t f).retired = s.retired := rfl
@[simp] theorem State.modRouter_ops (s : State) (t : Nat) (f : Router → Router) : (s.modRouter t f).ops = s.ops := rfl
@[simp] theorem State.modRouter_copies (s : State) (t : Nat) (f : Router → Router) : (s.modRouter t f).copies = s.copies := rfl
@[simp] theorem State.modRouter_wakes (s : State) (t : Nat) (f : Router → Router) : (s.modRouter t f).wakes = s.wakes := rfl
@[simp] theorem State.modRouter_teams (s : State) (t : Nat) (f : Router → Router) : (s.modRouter t f).teams = s.teams := rfl
@[simp] theorem State.modRouter_ctxs (s : State) (t : Nat) (f : Router → Router) : (s.modRouter t f).ctxs = s.ctxs := rfl
@[simp] theorem State.modRouter_parts (s : State) (t : Nat) (f : Router → Router) : (s.modRouter t f).parts = s.parts := rfl
@[simp] theorem State.modRouter_vfs (s : State) (t : Nat) (f : Router → Router) : (s.modRouter t f).vfs = s.vfs := rfl
@[simp] theorem State.modRouter_ports (s : State) (t : Nat) (f : Router → Router) : (s.modRouter t f).ports = s.ports := rfl
@[simp] theorem State.modRouter_cmds (s : State) (t : Nat) (f : Router → Router) : (s.modRouter t f).cmds = s.cmds := rfl
@[simp] theorem State.modRouter_flash (s : State) (t : Nat) (f : Router → Router) : (s.modRouter t f).flash = s.flash := rfl
@[simp] theorem State.modRouter_sites (s : State) (t : Nat) (f : Router → Router) : (s.modRouter t f).sites = s.sites := rfl
@[simp] theorem State.modRouter_booted (s : State) (t : Nat) (f : Router → Router) : (s.modRouter t f).booted = s.booted := rfl
@[simp] theorem State.modRouter_bootCode (s : State) (t : Nat) (f : Router → Router) : (s.modRouter t f).bootCode = s.bootCode := rfl
@[simp] theorem State.modRouter_pnow (s : State) (t : Nat) (f : Router → Router) : (s.modRouter t f).pnow = s.pnow := rfl
@[simp] theorem State.modRouter_pnows (s : State) (t : Nat) (f : Router → Router) : (s.modRouter t f).pnows = s.pnows := rfl
@[simp] theorem State.modRouter_ctlAt (s : State) (t : Nat) (f : Router → Router) : (s.modRouter t f).ctlAt = s.ctlAt := rfl
@[simp] theorem State.modRouter_plim (s : State) (t : Nat) (f : Router → Router) : (s.modRouter t f).plim = s.plim := rfl
@[simp] theorem State.modRouter_ovhd (s : State) (t : Nat) (f : Router → Router) : (s.modRouter t f).ovhd = s.ovhd := rfl
@[simp] theorem State.modRouter_limited (s : State) (t : Nat) (f : Router → Router) : (s.modRouter t f).limited = s.limited := rfl

/-! ### modTeam -/

@[simp] theorem State.modTeam_time (s : State) (t : Nat) (f : Team → Team) : (s.modTeam t f).time = s.time := rfl
@[simp] theorem State.modTeam_agenda (s : State) (t : Nat) (f : Team → Team) : (s.modTeam t f).agenda = s.agenda := rfl
@[simp] theorem State.modTeam_stage (s : State) (t : Nat) (f : Team → Team) : (s.modTeam t f).stage = s.stage := rfl
@[simp] theorem State.modTeam_turns (s : State) (t : Nat) (f : Team → Team) : (s.modTeam t f).turns = s.turns := rfl
@[simp] theorem State.modTeam_cur (s : State) (t : Nat) (f : Team → Team) : (s.modTeam t f).cur = s.cur := rfl
@[simp] theorem State.modTeam_nextId (s : State) (t : Nat) (f : Team → Team) : (s.modTeam t f).nextId = s.nextId := rfl
@[simp] theorem State.modTeam_freeCtr (s : State) (t : Nat) (f : Team → Team) : (s.modTeam t f).freeCtr = s.freeCtr := rfl
@[simp] theorem State.modTeam_out (s : State) (t : Nat) (f : Team → Team) : (s.modTeam t f).out = s.out := rfl
@[simp] theorem State.modTeam_groups (s : State) (t : Nat) (f : Team → Team) : (s.modTeam t f).groups = s.groups := rfl
@[simp] theorem State.modTeam_cores (s : State) (t : Nat) (f : Team → Team) : (s.modTeam t f).cores = s.cores := rfl
@[simp] theorem State.modTeam_tiles (s : State) (t : Nat) (f : Team → Team) : (s.modTeam t f).tiles = s.tiles := rfl
@[simp] theorem State.modTeam_routers (s : State) (t : Nat) (f : Team → Team) : (s.modTeam t f).routers = s.routers := rfl
@[simp] theorem State.modTeam_flits (s : State) (t : Nat) (f : Team → Team) : (s.modTeam t f).flits = s.flits := rfl
@[simp] theorem State.modTeam_mem (s : State) (t : Nat) (f : Team → Team) : (s.modTeam t f).mem = s.mem := rfl
@[simp] theorem State.modTeam_mpoi (s : State) (t : Nat) (f : Team → Team) : (s.modTeam t f).mpoi = s.mpoi := rfl
@[simp] theorem State.modTeam_hostLines (s : State) (t : Nat) (f : Team → Team) : (s.modTeam t f).hostLines = s.hostLines := rfl
@[simp] theorem State.modTeam_spad (s : State) (t : Nat) (f : Team → Team) : (s.modTeam t f).spad = s.spad := rfl
@[simp] theorem State.modTeam_spoi (s : State) (t : Nat) (f : Team → Team) : (s.modTeam t f).spoi = s.spoi := rfl
@[simp] theorem State.modTeam_sown (s : State) (t : Nat) (f : Team → Team) : (s.modTeam t f).sown = s.sown := rfl
@[simp] theorem State.modTeam_bank (s : State) (t : Nat) (f : Team → Team) : (s.modTeam t f).bank = s.bank := rfl
@[simp] theorem State.modTeam_bpoi (s : State) (t : Nat) (f : Team → Team) : (s.modTeam t f).bpoi = s.bpoi := rfl
@[simp] theorem State.modTeam_bred (s : State) (t : Nat) (f : Team → Team) : (s.modTeam t f).bred = s.bred := rfl
@[simp] theorem State.modTeam_ecc (s : State) (t : Nat) (f : Team → Team) : (s.modTeam t f).ecc = s.ecc := rfl
@[simp] theorem State.modTeam_l2 (s : State) (t : Nat) (f : Team → Team) : (s.modTeam t f).l2 = s.l2 := rfl
@[simp] theorem State.modTeam_served (s : State) (t : Nat) (f : Team → Team) : (s.modTeam t f).served = s.served := rfl
@[simp] theorem State.modTeam_repLog (s : State) (t : Nat) (f : Team → Team) : (s.modTeam t f).repLog = s.repLog := rfl
@[simp] theorem State.modTeam_owner (s : State) (t : Nat) (f : Team → Team) : (s.modTeam t f).owner = s.owner := rfl
@[simp] theorem State.modTeam_retired (s : State) (t : Nat) (f : Team → Team) : (s.modTeam t f).retired = s.retired := rfl
@[simp] theorem State.modTeam_ops (s : State) (t : Nat) (f : Team → Team) : (s.modTeam t f).ops = s.ops := rfl
@[simp] theorem State.modTeam_copies (s : State) (t : Nat) (f : Team → Team) : (s.modTeam t f).copies = s.copies := rfl
@[simp] theorem State.modTeam_wakes (s : State) (t : Nat) (f : Team → Team) : (s.modTeam t f).wakes = s.wakes := rfl
@[simp] theorem State.modTeam_ctxs (s : State) (t : Nat) (f : Team → Team) : (s.modTeam t f).ctxs = s.ctxs := rfl
@[simp] theorem State.modTeam_parts (s : State) (t : Nat) (f : Team → Team) : (s.modTeam t f).parts = s.parts := rfl
@[simp] theorem State.modTeam_vfs (s : State) (t : Nat) (f : Team → Team) : (s.modTeam t f).vfs = s.vfs := rfl
@[simp] theorem State.modTeam_ports (s : State) (t : Nat) (f : Team → Team) : (s.modTeam t f).ports = s.ports := rfl
@[simp] theorem State.modTeam_cmds (s : State) (t : Nat) (f : Team → Team) : (s.modTeam t f).cmds = s.cmds := rfl
@[simp] theorem State.modTeam_flash (s : State) (t : Nat) (f : Team → Team) : (s.modTeam t f).flash = s.flash := rfl
@[simp] theorem State.modTeam_sites (s : State) (t : Nat) (f : Team → Team) : (s.modTeam t f).sites = s.sites := rfl
@[simp] theorem State.modTeam_booted (s : State) (t : Nat) (f : Team → Team) : (s.modTeam t f).booted = s.booted := rfl
@[simp] theorem State.modTeam_bootCode (s : State) (t : Nat) (f : Team → Team) : (s.modTeam t f).bootCode = s.bootCode := rfl
@[simp] theorem State.modTeam_pnow (s : State) (t : Nat) (f : Team → Team) : (s.modTeam t f).pnow = s.pnow := rfl
@[simp] theorem State.modTeam_pnows (s : State) (t : Nat) (f : Team → Team) : (s.modTeam t f).pnows = s.pnows := rfl
@[simp] theorem State.modTeam_ctlAt (s : State) (t : Nat) (f : Team → Team) : (s.modTeam t f).ctlAt = s.ctlAt := rfl
@[simp] theorem State.modTeam_plim (s : State) (t : Nat) (f : Team → Team) : (s.modTeam t f).plim = s.plim := rfl
@[simp] theorem State.modTeam_ovhd (s : State) (t : Nat) (f : Team → Team) : (s.modTeam t f).ovhd = s.ovhd := rfl
@[simp] theorem State.modTeam_limited (s : State) (t : Nat) (f : Team → Team) : (s.modTeam t f).limited = s.limited := rfl

/-! ### modCtx -/

@[simp] theorem State.modCtx_time (s : State) (c : Nat) (f : Ctx → Ctx) : (s.modCtx c f).time = s.time := rfl
@[simp] theorem State.modCtx_agenda (s : State) (c : Nat) (f : Ctx → Ctx) : (s.modCtx c f).agenda = s.agenda := rfl
@[simp] theorem State.modCtx_stage (s : State) (c : Nat) (f : Ctx → Ctx) : (s.modCtx c f).stage = s.stage := rfl
@[simp] theorem State.modCtx_turns (s : State) (c : Nat) (f : Ctx → Ctx) : (s.modCtx c f).turns = s.turns := rfl
@[simp] theorem State.modCtx_cur (s : State) (c : Nat) (f : Ctx → Ctx) : (s.modCtx c f).cur = s.cur := rfl
@[simp] theorem State.modCtx_nextId (s : State) (c : Nat) (f : Ctx → Ctx) : (s.modCtx c f).nextId = s.nextId := rfl
@[simp] theorem State.modCtx_freeCtr (s : State) (c : Nat) (f : Ctx → Ctx) : (s.modCtx c f).freeCtr = s.freeCtr := rfl
@[simp] theorem State.modCtx_out (s : State) (c : Nat) (f : Ctx → Ctx) : (s.modCtx c f).out = s.out := rfl
@[simp] theorem State.modCtx_groups (s : State) (c : Nat) (f : Ctx → Ctx) : (s.modCtx c f).groups = s.groups := rfl
@[simp] theorem State.modCtx_cores (s : State) (c : Nat) (f : Ctx → Ctx) : (s.modCtx c f).cores = s.cores := rfl
@[simp] theorem State.modCtx_tiles (s : State) (c : Nat) (f : Ctx → Ctx) : (s.modCtx c f).tiles = s.tiles := rfl
@[simp] theorem State.modCtx_routers (s : State) (c : Nat) (f : Ctx → Ctx) : (s.modCtx c f).routers = s.routers := rfl
@[simp] theorem State.modCtx_flits (s : State) (c : Nat) (f : Ctx → Ctx) : (s.modCtx c f).flits = s.flits := rfl
@[simp] theorem State.modCtx_mem (s : State) (c : Nat) (f : Ctx → Ctx) : (s.modCtx c f).mem = s.mem := rfl
@[simp] theorem State.modCtx_mpoi (s : State) (c : Nat) (f : Ctx → Ctx) : (s.modCtx c f).mpoi = s.mpoi := rfl
@[simp] theorem State.modCtx_hostLines (s : State) (c : Nat) (f : Ctx → Ctx) : (s.modCtx c f).hostLines = s.hostLines := rfl
@[simp] theorem State.modCtx_spad (s : State) (c : Nat) (f : Ctx → Ctx) : (s.modCtx c f).spad = s.spad := rfl
@[simp] theorem State.modCtx_spoi (s : State) (c : Nat) (f : Ctx → Ctx) : (s.modCtx c f).spoi = s.spoi := rfl
@[simp] theorem State.modCtx_sown (s : State) (c : Nat) (f : Ctx → Ctx) : (s.modCtx c f).sown = s.sown := rfl
@[simp] theorem State.modCtx_bank (s : State) (c : Nat) (f : Ctx → Ctx) : (s.modCtx c f).bank = s.bank := rfl
@[simp] theorem State.modCtx_bpoi (s : State) (c : Nat) (f : Ctx → Ctx) : (s.modCtx c f).bpoi = s.bpoi := rfl
@[simp] theorem State.modCtx_bred (s : State) (c : Nat) (f : Ctx → Ctx) : (s.modCtx c f).bred = s.bred := rfl
@[simp] theorem State.modCtx_ecc (s : State) (c : Nat) (f : Ctx → Ctx) : (s.modCtx c f).ecc = s.ecc := rfl
@[simp] theorem State.modCtx_l2 (s : State) (c : Nat) (f : Ctx → Ctx) : (s.modCtx c f).l2 = s.l2 := rfl
@[simp] theorem State.modCtx_served (s : State) (c : Nat) (f : Ctx → Ctx) : (s.modCtx c f).served = s.served := rfl
@[simp] theorem State.modCtx_repLog (s : State) (c : Nat) (f : Ctx → Ctx) : (s.modCtx c f).repLog = s.repLog := rfl
@[simp] theorem State.modCtx_owner (s : State) (c : Nat) (f : Ctx → Ctx) : (s.modCtx c f).owner = s.owner := rfl
@[simp] theorem State.modCtx_retired (s : State) (c : Nat) (f : Ctx → Ctx) : (s.modCtx c f).retired = s.retired := rfl
@[simp] theorem State.modCtx_ops (s : State) (c : Nat) (f : Ctx → Ctx) : (s.modCtx c f).ops = s.ops := rfl
@[simp] theorem State.modCtx_copies (s : State) (c : Nat) (f : Ctx → Ctx) : (s.modCtx c f).copies = s.copies := rfl
@[simp] theorem State.modCtx_wakes (s : State) (c : Nat) (f : Ctx → Ctx) : (s.modCtx c f).wakes = s.wakes := rfl
@[simp] theorem State.modCtx_teams (s : State) (c : Nat) (f : Ctx → Ctx) : (s.modCtx c f).teams = s.teams := rfl
@[simp] theorem State.modCtx_parts (s : State) (c : Nat) (f : Ctx → Ctx) : (s.modCtx c f).parts = s.parts := rfl
@[simp] theorem State.modCtx_vfs (s : State) (c : Nat) (f : Ctx → Ctx) : (s.modCtx c f).vfs = s.vfs := rfl
@[simp] theorem State.modCtx_ports (s : State) (c : Nat) (f : Ctx → Ctx) : (s.modCtx c f).ports = s.ports := rfl
@[simp] theorem State.modCtx_cmds (s : State) (c : Nat) (f : Ctx → Ctx) : (s.modCtx c f).cmds = s.cmds := rfl
@[simp] theorem State.modCtx_flash (s : State) (c : Nat) (f : Ctx → Ctx) : (s.modCtx c f).flash = s.flash := rfl
@[simp] theorem State.modCtx_sites (s : State) (c : Nat) (f : Ctx → Ctx) : (s.modCtx c f).sites = s.sites := rfl
@[simp] theorem State.modCtx_booted (s : State) (c : Nat) (f : Ctx → Ctx) : (s.modCtx c f).booted = s.booted := rfl
@[simp] theorem State.modCtx_bootCode (s : State) (c : Nat) (f : Ctx → Ctx) : (s.modCtx c f).bootCode = s.bootCode := rfl
@[simp] theorem State.modCtx_pnow (s : State) (c : Nat) (f : Ctx → Ctx) : (s.modCtx c f).pnow = s.pnow := rfl
@[simp] theorem State.modCtx_pnows (s : State) (c : Nat) (f : Ctx → Ctx) : (s.modCtx c f).pnows = s.pnows := rfl
@[simp] theorem State.modCtx_ctlAt (s : State) (c : Nat) (f : Ctx → Ctx) : (s.modCtx c f).ctlAt = s.ctlAt := rfl
@[simp] theorem State.modCtx_plim (s : State) (c : Nat) (f : Ctx → Ctx) : (s.modCtx c f).plim = s.plim := rfl
@[simp] theorem State.modCtx_ovhd (s : State) (c : Nat) (f : Ctx → Ctx) : (s.modCtx c f).ovhd = s.ovhd := rfl
@[simp] theorem State.modCtx_limited (s : State) (c : Nat) (f : Ctx → Ctx) : (s.modCtx c f).limited = s.limited := rfl

/-! ### modPart -/

@[simp] theorem State.modPart_time (s : State) (p : Nat) (f : Part → Part) : (s.modPart p f).time = s.time := rfl
@[simp] theorem State.modPart_agenda (s : State) (p : Nat) (f : Part → Part) : (s.modPart p f).agenda = s.agenda := rfl
@[simp] theorem State.modPart_stage (s : State) (p : Nat) (f : Part → Part) : (s.modPart p f).stage = s.stage := rfl
@[simp] theorem State.modPart_turns (s : State) (p : Nat) (f : Part → Part) : (s.modPart p f).turns = s.turns := rfl
@[simp] theorem State.modPart_cur (s : State) (p : Nat) (f : Part → Part) : (s.modPart p f).cur = s.cur := rfl
@[simp] theorem State.modPart_nextId (s : State) (p : Nat) (f : Part → Part) : (s.modPart p f).nextId = s.nextId := rfl
@[simp] theorem State.modPart_freeCtr (s : State) (p : Nat) (f : Part → Part) : (s.modPart p f).freeCtr = s.freeCtr := rfl
@[simp] theorem State.modPart_out (s : State) (p : Nat) (f : Part → Part) : (s.modPart p f).out = s.out := rfl
@[simp] theorem State.modPart_groups (s : State) (p : Nat) (f : Part → Part) : (s.modPart p f).groups = s.groups := rfl
@[simp] theorem State.modPart_cores (s : State) (p : Nat) (f : Part → Part) : (s.modPart p f).cores = s.cores := rfl
@[simp] theorem State.modPart_tiles (s : State) (p : Nat) (f : Part → Part) : (s.modPart p f).tiles = s.tiles := rfl
@[simp] theorem State.modPart_routers (s : State) (p : Nat) (f : Part → Part) : (s.modPart p f).routers = s.routers := rfl
@[simp] theorem State.modPart_flits (s : State) (p : Nat) (f : Part → Part) : (s.modPart p f).flits = s.flits := rfl
@[simp] theorem State.modPart_mem (s : State) (p : Nat) (f : Part → Part) : (s.modPart p f).mem = s.mem := rfl
@[simp] theorem State.modPart_mpoi (s : State) (p : Nat) (f : Part → Part) : (s.modPart p f).mpoi = s.mpoi := rfl
@[simp] theorem State.modPart_hostLines (s : State) (p : Nat) (f : Part → Part) : (s.modPart p f).hostLines = s.hostLines := rfl
@[simp] theorem State.modPart_spad (s : State) (p : Nat) (f : Part → Part) : (s.modPart p f).spad = s.spad := rfl
@[simp] theorem State.modPart_spoi (s : State) (p : Nat) (f : Part → Part) : (s.modPart p f).spoi = s.spoi := rfl
@[simp] theorem State.modPart_sown (s : State) (p : Nat) (f : Part → Part) : (s.modPart p f).sown = s.sown := rfl
@[simp] theorem State.modPart_bank (s : State) (p : Nat) (f : Part → Part) : (s.modPart p f).bank = s.bank := rfl
@[simp] theorem State.modPart_bpoi (s : State) (p : Nat) (f : Part → Part) : (s.modPart p f).bpoi = s.bpoi := rfl
@[simp] theorem State.modPart_bred (s : State) (p : Nat) (f : Part → Part) : (s.modPart p f).bred = s.bred := rfl
@[simp] theorem State.modPart_ecc (s : State) (p : Nat) (f : Part → Part) : (s.modPart p f).ecc = s.ecc := rfl
@[simp] theorem State.modPart_l2 (s : State) (p : Nat) (f : Part → Part) : (s.modPart p f).l2 = s.l2 := rfl
@[simp] theorem State.modPart_served (s : State) (p : Nat) (f : Part → Part) : (s.modPart p f).served = s.served := rfl
@[simp] theorem State.modPart_repLog (s : State) (p : Nat) (f : Part → Part) : (s.modPart p f).repLog = s.repLog := rfl
@[simp] theorem State.modPart_owner (s : State) (p : Nat) (f : Part → Part) : (s.modPart p f).owner = s.owner := rfl
@[simp] theorem State.modPart_retired (s : State) (p : Nat) (f : Part → Part) : (s.modPart p f).retired = s.retired := rfl
@[simp] theorem State.modPart_ops (s : State) (p : Nat) (f : Part → Part) : (s.modPart p f).ops = s.ops := rfl
@[simp] theorem State.modPart_copies (s : State) (p : Nat) (f : Part → Part) : (s.modPart p f).copies = s.copies := rfl
@[simp] theorem State.modPart_wakes (s : State) (p : Nat) (f : Part → Part) : (s.modPart p f).wakes = s.wakes := rfl
@[simp] theorem State.modPart_teams (s : State) (p : Nat) (f : Part → Part) : (s.modPart p f).teams = s.teams := rfl
@[simp] theorem State.modPart_ctxs (s : State) (p : Nat) (f : Part → Part) : (s.modPart p f).ctxs = s.ctxs := rfl
@[simp] theorem State.modPart_vfs (s : State) (p : Nat) (f : Part → Part) : (s.modPart p f).vfs = s.vfs := rfl
@[simp] theorem State.modPart_ports (s : State) (p : Nat) (f : Part → Part) : (s.modPart p f).ports = s.ports := rfl
@[simp] theorem State.modPart_cmds (s : State) (p : Nat) (f : Part → Part) : (s.modPart p f).cmds = s.cmds := rfl
@[simp] theorem State.modPart_flash (s : State) (p : Nat) (f : Part → Part) : (s.modPart p f).flash = s.flash := rfl
@[simp] theorem State.modPart_sites (s : State) (p : Nat) (f : Part → Part) : (s.modPart p f).sites = s.sites := rfl
@[simp] theorem State.modPart_booted (s : State) (p : Nat) (f : Part → Part) : (s.modPart p f).booted = s.booted := rfl
@[simp] theorem State.modPart_bootCode (s : State) (p : Nat) (f : Part → Part) : (s.modPart p f).bootCode = s.bootCode := rfl
@[simp] theorem State.modPart_pnow (s : State) (p : Nat) (f : Part → Part) : (s.modPart p f).pnow = s.pnow := rfl
@[simp] theorem State.modPart_pnows (s : State) (p : Nat) (f : Part → Part) : (s.modPart p f).pnows = s.pnows := rfl
@[simp] theorem State.modPart_ctlAt (s : State) (p : Nat) (f : Part → Part) : (s.modPart p f).ctlAt = s.ctlAt := rfl
@[simp] theorem State.modPart_plim (s : State) (p : Nat) (f : Part → Part) : (s.modPart p f).plim = s.plim := rfl
@[simp] theorem State.modPart_ovhd (s : State) (p : Nat) (f : Part → Part) : (s.modPart p f).ovhd = s.ovhd := rfl
@[simp] theorem State.modPart_limited (s : State) (p : Nat) (f : Part → Part) : (s.modPart p f).limited = s.limited := rfl

/-! ### modVf -/

@[simp] theorem State.modVf_time (s : State) (v : Nat) (f : Vf → Vf) : (s.modVf v f).time = s.time := rfl
@[simp] theorem State.modVf_agenda (s : State) (v : Nat) (f : Vf → Vf) : (s.modVf v f).agenda = s.agenda := rfl
@[simp] theorem State.modVf_stage (s : State) (v : Nat) (f : Vf → Vf) : (s.modVf v f).stage = s.stage := rfl
@[simp] theorem State.modVf_turns (s : State) (v : Nat) (f : Vf → Vf) : (s.modVf v f).turns = s.turns := rfl
@[simp] theorem State.modVf_cur (s : State) (v : Nat) (f : Vf → Vf) : (s.modVf v f).cur = s.cur := rfl
@[simp] theorem State.modVf_nextId (s : State) (v : Nat) (f : Vf → Vf) : (s.modVf v f).nextId = s.nextId := rfl
@[simp] theorem State.modVf_freeCtr (s : State) (v : Nat) (f : Vf → Vf) : (s.modVf v f).freeCtr = s.freeCtr := rfl
@[simp] theorem State.modVf_out (s : State) (v : Nat) (f : Vf → Vf) : (s.modVf v f).out = s.out := rfl
@[simp] theorem State.modVf_groups (s : State) (v : Nat) (f : Vf → Vf) : (s.modVf v f).groups = s.groups := rfl
@[simp] theorem State.modVf_cores (s : State) (v : Nat) (f : Vf → Vf) : (s.modVf v f).cores = s.cores := rfl
@[simp] theorem State.modVf_tiles (s : State) (v : Nat) (f : Vf → Vf) : (s.modVf v f).tiles = s.tiles := rfl
@[simp] theorem State.modVf_routers (s : State) (v : Nat) (f : Vf → Vf) : (s.modVf v f).routers = s.routers := rfl
@[simp] theorem State.modVf_flits (s : State) (v : Nat) (f : Vf → Vf) : (s.modVf v f).flits = s.flits := rfl
@[simp] theorem State.modVf_mem (s : State) (v : Nat) (f : Vf → Vf) : (s.modVf v f).mem = s.mem := rfl
@[simp] theorem State.modVf_mpoi (s : State) (v : Nat) (f : Vf → Vf) : (s.modVf v f).mpoi = s.mpoi := rfl
@[simp] theorem State.modVf_hostLines (s : State) (v : Nat) (f : Vf → Vf) : (s.modVf v f).hostLines = s.hostLines := rfl
@[simp] theorem State.modVf_spad (s : State) (v : Nat) (f : Vf → Vf) : (s.modVf v f).spad = s.spad := rfl
@[simp] theorem State.modVf_spoi (s : State) (v : Nat) (f : Vf → Vf) : (s.modVf v f).spoi = s.spoi := rfl
@[simp] theorem State.modVf_sown (s : State) (v : Nat) (f : Vf → Vf) : (s.modVf v f).sown = s.sown := rfl
@[simp] theorem State.modVf_bank (s : State) (v : Nat) (f : Vf → Vf) : (s.modVf v f).bank = s.bank := rfl
@[simp] theorem State.modVf_bpoi (s : State) (v : Nat) (f : Vf → Vf) : (s.modVf v f).bpoi = s.bpoi := rfl
@[simp] theorem State.modVf_bred (s : State) (v : Nat) (f : Vf → Vf) : (s.modVf v f).bred = s.bred := rfl
@[simp] theorem State.modVf_ecc (s : State) (v : Nat) (f : Vf → Vf) : (s.modVf v f).ecc = s.ecc := rfl
@[simp] theorem State.modVf_l2 (s : State) (v : Nat) (f : Vf → Vf) : (s.modVf v f).l2 = s.l2 := rfl
@[simp] theorem State.modVf_served (s : State) (v : Nat) (f : Vf → Vf) : (s.modVf v f).served = s.served := rfl
@[simp] theorem State.modVf_repLog (s : State) (v : Nat) (f : Vf → Vf) : (s.modVf v f).repLog = s.repLog := rfl
@[simp] theorem State.modVf_owner (s : State) (v : Nat) (f : Vf → Vf) : (s.modVf v f).owner = s.owner := rfl
@[simp] theorem State.modVf_retired (s : State) (v : Nat) (f : Vf → Vf) : (s.modVf v f).retired = s.retired := rfl
@[simp] theorem State.modVf_ops (s : State) (v : Nat) (f : Vf → Vf) : (s.modVf v f).ops = s.ops := rfl
@[simp] theorem State.modVf_copies (s : State) (v : Nat) (f : Vf → Vf) : (s.modVf v f).copies = s.copies := rfl
@[simp] theorem State.modVf_wakes (s : State) (v : Nat) (f : Vf → Vf) : (s.modVf v f).wakes = s.wakes := rfl
@[simp] theorem State.modVf_teams (s : State) (v : Nat) (f : Vf → Vf) : (s.modVf v f).teams = s.teams := rfl
@[simp] theorem State.modVf_ctxs (s : State) (v : Nat) (f : Vf → Vf) : (s.modVf v f).ctxs = s.ctxs := rfl
@[simp] theorem State.modVf_parts (s : State) (v : Nat) (f : Vf → Vf) : (s.modVf v f).parts = s.parts := rfl
@[simp] theorem State.modVf_ports (s : State) (v : Nat) (f : Vf → Vf) : (s.modVf v f).ports = s.ports := rfl
@[simp] theorem State.modVf_cmds (s : State) (v : Nat) (f : Vf → Vf) : (s.modVf v f).cmds = s.cmds := rfl
@[simp] theorem State.modVf_flash (s : State) (v : Nat) (f : Vf → Vf) : (s.modVf v f).flash = s.flash := rfl
@[simp] theorem State.modVf_sites (s : State) (v : Nat) (f : Vf → Vf) : (s.modVf v f).sites = s.sites := rfl
@[simp] theorem State.modVf_booted (s : State) (v : Nat) (f : Vf → Vf) : (s.modVf v f).booted = s.booted := rfl
@[simp] theorem State.modVf_bootCode (s : State) (v : Nat) (f : Vf → Vf) : (s.modVf v f).bootCode = s.bootCode := rfl
@[simp] theorem State.modVf_pnow (s : State) (v : Nat) (f : Vf → Vf) : (s.modVf v f).pnow = s.pnow := rfl
@[simp] theorem State.modVf_pnows (s : State) (v : Nat) (f : Vf → Vf) : (s.modVf v f).pnows = s.pnows := rfl
@[simp] theorem State.modVf_ctlAt (s : State) (v : Nat) (f : Vf → Vf) : (s.modVf v f).ctlAt = s.ctlAt := rfl
@[simp] theorem State.modVf_plim (s : State) (v : Nat) (f : Vf → Vf) : (s.modVf v f).plim = s.plim := rfl
@[simp] theorem State.modVf_ovhd (s : State) (v : Nat) (f : Vf → Vf) : (s.modVf v f).ovhd = s.ovhd := rfl
@[simp] theorem State.modVf_limited (s : State) (v : Nat) (f : Vf → Vf) : (s.modVf v f).limited = s.limited := rfl

/-! ### modPort -/

@[simp] theorem State.modPort_time (s : State) (p : Nat) (f : Port → Port) : (s.modPort p f).time = s.time := rfl
@[simp] theorem State.modPort_agenda (s : State) (p : Nat) (f : Port → Port) : (s.modPort p f).agenda = s.agenda := rfl
@[simp] theorem State.modPort_stage (s : State) (p : Nat) (f : Port → Port) : (s.modPort p f).stage = s.stage := rfl
@[simp] theorem State.modPort_turns (s : State) (p : Nat) (f : Port → Port) : (s.modPort p f).turns = s.turns := rfl
@[simp] theorem State.modPort_cur (s : State) (p : Nat) (f : Port → Port) : (s.modPort p f).cur = s.cur := rfl
@[simp] theorem State.modPort_nextId (s : State) (p : Nat) (f : Port → Port) : (s.modPort p f).nextId = s.nextId := rfl
@[simp] theorem State.modPort_freeCtr (s : State) (p : Nat) (f : Port → Port) : (s.modPort p f).freeCtr = s.freeCtr := rfl
@[simp] theorem State.modPort_out (s : State) (p : Nat) (f : Port → Port) : (s.modPort p f).out = s.out := rfl
@[simp] theorem State.modPort_groups (s : State) (p : Nat) (f : Port → Port) : (s.modPort p f).groups = s.groups := rfl
@[simp] theorem State.modPort_cores (s : State) (p : Nat) (f : Port → Port) : (s.modPort p f).cores = s.cores := rfl
@[simp] theorem State.modPort_tiles (s : State) (p : Nat) (f : Port → Port) : (s.modPort p f).tiles = s.tiles := rfl
@[simp] theorem State.modPort_routers (s : State) (p : Nat) (f : Port → Port) : (s.modPort p f).routers = s.routers := rfl
@[simp] theorem State.modPort_flits (s : State) (p : Nat) (f : Port → Port) : (s.modPort p f).flits = s.flits := rfl
@[simp] theorem State.modPort_mem (s : State) (p : Nat) (f : Port → Port) : (s.modPort p f).mem = s.mem := rfl
@[simp] theorem State.modPort_mpoi (s : State) (p : Nat) (f : Port → Port) : (s.modPort p f).mpoi = s.mpoi := rfl
@[simp] theorem State.modPort_hostLines (s : State) (p : Nat) (f : Port → Port) : (s.modPort p f).hostLines = s.hostLines := rfl
@[simp] theorem State.modPort_spad (s : State) (p : Nat) (f : Port → Port) : (s.modPort p f).spad = s.spad := rfl
@[simp] theorem State.modPort_spoi (s : State) (p : Nat) (f : Port → Port) : (s.modPort p f).spoi = s.spoi := rfl
@[simp] theorem State.modPort_sown (s : State) (p : Nat) (f : Port → Port) : (s.modPort p f).sown = s.sown := rfl
@[simp] theorem State.modPort_bank (s : State) (p : Nat) (f : Port → Port) : (s.modPort p f).bank = s.bank := rfl
@[simp] theorem State.modPort_bpoi (s : State) (p : Nat) (f : Port → Port) : (s.modPort p f).bpoi = s.bpoi := rfl
@[simp] theorem State.modPort_bred (s : State) (p : Nat) (f : Port → Port) : (s.modPort p f).bred = s.bred := rfl
@[simp] theorem State.modPort_ecc (s : State) (p : Nat) (f : Port → Port) : (s.modPort p f).ecc = s.ecc := rfl
@[simp] theorem State.modPort_l2 (s : State) (p : Nat) (f : Port → Port) : (s.modPort p f).l2 = s.l2 := rfl
@[simp] theorem State.modPort_served (s : State) (p : Nat) (f : Port → Port) : (s.modPort p f).served = s.served := rfl
@[simp] theorem State.modPort_repLog (s : State) (p : Nat) (f : Port → Port) : (s.modPort p f).repLog = s.repLog := rfl
@[simp] theorem State.modPort_owner (s : State) (p : Nat) (f : Port → Port) : (s.modPort p f).owner = s.owner := rfl
@[simp] theorem State.modPort_retired (s : State) (p : Nat) (f : Port → Port) : (s.modPort p f).retired = s.retired := rfl
@[simp] theorem State.modPort_ops (s : State) (p : Nat) (f : Port → Port) : (s.modPort p f).ops = s.ops := rfl
@[simp] theorem State.modPort_copies (s : State) (p : Nat) (f : Port → Port) : (s.modPort p f).copies = s.copies := rfl
@[simp] theorem State.modPort_wakes (s : State) (p : Nat) (f : Port → Port) : (s.modPort p f).wakes = s.wakes := rfl
@[simp] theorem State.modPort_teams (s : State) (p : Nat) (f : Port → Port) : (s.modPort p f).teams = s.teams := rfl
@[simp] theorem State.modPort_ctxs (s : State) (p : Nat) (f : Port → Port) : (s.modPort p f).ctxs = s.ctxs := rfl
@[simp] theorem State.modPort_parts (s : State) (p : Nat) (f : Port → Port) : (s.modPort p f).parts = s.parts := rfl
@[simp] theorem State.modPort_vfs (s : State) (p : Nat) (f : Port → Port) : (s.modPort p f).vfs = s.vfs := rfl
@[simp] theorem State.modPort_cmds (s : State) (p : Nat) (f : Port → Port) : (s.modPort p f).cmds = s.cmds := rfl
@[simp] theorem State.modPort_flash (s : State) (p : Nat) (f : Port → Port) : (s.modPort p f).flash = s.flash := rfl
@[simp] theorem State.modPort_sites (s : State) (p : Nat) (f : Port → Port) : (s.modPort p f).sites = s.sites := rfl
@[simp] theorem State.modPort_booted (s : State) (p : Nat) (f : Port → Port) : (s.modPort p f).booted = s.booted := rfl
@[simp] theorem State.modPort_bootCode (s : State) (p : Nat) (f : Port → Port) : (s.modPort p f).bootCode = s.bootCode := rfl
@[simp] theorem State.modPort_pnow (s : State) (p : Nat) (f : Port → Port) : (s.modPort p f).pnow = s.pnow := rfl
@[simp] theorem State.modPort_pnows (s : State) (p : Nat) (f : Port → Port) : (s.modPort p f).pnows = s.pnows := rfl
@[simp] theorem State.modPort_ctlAt (s : State) (p : Nat) (f : Port → Port) : (s.modPort p f).ctlAt = s.ctlAt := rfl
@[simp] theorem State.modPort_plim (s : State) (p : Nat) (f : Port → Port) : (s.modPort p f).plim = s.plim := rfl
@[simp] theorem State.modPort_ovhd (s : State) (p : Nat) (f : Port → Port) : (s.modPort p f).ovhd = s.ovhd := rfl
@[simp] theorem State.modPort_limited (s : State) (p : Nat) (f : Port → Port) : (s.modPort p f).limited = s.limited := rfl

/-! ### emit -/

@[simp] theorem State.emit_time (s : State) (o : Output) : (s.emit o).time = s.time := rfl
@[simp] theorem State.emit_agenda (s : State) (o : Output) : (s.emit o).agenda = s.agenda := rfl
@[simp] theorem State.emit_stage (s : State) (o : Output) : (s.emit o).stage = s.stage := rfl
@[simp] theorem State.emit_turns (s : State) (o : Output) : (s.emit o).turns = s.turns := rfl
@[simp] theorem State.emit_cur (s : State) (o : Output) : (s.emit o).cur = s.cur := rfl
@[simp] theorem State.emit_nextId (s : State) (o : Output) : (s.emit o).nextId = s.nextId := rfl
@[simp] theorem State.emit_freeCtr (s : State) (o : Output) : (s.emit o).freeCtr = s.freeCtr := rfl
@[simp] theorem State.emit_groups (s : State) (o : Output) : (s.emit o).groups = s.groups := rfl
@[simp] theorem State.emit_cores (s : State) (o : Output) : (s.emit o).cores = s.cores := rfl
@[simp] theorem State.emit_tiles (s : State) (o : Output) : (s.emit o).tiles = s.tiles := rfl
@[simp] theorem State.emit_routers (s : State) (o : Output) : (s.emit o).routers = s.routers := rfl
@[simp] theorem State.emit_flits (s : State) (o : Output) : (s.emit o).flits = s.flits := rfl
@[simp] theorem State.emit_mem (s : State) (o : Output) : (s.emit o).mem = s.mem := rfl
@[simp] theorem State.emit_mpoi (s : State) (o : Output) : (s.emit o).mpoi = s.mpoi := rfl
@[simp] theorem State.emit_hostLines (s : State) (o : Output) : (s.emit o).hostLines = s.hostLines := rfl
@[simp] theorem State.emit_spad (s : State) (o : Output) : (s.emit o).spad = s.spad := rfl
@[simp] theorem State.emit_spoi (s : State) (o : Output) : (s.emit o).spoi = s.spoi := rfl
@[simp] theorem State.emit_sown (s : State) (o : Output) : (s.emit o).sown = s.sown := rfl
@[simp] theorem State.emit_bank (s : State) (o : Output) : (s.emit o).bank = s.bank := rfl
@[simp] theorem State.emit_bpoi (s : State) (o : Output) : (s.emit o).bpoi = s.bpoi := rfl
@[simp] theorem State.emit_bred (s : State) (o : Output) : (s.emit o).bred = s.bred := rfl
@[simp] theorem State.emit_ecc (s : State) (o : Output) : (s.emit o).ecc = s.ecc := rfl
@[simp] theorem State.emit_l2 (s : State) (o : Output) : (s.emit o).l2 = s.l2 := rfl
@[simp] theorem State.emit_served (s : State) (o : Output) : (s.emit o).served = s.served := rfl
@[simp] theorem State.emit_repLog (s : State) (o : Output) : (s.emit o).repLog = s.repLog := rfl
@[simp] theorem State.emit_owner (s : State) (o : Output) : (s.emit o).owner = s.owner := rfl
@[simp] theorem State.emit_retired (s : State) (o : Output) : (s.emit o).retired = s.retired := rfl
@[simp] theorem State.emit_ops (s : State) (o : Output) : (s.emit o).ops = s.ops := rfl
@[simp] theorem State.emit_copies (s : State) (o : Output) : (s.emit o).copies = s.copies := rfl
@[simp] theorem State.emit_wakes (s : State) (o : Output) : (s.emit o).wakes = s.wakes := rfl
@[simp] theorem State.emit_teams (s : State) (o : Output) : (s.emit o).teams = s.teams := rfl
@[simp] theorem State.emit_ctxs (s : State) (o : Output) : (s.emit o).ctxs = s.ctxs := rfl
@[simp] theorem State.emit_parts (s : State) (o : Output) : (s.emit o).parts = s.parts := rfl
@[simp] theorem State.emit_vfs (s : State) (o : Output) : (s.emit o).vfs = s.vfs := rfl
@[simp] theorem State.emit_ports (s : State) (o : Output) : (s.emit o).ports = s.ports := rfl
@[simp] theorem State.emit_cmds (s : State) (o : Output) : (s.emit o).cmds = s.cmds := rfl
@[simp] theorem State.emit_flash (s : State) (o : Output) : (s.emit o).flash = s.flash := rfl
@[simp] theorem State.emit_sites (s : State) (o : Output) : (s.emit o).sites = s.sites := rfl
@[simp] theorem State.emit_booted (s : State) (o : Output) : (s.emit o).booted = s.booted := rfl
@[simp] theorem State.emit_bootCode (s : State) (o : Output) : (s.emit o).bootCode = s.bootCode := rfl
@[simp] theorem State.emit_pnow (s : State) (o : Output) : (s.emit o).pnow = s.pnow := rfl
@[simp] theorem State.emit_pnows (s : State) (o : Output) : (s.emit o).pnows = s.pnows := rfl
@[simp] theorem State.emit_ctlAt (s : State) (o : Output) : (s.emit o).ctlAt = s.ctlAt := rfl
@[simp] theorem State.emit_plim (s : State) (o : Output) : (s.emit o).plim = s.plim := rfl
@[simp] theorem State.emit_ovhd (s : State) (o : Output) : (s.emit o).ovhd = s.ovhd := rfl
@[simp] theorem State.emit_limited (s : State) (o : Output) : (s.emit o).limited = s.limited := rfl

/-! ### Reading after an update -/

@[simp] theorem State.grp_setGrp (s : State) (k j : Nat) (g : Group) :
    (s.setGrp k g).grp j = if j = k then g else s.grp j := by
  simp [State.grp, State.setGrp, smGet_smSet]

@[simp] theorem State.grp_modGrp (s : State) (k j : Nat) (f : Group → Group) :
    (s.modGrp k f).grp j = if j = k then f (s.grp k) else s.grp j := by
  simp [State.modGrp]

@[simp] theorem State.core_modCore (s : State) (i j : Nat) (f : Core → Core) :
    (s.modCore i f).core j = if j = i then f (s.core i) else s.core j := by
  simp [State.core, State.modCore, smGet_smSet]

@[simp] theorem State.tile_modTile (s : State) (i j : Nat) (f : Tile → Tile) :
    (s.modTile i f).tile j = if j = i then f (s.tile i) else s.tile j := by
  simp [State.tile, State.modTile, smGet_smSet]

@[simp] theorem State.router_modRouter (s : State) (i j : Nat) (f : Router → Router) :
    (s.modRouter i f).router j = if j = i then f (s.router i) else s.router j := by
  simp [State.router, State.modRouter, smGet_smSet]

@[simp] theorem State.team_modTeam (s : State) (i j : Nat) (f : Team → Team) :
    (s.modTeam i f).team j = if j = i then f (s.team i) else s.team j := by
  simp [State.team, State.modTeam, smGet_smSet]

@[simp] theorem State.ctx_modCtx (s : State) (i j : Nat) (f : Ctx → Ctx) :
    (s.modCtx i f).ctx j = if j = i then f (s.ctx i) else s.ctx j := by
  simp [State.ctx, State.modCtx, smGet_smSet]

@[simp] theorem State.part_modPart (s : State) (i j : Nat) (f : Part → Part) :
    (s.modPart i f).part j = if j = i then f (s.part i) else s.part j := by
  simp [State.part, State.modPart, smGet_smSet]

@[simp] theorem State.vf_modVf (s : State) (i j : Nat) (f : Vf → Vf) :
    (s.modVf i f).vf j = if j = i then f (s.vf i) else s.vf j := by
  simp [State.vf, State.modVf, smGet_smSet]

@[simp] theorem State.port_modPort (s : State) (i j : Nat) (f : Port → Port) :
    (s.modPort i f).port j = if j = i then f (s.port i) else s.port j := by
  simp [State.port, State.modPort, smGet_smSet]

@[simp] theorem State.core_of_setGrp (s : State) (k : Nat) (g : Group) (j : Nat) : (s.setGrp k g).core j = s.core j := rfl
@[simp] theorem State.tile_of_setGrp (s : State) (k : Nat) (g : Group) (j : Nat) : (s.setGrp k g).tile j = s.tile j := rfl
@[simp] theorem State.router_of_setGrp (s : State) (k : Nat) (g : Group) (j : Nat) : (s.setGrp k g).router j = s.router j := rfl
@[simp] theorem State.team_of_setGrp (s : State) (k : Nat) (g : Group) (j : Nat) : (s.setGrp k g).team j = s.team j := rfl
@[simp] theorem State.ctx_of_setGrp (s : State) (k : Nat) (g : Group) (j : Nat) : (s.setGrp k g).ctx j = s.ctx j := rfl
@[simp] theorem State.part_of_setGrp (s : State) (k : Nat) (g : Group) (j : Nat) : (s.setGrp k g).part j = s.part j := rfl
@[simp] theorem State.vf_of_setGrp (s : State) (k : Nat) (g : Group) (j : Nat) : (s.setGrp k g).vf j = s.vf j := rfl
@[simp] theorem State.port_of_setGrp (s : State) (k : Nat) (g : Group) (j : Nat) : (s.setGrp k g).port j = s.port j := rfl
@[simp] theorem State.core_of_modGrp (s : State) (k : Nat) (f : Group → Group) (j : Nat) : (s.modGrp k f).core j = s.core j := rfl
@[simp] theorem State.tile_of_modGrp (s : State) (k : Nat) (f : Group → Group) (j : Nat) : (s.modGrp k f).tile j = s.tile j := rfl
@[simp] theorem State.router_of_modGrp (s : State) (k : Nat) (f : Group → Group) (j : Nat) : (s.modGrp k f).router j = s.router j := rfl
@[simp] theorem State.team_of_modGrp (s : State) (k : Nat) (f : Group → Group) (j : Nat) : (s.modGrp k f).team j = s.team j := rfl
@[simp] theorem State.ctx_of_modGrp (s : State) (k : Nat) (f : Group → Group) (j : Nat) : (s.modGrp k f).ctx j = s.ctx j := rfl
@[simp] theorem State.part_of_modGrp (s : State) (k : Nat) (f : Group → Group) (j : Nat) : (s.modGrp k f).part j = s.part j := rfl
@[simp] theorem State.vf_of_modGrp (s : State) (k : Nat) (f : Group → Group) (j : Nat) : (s.modGrp k f).vf j = s.vf j := rfl
@[simp] theorem State.port_of_modGrp (s : State) (k : Nat) (f : Group → Group) (j : Nat) : (s.modGrp k f).port j = s.port j := rfl
@[simp] theorem State.grp_of_modCore (s : State) (c : Nat) (f : Core → Core) (j : Nat) : (s.modCore c f).grp j = s.grp j := rfl
@[simp] theorem State.tile_of_modCore (s : State) (c : Nat) (f : Core → Core) (j : Nat) : (s.modCore c f).tile j = s.tile j := rfl
@[simp] theorem State.router_of_modCore (s : State) (c : Nat) (f : Core → Core) (j : Nat) : (s.modCore c f).router j = s.router j := rfl
@[simp] theorem State.team_of_modCore (s : State) (c : Nat) (f : Core → Core) (j : Nat) : (s.modCore c f).team j = s.team j := rfl
@[simp] theorem State.ctx_of_modCore (s : State) (c : Nat) (f : Core → Core) (j : Nat) : (s.modCore c f).ctx j = s.ctx j := rfl
@[simp] theorem State.part_of_modCore (s : State) (c : Nat) (f : Core → Core) (j : Nat) : (s.modCore c f).part j = s.part j := rfl
@[simp] theorem State.vf_of_modCore (s : State) (c : Nat) (f : Core → Core) (j : Nat) : (s.modCore c f).vf j = s.vf j := rfl
@[simp] theorem State.port_of_modCore (s : State) (c : Nat) (f : Core → Core) (j : Nat) : (s.modCore c f).port j = s.port j := rfl
@[simp] theorem State.grp_of_modTile (s : State) (t : Nat) (f : Tile → Tile) (j : Nat) : (s.modTile t f).grp j = s.grp j := rfl
@[simp] theorem State.core_of_modTile (s : State) (t : Nat) (f : Tile → Tile) (j : Nat) : (s.modTile t f).core j = s.core j := rfl
@[simp] theorem State.router_of_modTile (s : State) (t : Nat) (f : Tile → Tile) (j : Nat) : (s.modTile t f).router j = s.router j := rfl
@[simp] theorem State.team_of_modTile (s : State) (t : Nat) (f : Tile → Tile) (j : Nat) : (s.modTile t f).team j = s.team j := rfl
@[simp] theorem State.ctx_of_modTile (s : State) (t : Nat) (f : Tile → Tile) (j : Nat) : (s.modTile t f).ctx j = s.ctx j := rfl
@[simp] theorem State.part_of_modTile (s : State) (t : Nat) (f : Tile → Tile) (j : Nat) : (s.modTile t f).part j = s.part j := rfl
@[simp] theorem State.vf_of_modTile (s : State) (t : Nat) (f : Tile → Tile) (j : Nat) : (s.modTile t f).vf j = s.vf j := rfl
@[simp] theorem State.port_of_modTile (s : State) (t : Nat) (f : Tile → Tile) (j : Nat) : (s.modTile t f).port j = s.port j := rfl
@[simp] theorem State.grp_of_modRouter (s : State) (t : Nat) (f : Router → Router) (j : Nat) : (s.modRouter t f).grp j = s.grp j := rfl
@[simp] theorem State.core_of_modRouter (s : State) (t : Nat) (f : Router → Router) (j : Nat) : (s.modRouter t f).core j = s.core j := rfl
@[simp] theorem State.tile_of_modRouter (s : State) (t : Nat) (f : Router → Router) (j : Nat) : (s.modRouter t f).tile j = s.tile j := rfl
@[simp] theorem State.team_of_modRouter (s : State) (t : Nat) (f : Router → Router) (j : Nat) : (s.modRouter t f).team j = s.team j := rfl
@[simp] theorem State.ctx_of_modRouter (s : State) (t : Nat) (f : Router → Router) (j : Nat) : (s.modRouter t f).ctx j = s.ctx j := rfl
@[simp] theorem State.part_of_modRouter (s : State) (t : Nat) (f : Router → Router) (j : Nat) : (s.modRouter t f).part j = s.part j := rfl
@[simp] theorem State.vf_of_modRouter (s : State) (t : Nat) (f : Router → Router) (j : Nat) : (s.modRouter t f).vf j = s.vf j := rfl
@[simp] theorem State.port_of_modRouter (s : State) (t : Nat) (f : Router → Router) (j : Nat) : (s.modRouter t f).port j = s.port j := rfl
@[simp] theorem State.grp_of_modTeam (s : State) (t : Nat) (f : Team → Team) (j : Nat) : (s.modTeam t f).grp j = s.grp j := rfl
@[simp] theorem State.core_of_modTeam (s : State) (t : Nat) (f : Team → Team) (j : Nat) : (s.modTeam t f).core j = s.core j := rfl
@[simp] theorem State.tile_of_modTeam (s : State) (t : Nat) (f : Team → Team) (j : Nat) : (s.modTeam t f).tile j = s.tile j := rfl
@[simp] theorem State.router_of_modTeam (s : State) (t : Nat) (f : Team → Team) (j : Nat) : (s.modTeam t f).router j = s.router j := rfl
@[simp] theorem State.ctx_of_modTeam (s : State) (t : Nat) (f : Team → Team) (j : Nat) : (s.modTeam t f).ctx j = s.ctx j := rfl
@[simp] theorem State.part_of_modTeam (s : State) (t : Nat) (f : Team → Team) (j : Nat) : (s.modTeam t f).part j = s.part j := rfl
@[simp] theorem State.vf_of_modTeam (s : State) (t : Nat) (f : Team → Team) (j : Nat) : (s.modTeam t f).vf j = s.vf j := rfl
@[simp] theorem State.port_of_modTeam (s : State) (t : Nat) (f : Team → Team) (j : Nat) : (s.modTeam t f).port j = s.port j := rfl
@[simp] theorem State.grp_of_modCtx (s : State) (c : Nat) (f : Ctx → Ctx) (j : Nat) : (s.modCtx c f).grp j = s.grp j := rfl
@[simp] theorem State.core_of_modCtx (s : State) (c : Nat) (f : Ctx → Ctx) (j : Nat) : (s.modCtx c f).core j = s.core j := rfl
@[simp] theorem State.tile_of_modCtx (s : State) (c : Nat) (f : Ctx → Ctx) (j : Nat) : (s.modCtx c f).tile j = s.tile j := rfl
@[simp] theorem State.router_of_modCtx (s : State) (c : Nat) (f : Ctx → Ctx) (j : Nat) : (s.modCtx c f).router j = s.router j := rfl
@[simp] theorem State.team_of_modCtx (s : State) (c : Nat) (f : Ctx → Ctx) (j : Nat) : (s.modCtx c f).team j = s.team j := rfl
@[simp] theorem State.part_of_modCtx (s : State) (c : Nat) (f : Ctx → Ctx) (j : Nat) : (s.modCtx c f).part j = s.part j := rfl
@[simp] theorem State.vf_of_modCtx (s : State) (c : Nat) (f : Ctx → Ctx) (j : Nat) : (s.modCtx c f).vf j = s.vf j := rfl
@[simp] theorem State.port_of_modCtx (s : State) (c : Nat) (f : Ctx → Ctx) (j : Nat) : (s.modCtx c f).port j = s.port j := rfl
@[simp] theorem State.grp_of_modPart (s : State) (p : Nat) (f : Part → Part) (j : Nat) : (s.modPart p f).grp j = s.grp j := rfl
@[simp] theorem State.core_of_modPart (s : State) (p : Nat) (f : Part → Part) (j : Nat) : (s.modPart p f).core j = s.core j := rfl
@[simp] theorem State.tile_of_modPart (s : State) (p : Nat) (f : Part → Part) (j : Nat) : (s.modPart p f).tile j = s.tile j := rfl
@[simp] theorem State.router_of_modPart (s : State) (p : Nat) (f : Part → Part) (j : Nat) : (s.modPart p f).router j = s.router j := rfl
@[simp] theorem State.team_of_modPart (s : State) (p : Nat) (f : Part → Part) (j : Nat) : (s.modPart p f).team j = s.team j := rfl
@[simp] theorem State.ctx_of_modPart (s : State) (p : Nat) (f : Part → Part) (j : Nat) : (s.modPart p f).ctx j = s.ctx j := rfl
@[simp] theorem State.vf_of_modPart (s : State) (p : Nat) (f : Part → Part) (j : Nat) : (s.modPart p f).vf j = s.vf j := rfl
@[simp] theorem State.port_of_modPart (s : State) (p : Nat) (f : Part → Part) (j : Nat) : (s.modPart p f).port j = s.port j := rfl
@[simp] theorem State.grp_of_modVf (s : State) (v : Nat) (f : Vf → Vf) (j : Nat) : (s.modVf v f).grp j = s.grp j := rfl
@[simp] theorem State.core_of_modVf (s : State) (v : Nat) (f : Vf → Vf) (j : Nat) : (s.modVf v f).core j = s.core j := rfl
@[simp] theorem State.tile_of_modVf (s : State) (v : Nat) (f : Vf → Vf) (j : Nat) : (s.modVf v f).tile j = s.tile j := rfl
@[simp] theorem State.router_of_modVf (s : State) (v : Nat) (f : Vf → Vf) (j : Nat) : (s.modVf v f).router j = s.router j := rfl
@[simp] theorem State.team_of_modVf (s : State) (v : Nat) (f : Vf → Vf) (j : Nat) : (s.modVf v f).team j = s.team j := rfl
@[simp] theorem State.ctx_of_modVf (s : State) (v : Nat) (f : Vf → Vf) (j : Nat) : (s.modVf v f).ctx j = s.ctx j := rfl
@[simp] theorem State.part_of_modVf (s : State) (v : Nat) (f : Vf → Vf) (j : Nat) : (s.modVf v f).part j = s.part j := rfl
@[simp] theorem State.port_of_modVf (s : State) (v : Nat) (f : Vf → Vf) (j : Nat) : (s.modVf v f).port j = s.port j := rfl
@[simp] theorem State.grp_of_modPort (s : State) (p : Nat) (f : Port → Port) (j : Nat) : (s.modPort p f).grp j = s.grp j := rfl
@[simp] theorem State.core_of_modPort (s : State) (p : Nat) (f : Port → Port) (j : Nat) : (s.modPort p f).core j = s.core j := rfl
@[simp] theorem State.tile_of_modPort (s : State) (p : Nat) (f : Port → Port) (j : Nat) : (s.modPort p f).tile j = s.tile j := rfl
@[simp] theorem State.router_of_modPort (s : State) (p : Nat) (f : Port → Port) (j : Nat) : (s.modPort p f).router j = s.router j := rfl
@[simp] theorem State.team_of_modPort (s : State) (p : Nat) (f : Port → Port) (j : Nat) : (s.modPort p f).team j = s.team j := rfl
@[simp] theorem State.ctx_of_modPort (s : State) (p : Nat) (f : Port → Port) (j : Nat) : (s.modPort p f).ctx j = s.ctx j := rfl
@[simp] theorem State.part_of_modPort (s : State) (p : Nat) (f : Port → Port) (j : Nat) : (s.modPort p f).part j = s.part j := rfl
@[simp] theorem State.vf_of_modPort (s : State) (p : Nat) (f : Port → Port) (j : Nat) : (s.modPort p f).vf j = s.vf j := rfl
@[simp] theorem State.grp_of_emit (s : State) (o : Output) (j : Nat) : (s.emit o).grp j = s.grp j := rfl
@[simp] theorem State.core_of_emit (s : State) (o : Output) (j : Nat) : (s.emit o).core j = s.core j := rfl
@[simp] theorem State.tile_of_emit (s : State) (o : Output) (j : Nat) : (s.emit o).tile j = s.tile j := rfl
@[simp] theorem State.router_of_emit (s : State) (o : Output) (j : Nat) : (s.emit o).router j = s.router j := rfl
@[simp] theorem State.team_of_emit (s : State) (o : Output) (j : Nat) : (s.emit o).team j = s.team j := rfl
@[simp] theorem State.ctx_of_emit (s : State) (o : Output) (j : Nat) : (s.emit o).ctx j = s.ctx j := rfl
@[simp] theorem State.part_of_emit (s : State) (o : Output) (j : Nat) : (s.emit o).part j = s.part j := rfl
@[simp] theorem State.vf_of_emit (s : State) (o : Output) (j : Nat) : (s.emit o).vf j = s.vf j := rfl
@[simp] theorem State.port_of_emit (s : State) (o : Output) (j : Nat) : (s.emit o).port j = s.port j := rfl

end Sys2Proof.Machine
end

