-- ==== Sys2Proof/Laws/Issue.lean ====
section
/-!
SUPPORT. What the shared operations of an issue do: registers after a write, the fields of a group that the end of an
issue leaves, and the outcome of an issue by what its body does.
-/

namespace Sys2Proof.Machine

/-! ### Registers (R31) -/

@[simp] theorem Group.rdS_wrS (g : Group) (n m : Nat) (r : Reg) :
    (g.wrS n r).rdS m = if m = 0 then {} else if m = n then r else g.rdS m := by
  unfold Group.rdS Group.wrS
  by_cases hm : m = 0
  · simp [hm]
  · by_cases hn : n = 0
    · subst hn; simp [hm]
    · simp [hm, hn, smGet_smSet]

@[simp] theorem Group.rdS_zero (g : Group) : g.rdS 0 = {} := rfl

@[simp] theorem Group.rdV_wrV (g : Group) (n m : Nat) (mask : LaneMask) (r : LaneId → Reg) (l : LaneId) :
    (g.wrV n mask r).rdV m l = if m = n ∧ mask.getLsbD l then r l else g.rdV m l := by
  unfold Group.rdV Group.wrV
  simp only [smGet_smMod]
  by_cases h : m = n
  · subst h
    simp
  · simp [h]

@[simp] theorem Group.rdP_zero (g : Group) : g.rdP 0 = allLanes := rfl

theorem Group.rdP_wrP (g : Group) (n m : Nat) (mask x : LaneMask) :
    (g.wrP n mask x).rdP m =
      if m = 0 then allLanes else if m = n then (g.rdP m &&& ~~~mask) ||| (x &&& mask) else g.rdP m := by
  unfold Group.rdP Group.wrP
  by_cases hm : m = 0
  · simp [hm]
  · by_cases hn : n = 0
    · subst hn; simp [hm]
    · by_cases h : m = n
      · subst h; simp [hm, smGet_smMod]
      · simp [hm, hn, h, smGet_smMod]

@[simp] theorem Group.rdP_wrV (g : Group) (n m : Nat) (mask : LaneMask) (r : LaneId → Reg) : (g.wrV n mask r).rdP m = g.rdP m := by
  simp only [Group.rdP, Group.wrV]
@[simp] theorem Group.rdS_wrV (g : Group) (n m : Nat) (mask : LaneMask) (r : LaneId → Reg) : (g.wrV n mask r).rdS m = g.rdS m := by
  simp only [Group.rdS, Group.wrV]
@[simp] theorem Group.rdV_wrS (g : Group) (n m : Nat) (r : Reg) (l : LaneId) : (g.wrS n r).rdV m l = g.rdV m l := by
  unfold Group.wrS; split <;> rfl
@[simp] theorem Group.rdP_wrS (g : Group) (n m : Nat) (r : Reg) : (g.wrS n r).rdP m = g.rdP m := by
  unfold Group.wrS; split <;> rfl
@[simp] theorem Group.rdV_wrP (g : Group) (n m : Nat) (mask x : LaneMask) (l : LaneId) : (g.wrP n mask x).rdV m l = g.rdV m l := by
  unfold Group.wrP; split <;> rfl
@[simp] theorem Group.rdS_wrP (g : Group) (n m : Nat) (mask x : LaneMask) : (g.wrP n mask x).rdS m = g.rdS m := by
  unfold Group.wrP; split <;> rfl

/-! ### What the end of an issue leaves of a group -/

/-- Two groups hold the same registers, flags, trap registers, accumulators and batches. -/
def SameRegs (g h : Group) : Prop :=
  g.v = h.v ∧ g.s = h.s ∧ g.p = h.p ∧ g.fflags = h.fflags ∧ g.trapcause = h.trapcause ∧ g.trapaddr = h.trapaddr
    ∧ g.acc = h.acc ∧ g.ctl = h.ctl ∧ g.srseed = h.srseed ∧ g.bind = h.bind

theorem SameRegs.refl (g : Group) : SameRegs g g := ⟨rfl, rfl, rfl, rfl, rfl, rfl, rfl, rfl, rfl, rfl⟩

theorem SameRegs.trans {a b c : Group} (h : SameRegs a b) (k : SameRegs b c) : SameRegs a c := by
  obtain ⟨h1, h2, h3, h4, h5, h6, h7, h8, h9, h10⟩ := h
  obtain ⟨k1, k2, k3, k4, k5, k6, k7, k8, k9, k10⟩ := k
  exact ⟨h1.trans k1, h2.trans k2, h3.trans k3, h4.trans k4, h5.trans k5, h6.trans k6, h7.trans k7, h8.trans k8, h9.trans k9,
    h10.trans k10⟩

theorem SameRegs.rdS {g h : Group} (e : SameRegs g h) (n : Nat) : g.rdS n = h.rdS n := by
  unfold Group.rdS; rw [e.2.1]
theorem SameRegs.rdV {g h : Group} (e : SameRegs g h) (n : Nat) (l : LaneId) : g.rdV n l = h.rdV n l := by
  unfold Group.rdV; rw [e.1]
theorem SameRegs.rdP {g h : Group} (e : SameRegs g h) (n : Nat) : g.rdP n = h.rdP n := by
  unfold Group.rdP; rw [e.2.2.1]

/-- Sealing the open batch changes no register and no lane. -/
theorem sealOpen_sameRegs (g : Group) : SameRegs g.sealOpen g := by
  unfold Group.sealOpen
  split <;> exact SameRegs.refl _

theorem sealOpen_lane (g : Group) : g.sealOpen.lane = g.lane := by
  unfold Group.sealOpen
  split <;> rfl

/-- A choice between two groups keeps what both keep. -/
theorem SameRegs.ite {c : Prop} [Decidable c] {a b g : Group} (ha : SameRegs a g) (hb : SameRegs b g) : SameRegs (if c then a else b) g := by
  split
  · exact ha
  · exact hb

theorem settle_sameRegs (g : Group) : SameRegs g.settle g := by
  have h1 (x : Group) : SameRegs (if x.runnable = 0 then { x with lane := Vector.ofFn fun i => { x.lane[i] with yld := false } } else x) x :=
    .ite ⟨rfl, rfl, rfl, rfl, rfl, rfl, rfl, rfl, rfl, rfl⟩ (.refl _)
  have h2 (x : Group) : SameRegs (if x.parked = 0 then { x with elapsed := 0, sub := 0 } else x) x :=
    .ite ⟨rfl, rfl, rfl, rfl, rfl, rfl, rfl, rfl, rfl, rfl⟩ (.refl _)
  have h3 (x : Group) : SameRegs (if x.st = .ready || x.st = .held then
      if x.unexited = 0 then { x.sealOpen with st := .draining, hold := .none }
      else if x.select.isNone then { x with st := .held, hold := .parked } else x
    else x) x :=
    .ite (.ite (SameRegs.trans (b := x.sealOpen) ⟨rfl, rfl, rfl, rfl, rfl, rfl, rfl, rfl, rfl, rfl⟩ (sealOpen_sameRegs x))
      (.ite ⟨rfl, rfl, rfl, rfl, rfl, rfl, rfl, rfl, rfl, rfl⟩ (.refl _))) (.refl _)
  exact (h3 _).trans ((h2 _).trans (h1 _))

theorem issued_sameRegs (g : Group) (st : BitVec 3) (t : Word) : SameRegs (g.issued st t) g :=
  (settle_sameRegs _).trans ⟨rfl, rfl, rfl, rfl, rfl, rfl, rfl, rfl, rfl, rfl⟩

theorem advance_sameRegs (g : Group) (path : LaneMask) (sync : Bool) (pc : LaneId → Word) : SameRegs (g.advance path sync pc) g := by
  unfold Group.advance Group.mapLanes SameRegs
  simp only
  split <;> simp

theorem raiseSb_sameRegs (g : Group) (n : Option Nat) : SameRegs (g.raiseSb n) g := by
  cases n <;> exact SameRegs.refl _

theorem pushPend_sameRegs (g : Group) (env : Env) (t : Word) (fl : BitVec 6) : SameRegs (g.pushPend env t fl) g :=
  SameRegs.trans (b := g.raiseSb env.f.slot) ⟨rfl, rfl, rfl, rfl, rfl, rfl, rfl, rfl, rfl, rfl⟩ (raiseSb_sameRegs _ _)

@[simp] theorem consume_grp (s : State) (k n j : Nat) : (s.consume k n).grp j = s.grp j := by
  unfold State.consume State.ctxEvent State.ctxCount
  simp only
  repeat' split
  all_goals simp

/-- The group at the end of an issue, and no other group changes. -/
theorem complete_grp (s : State) (env : Env) (sync : Bool) (pc : LaneId → Word) (j : Nat) :
    (s.complete env sync pc).grp j =
      if j = env.k then (((s.grp env.k).replaces env).advance env.path sync pc).issued env.f.stall s.time else s.grp j := by
  simp [State.complete]

/-- A later write to a register changes no register value of the group now. -/
theorem replaces_sameRegs (g : Group) (env : Env) : SameRegs (g.replaces env) g := by
  unfold Group.replaces
  split <;> exact ⟨rfl, rfl, rfl, rfl, rfl, rfl, rfl, rfl, rfl, rfl⟩

theorem replaces_lane (g : Group) (env : Env) : (g.replaces env).lane = g.lane := by
  unfold Group.replaces
  split <;> rfl

theorem complete_sameRegs (s : State) (env : Env) (sync : Bool) (pc : LaneId → Word) :
    SameRegs ((s.complete env sync pc).grp env.k) (s.grp env.k) := by
  rw [complete_grp, if_pos rfl]
  exact (issued_sameRegs _ _ _).trans ((advance_sameRegs _ _ _ _).trans (replaces_sameRegs _ _))

theorem launch_sameRegs (s : State) (env : Env) (op : Op) : SameRegs ((s.launch env op).grp env.k) (s.grp env.k) := by
  have : (s.launch env op).grp env.k = (s.modGrp env.k fun g => g.raiseSb env.f.slot).grp env.k := rfl
  rw [this, State.grp_modGrp, if_pos rfl]
  exact raiseSb_sameRegs _ _

/-- A body that writes registers: the group holds them at the end of the issue. -/
theorem finish_regs_sameRegs (s : State) (env : Env) (sync : Bool) (g : Group) (fl : BitVec 6) (cons : Nat) :
    SameRegs ((finish s env sync (.regs g fl cons)).grp env.k) g := by
  unfold finish
  simp only
  split
  · rw [consume_grp]
    refine (complete_sameRegs _ _ _ _).trans ((launch_sameRegs _ _ _).trans ?_)
    rw [State.grp_setGrp, if_pos rfl]
    exact SameRegs.refl _
  · rw [consume_grp]
    refine (complete_sameRegs _ _ _ _).trans ?_
    rw [State.grp_setGrp, if_pos rfl]
    exact pushPend_sameRegs _ _ _ _

/-! ### Issues -/

/-- The group of an issue is the group whose turn it is. -/
theorem begin_k {maj : BitVec 7} {f : Fields} {s : State} {k : Nat} {env : Env} {sync : Bool}
    (h : begin maj f s k = .go env sync) : env.k = k ∧ env.f = f ∧ env.maj = maj := by
  unfold begin at h
  simp only at h
  repeat' split at h
  all_goals first
    | (cases h; exact ⟨rfl, rfl, rfl⟩)
    | cases h

/-- With sr.ctl.pt = 0 no instruction stops at poison (R106, R132). -/
theorem poisonGate_of_pt {env : Env} {s : State} {cons : Nat} {go : Out} (h : (s.grp env.k).pt = false) :
    poisonGate env s cons go = go := by
  simp [poisonGate, h]

/-! ### Lanes at the end of an issue (R89, R94) -/

theorem advance_pcv (g : Group) (path : LaneMask) (sync : Bool) (pc : LaneId → Word) (l : LaneId) (hp : path.getLsbD l = true)
    (hl : g.lane[l].st ≠ .exited) (hs : sync = true ∨ g.lane[l].st = .live) : (g.advance path sync pc).lane[l].pcv = pc l := by
  have hl2 : g.lane[(l : Nat)].st ≠ .exited := hl
  unfold Group.advance Group.mapLanes
  rcases hs with rfl | h
  · simp [hp, hl2]
  · have h2 : g.lane[(l : Nat)].st = .live := h
    cases sync <;> simp [hp, h2]

theorem settle_pcv (g : Group) (l : LaneId) : (g.settle).lane[l].pcv = g.lane[l].pcv := by
  have h1 (x : Group) : (if x.runnable = 0 then { x with lane := Vector.ofFn fun i => { x.lane[i] with yld := false } } else x).lane[l].pcv
      = x.lane[l].pcv := by
    split
    · simp
    · rfl
  have h2 (x : Group) : (if x.parked = 0 then { x with elapsed := 0, sub := 0 } else x).lane[l].pcv = x.lane[l].pcv := by
    split <;> rfl
  have h3 (x : Group) : (if x.st = .ready || x.st = .held then
      if x.unexited = 0 then { x.sealOpen with st := .draining, hold := .none }
      else if x.select.isNone then { x with st := .held, hold := .parked } else x
    else x).lane[l].pcv = x.lane[l].pcv := by
    split
    · split
      · exact congrArg (fun v : Vector Lane 32 => v[l].pcv) (sealOpen_lane x)
      · split <;> rfl
    · rfl
  exact (h3 _).trans ((h2 _).trans (h1 _))

theorem issued_pcv (g : Group) (st : BitVec 3) (t : Word) (l : LaneId) : (g.issued st t).lane[l].pcv = g.lane[l].pcv := settle_pcv _ l

/-- The lanes of a path have not exited, are live unless a group-synchronous instruction executes, and stand at the issue
address. -/
theorem select_path {g : Group} {sel : Sel} (h : g.select = some sel) (l : LaneId) (hp : sel.path.getLsbD l = true) :
    g.lane[l].st ≠ .exited ∧ (sel.sync = true ∨ g.lane[l].st = .live) ∧ g.lane[l].pcv = sel.pc := by
  unfold Group.select at h
  split at h
  · cases h
    have : (l : Nat) < 32 := l.isLt
    simp [this] at hp
    simp [hp]
  · simp only at h
    split at h
    · cases h
    · split at h
      · cases h
        rename_i h3
        simp only [List.all_eq_true, decide_eq_true_eq] at h3
        have : g.lane[l].st ≠ .exited := by
          simp [Group.unexited, Group.lanesWhere, l.isLt] at hp
          exact hp
        refine ⟨this, .inl rfl, h3 l ?_⟩
        simp [laneList, hp]
      · cases h

/-- The path of an issue is what the group selects. -/
theorem begin_select {maj : BitVec 7} {f : Fields} {s : State} {k : Nat} {env : Env} {sync : Bool}
    (h : begin maj f s k = .go env sync) :
    (s.grp k).select = some { pc := env.pc, path := env.path, sync } ∧ shape maj f = some env.sh
      ∧ env.nxt = BitVec.ofNat 64 ((env.pc.toNat + f.bytes) % 2 ^ 56)
      ∧ env.e = if env.sh.g0 then env.path
                else env.path &&& (s.grp k).guard f &&& (if restartable maj then ~~~(s.grp k).donemask else allLanes) := by
  unfold begin at h
  simp only at h
  repeat' split at h
  all_goals first
    | (cases h; exact ⟨by assumption, by assumption, rfl, by simp_all⟩)
    | cases h

/-- An instruction that issues with a true guard does what its body says. -/
theorem issueWith_go {maj : BitVec 7} {f : Fields} {s : State} {body : Env → State → Out} {env : Env}
    (h : begin maj f (s.modGrp s.cur fun g => g.tick s.time) s.cur = .go env false) (he : env.e ≠ 0) :
    issueWith maj f s body =
      finish (s.modGrp s.cur fun g => g.tick s.time) env false (body env (s.modGrp s.cur fun g => g.tick s.time)) := by
  have hp : (((s.modGrp s.cur fun g => g.tick s.time).grp s.cur).allParked) = false := by
    unfold Group.allParked
    rw [(begin_select h).1]
  unfold issueWith
  simp only [State.modGrp_cur, hp, Bool.false_eq_true, if_false]
  rw [h]
  simp only
  exact if_neg he

theorem grp_pcv {g h : Group} (e : g = h) (l : LaneId) : g.lane[l].pcv = h.lane[l].pcv := by rw [e]

theorem lanes_of_group {g h : Group} (e : g.lane = h.lane) (l : LaneId) : g.lane[l] = h.lane[l] := by
  show g.lane[(l : Nat)] = h.lane[(l : Nat)]
  simp only [e]

theorem pushPend_lane (g : Group) (env : Env) (t : Word) (fl : BitVec 6) : (g.pushPend env t fl).lane = g.lane := by
  unfold Group.pushPend Group.raiseSb
  split <;> rfl

theorem launch_lane (s : State) (env : Env) (op : Op) : ((s.launch env op).grp env.k).lane = (s.grp env.k).lane := by
  have : (s.launch env op).grp env.k = (s.modGrp env.k fun g => g.raiseSb env.f.slot).grp env.k := rfl
  rw [this, State.grp_modGrp, if_pos rfl]
  unfold Group.raiseSb
  split <;> rfl

theorem complete_pcv {s : State} {env : Env} {sync : Bool} {pc : LaneId → Word} (l : LaneId) (hp : env.path.getLsbD l = true)
    (hl : (s.grp env.k).lane[l].st ≠ .exited) (hs : sync = true ∨ (s.grp env.k).lane[l].st = .live) :
    ((s.complete env sync pc).grp env.k).lane[l].pcv = pc l := by
  refine (grp_pcv ((complete_grp s env sync pc env.k).trans (if_pos rfl)) l).trans ?_
  rw [← lanes_of_group (replaces_lane (s.grp env.k) env)] at hl hs
  rw [issued_pcv, advance_pcv _ _ _ _ _ hp hl hs]

/-- After a body that writes registers only, the lanes of the path stand at the next instruction. -/
theorem finish_regs_pcv {s : State} {env : Env} {sync : Bool} {g : Group} {fl : BitVec 6} {cons : Nat} (l : LaneId)
    (hg : g.lane = (s.grp env.k).lane) (hp : env.path.getLsbD l = true)
    (hl : (s.grp env.k).lane[l].st ≠ .exited) (hs : sync = true ∨ (s.grp env.k).lane[l].st = .live) :
    ((finish s env sync (.regs g fl cons)).grp env.k).lane[l].pcv = env.nxt := by
  rw [← lanes_of_group hg] at hl hs
  have key (s' : State) (h : (s'.grp env.k).lane = g.lane) :
      (((s'.complete env sync fun _ => env.nxt).consume env.k cons).grp env.k).lane[l].pcv = env.nxt := by
    refine (grp_pcv (consume_grp _ _ _ _) l).trans (complete_pcv l hp ?_ ?_)
    · rw [lanes_of_group h]; exact hl
    · rw [lanes_of_group h]; exact hs
  by_cases hlat : env.sh.lat = 0
  · have : finish s env sync (.regs g fl cons) = _ := if_pos hlat
    refine (grp_pcv (congrArg (fun s : State => s.grp env.k) this) l).trans (key _ ?_)
    rw [launch_lane, State.grp_setGrp, if_pos rfl]
  · have : finish s env sync (.regs g fl cons) = _ := if_neg hlat
    refine (grp_pcv (congrArg (fun s : State => s.grp env.k) this) l).trans (key _ ?_)
    rw [State.grp_setGrp, if_pos rfl, pushPend_lane]

/-! ### Lane and scalar results -/

/-- The registers of a group after a body that writes registers, and where its path stands. -/
theorem finish_regs {maj : BitVec 7} {f : Fields} {s : State} {env : Env} {sync : Bool} {g : Group} {fl : BitVec 6} {cons : Nat}
    {k : Nat} (h : begin maj f s k = .go env sync) (hg : g.lane = (s.grp env.k).lane) :
    (∀ l : LaneId, env.path.getLsbD l = true → ((finish s env sync (.regs g fl cons)).grp env.k).lane[l].pcv = env.nxt)
      ∧ SameRegs ((finish s env sync (.regs g fl cons)).grp env.k) g := by
  have hsel := (begin_select h).1
  rw [← (begin_k h).1] at hsel
  refine ⟨fun l hl => ?_, finish_regs_sameRegs _ _ _ _ _ _⟩
  obtain ⟨h1, h2, -⟩ := select_path hsel l hl
  exact finish_regs_pcv l hg hl h1 h2

/-- A lane instruction whose results do not trap: each executing lane holds its result in v[D], and the path goes on. -/
theorem finish_vecOut {maj : BitVec 7} {f : Fields} {s : State} {env : Env} {sync : Bool} {res : LaneId → LRes} {k : Nat}
    (h : begin maj f s k = .go env sync) (hpt : (s.grp k).pt = false) :
    (∀ l : LaneId, env.path.getLsbD l = true → ((finish s env sync (vecOut env s res)).grp env.k).lane[l].pcv = env.nxt)
      ∧ ∀ l : LaneId, env.e.getLsbD l = true → ((finish s env sync (vecOut env s res)).grp env.k).rdV env.f.d.toNat l = (res l).r := by
  rw [← (begin_k h).1] at hpt
  have e : vecOut env s res = .regs ((s.grp env.k).wrV env.f.d.toNat env.e fun l => (res l).r)
      (flagsOf env.e fun l => (res l).flags) (consOf env.e fun l => (res l).cons) := poisonGate_of_pt hpt
  rw [e]
  obtain ⟨h1, h2⟩ := finish_regs (fl := flagsOf env.e fun l => (res l).flags) (cons := consOf env.e fun l => (res l).cons)
    (g := (s.grp env.k).wrV env.f.d.toNat env.e fun l => (res l).r) h (by simp only [Group.wrV])
  exact ⟨h1, fun l hl => by rw [h2.rdV, Group.rdV_wrV, if_pos ⟨rfl, hl⟩]⟩

/-- A scalar instruction whose result does not trap. -/
theorem finish_scalOut {maj : BitVec 7} {f : Fields} {s : State} {env : Env} {sync : Bool} {res : LRes} {k : Nat}
    (h : begin maj f s k = .go env sync) (hpt : (s.grp k).pt = false) :
    (∀ l : LaneId, env.path.getLsbD l = true → ((finish s env sync (scalOut env s res)).grp env.k).lane[l].pcv = env.nxt)
      ∧ ((finish s env sync (scalOut env s res)).grp env.k).rdS env.f.d.toNat = if env.f.d.toNat = 0 then {} else res.r := by
  rw [← (begin_k h).1] at hpt
  have e : scalOut env s res = .regs ((s.grp env.k).wrS env.f.d.toNat res.r) res.flags res.cons := poisonGate_of_pt hpt
  rw [e]
  have hg : ((s.grp env.k).wrS env.f.d.toNat res.r).lane = (s.grp env.k).lane := by
    unfold Group.wrS; split <;> rfl
  obtain ⟨h1, h2⟩ := finish_regs (fl := res.flags) (cons := res.cons) h hg
  refine ⟨h1, ?_⟩
  rw [h2.rdS, Group.rdS_wrS]
  by_cases hd : env.f.d.toNat = 0 <;> simp [hd]

/-- An instruction that sets a predicate and does not trap. -/
theorem finish_predOut {maj : BitVec 7} {f : Fields} {s : State} {env : Env} {sync : Bool} {res : LaneId → Bool × Nat × BitVec 6}
    {k : Nat} (h : begin maj f s k = .go env sync) (hpt : (s.grp k).pt = false) :
    (∀ l : LaneId, env.path.getLsbD l = true → ((finish s env sync (predOut env s res)).grp env.k).lane[l].pcv = env.nxt)
      ∧ ∀ l : LaneId, env.e.getLsbD l = true →
          (((finish s env sync (predOut env s res)).grp env.k).rdP env.f.d.toNat).getLsbD l
            = (decide (env.f.d.toNat = 0) || (res l).1) := by
  rw [← (begin_k h).1] at hpt
  have e : predOut env s res = .regs ((s.grp env.k).wrP env.f.d.toNat env.e (BitVec.ofFnLE fun i => (res i).1))
      (flagsOf env.e fun l => (res l).2.2) (consOf env.e fun l => (res l).2.1) := poisonGate_of_pt hpt
  rw [e]
  have hg : ((s.grp env.k).wrP env.f.d.toNat env.e (BitVec.ofFnLE fun i => (res i).1)).lane = (s.grp env.k).lane := by
    unfold Group.wrP; split <;> rfl
  obtain ⟨h1, h2⟩ := finish_regs (fl := flagsOf env.e fun l => (res l).2.2) (cons := consOf env.e fun l => (res l).2.1) h hg
  refine ⟨h1, fun l hl => ?_⟩
  rw [h2.rdP, Group.rdP_wrP]
  by_cases hd : env.f.d.toNat = 0
  · rw [if_pos hd, hd]
    simp only [allLanes, BitVec.getLsbD_allOnes, l.isLt, decide_true, Bool.true_or]
  · rw [if_neg hd, if_pos rfl]
    simp only [BitVec.getLsbD_or, BitVec.getLsbD_and, BitVec.getLsbD_not, hl, BitVec.getLsbD_ofFnLE, l.isLt, hd, dite_true,
      Bool.not_true, Bool.and_false, Bool.and_true, Bool.false_or, decide_true, decide_false]

end Sys2Proof.Machine
end

