-- ==== Sys2Proof/Tests/Slice0.lean ====
section
/-!
SUPPORT. The model's own tests: ill-formed terms that `wellFormed` refuses, words written out from the encodings of the spec,
single steps on small states, and for every statement with hypotheses a state and operands that meet them.
-/

namespace Sys2Proof.Tests

open Machine

set_option maxRecDepth 100000

/-! ### Well-formed terms (R28 to R35) -/

/-- A long form is well formed. -/
theorem test_wf_iadd : wellFormed (.iaddExt { len := 1, d := 3, a := 1, b := 2 }) = true := by decide
/-- R28: SBS names a slot without its valid bit. -/
theorem test_wf_slot : wellFormed (.iaddExt { len := 1, d := 3, a := 1, b := 2, sbsN := 1 }) = false := by decide
/-- R29: a base form has no word for a guard. -/
theorem test_wf_base_guard : wellFormed (.iadd { d := 3, gp := 1 }) = false := by decide
/-- R29: the literal of a form without one is 0. -/
theorem test_wf_literal : wellFormed (.iaddExt { len := 1, lit := 1 }) = false := by decide
/-- R30: a scalar register above s63. -/
theorem test_wf_scalar : wellFormed (.saddExt { len := 1, fn := 2, d := 64 }) = false := by decide
/-- R33: a MOD bit that an integer instruction does not have. -/
theorem test_wf_mod : wellFormed (.iaddExt { len := 1, md := 8 }) = false := by decide
/-- R107: a constructor that is not the one of its FN. -/
theorem test_wf_form : wellFormed (.iadd { fn := 2 }) = false := by decide
/-- R29: LD has no base form. -/
theorem test_wf_no_base : wellFormed (.ld {}) = false := by decide
/-- An event of a group slot that no tile has. -/
theorem test_wf_event : wellFormed (.trapEntry 294912) = false := by decide

/-! ### Words (R26 to R28, R41, R42), from word 0 as B A D FN MAJ STALL LEN and word 1 as XF SBW SBSV SBSN MOD GN GP C D6 A6 B6 -/

/-- Word 0 of R26. -/
def w0 (b a d : BitVec 6) (fn : BitVec 2) (maj : BitVec 7) (stall : BitVec 3) (len : BitVec 2) : Word32 :=
  b ++ a ++ d ++ fn ++ maj ++ stall ++ len
/-- Word 1 of R27. -/
def w1 (xf : BitVec 2) (sbw : Byte) (sbs : BitVec 4) (md gnp : BitVec 4) (c : BitVec 7) (hi : BitVec 3) : Word32 :=
  xf ++ sbw ++ sbs ++ md ++ gnp ++ c ++ hi

theorem test_decode_iadd : decode [w0 2 1 3 0 0x00 3 0] = .ok (.iadd { stall := 3, d := 3, a := 1, b := 2 }, 4) := rfl
theorem test_decode_sadd_literal : decode [w0 0 6 5 2 0x00 0 2, 1000, 1] =
    .ok (.saddExt { len := 2, fn := 2, d := 5, a := 6, lit := 0x1000003E8 }, 12) := rfl
theorem test_decode_sandn : decode [w0 2 1 3 0 0x14 0 0] = .ok (.sandn { d := 3, a := 1, b := 2 }, 4) := rfl
theorem test_decode_imad : decode [w0 2 1 3 1 0x18 0 1, w1 0 0 0 0 0 9 0, 0] = .ok (.imadExt { len := 1, fn := 1, d := 3, a := 1, b := 2, c := 9 }, 12) := rfl
theorem test_decode_pseti : decode [w0 2 1 3 0 0x1C 0 1, w1 0 0 0 4 0 0 0, 0] = .ok (.psetiExt { len := 1, d := 3, a := 1, b := 2, md := 4 }, 12) := rfl
theorem test_decode_vote : decode [w0 0 1 3 2 0x1E 0 1, 0, 0] = .ok (.vote { len := 1, fn := 2, d := 3, a := 1 }, 12) := rfl
theorem test_decode_bra : decode [w0 63 63 61 0 0x20 0 0] = .ok (.bra { d := 61, a := 63, b := 63 }, 4) := rfl
theorem test_decode_loop : decode [w0 63 59 7 0 0x23 0 0] = .ok (.loop { d := 7, a := 59, b := 63 }, 4) := rfl
theorem test_decode_movsr : decode [w0 0 4 5 0 0x28 0 0] = .ok (.movsr { d := 5, a := 4 }, 4) := rfl
theorem test_decode_ffma : decode [w0 2 1 6 0 0x33 0 1, w1 0 0 0xB 2 0xA 100 4, 0] =
    .ok (.ffmaExt { len := 1, d := 70, a := 1, b := 2, c := 100, gp := 2, gn := true, md := 2, sbsN := 3, sbsV := true }, 12) := rfl
theorem test_decode_frcp : decode [w0 0 1 3 1 0x44 0 1, 0, 0] = .ok (.frcp { len := 1, fn := 1, d := 3, a := 1 }, 12) := rfl
theorem test_decode_cvt : decode [w0 8 1 3 0 0x4D 0 1, w1 0 0 0 0 0 9 0, 0] = .ok (.cvtExt { len := 1, d := 3, a := 1, b := 8, c := 9 }, 12) := rfl
theorem test_decode_mxq : decode [w0 40 16 8 0 0x52 0 1, 0, 8] = .ok (.mxq { len := 1, d := 8, a := 16, b := 40, imm := 8 }, 12) := rfl
theorem test_decode_shfl : decode [w0 2 1 3 0 0x54 0 1, w1 0 0 0 1 0 0 0, 0] = .ok (.shfl { len := 1, d := 3, a := 1, b := 2, md := 1 }, 12) := rfl
theorem test_decode_aalloc : decode [w0 0 2 5 0 0x58 0 1, 0, 0] = .ok (.aalloc { len := 1, d := 5, a := 2 }, 12) := rfl
theorem test_decode_mma : decode [w0 32 16 2 0 0x59 0 1, w1 0 0 0 3 0 0 0, 0] = .ok (.mma { len := 1, d := 2, a := 16, b := 32, md := 3 }, 12) := rfl
theorem test_decode_ard : decode [w0 0 2 16 0 0x5A 0 1, w1 3 0 0 0 0 0 0, 0] = .ok (.ard { len := 1, d := 16, a := 2, xf := 3 }, 12) := rfl
theorem test_decode_ld : decode [w0 6 4 5 0 0x60 0 1, w1 0 0 0 2 0 0 0, 16] = .ok (.ld { len := 1, d := 5, a := 4, b := 6, md := 2, imm := 16 }, 12) := rfl
theorem test_decode_cpin : decode [w0 2 1 3 3 0x64 0 1, 0, 0] = .ok (.cpin { len := 1, fn := 3, d := 3, a := 1, b := 2 }, 12) := rfl
theorem test_decode_atom : decode [w0 6 4 5 0 0x65 0 1, w1 0 0 0 1 0 9 0, 0x00100110] =
    .ok (.atom { len := 1, d := 5, a := 4, b := 6, c := 9, md := 1, imm := 0x00100110 }, 12) := rfl
theorem test_decode_phase : decode [w0 0 0 5 0 0x68 0 1, w1 2 0 0 3 0 0 0, 0] = .ok (.phase { len := 1, d := 5, md := 3, xf := 2 }, 12) := rfl
theorem test_decode_binit : decode [w0 0 0 5 0 0x69 0 1, w1 1 0 0 0 0 0 0, 255] = .ok (.binit { len := 1, d := 5, xf := 1, imm := 255 }, 12) := rfl
theorem test_decode_cpy : decode [w0 0 5 0 0 0x6B 0 1, 0, 0x40] = .ok (.cpy { len := 1, a := 5, imm := 0x40 }, 12) := rfl
theorem test_decode_ralloc : decode [w0 4 0 7 0 0x6D 0 1, w1 0 0 0 2 0 3 0, 9] = .ok (.ralloc { len := 1, d := 7, b := 4, c := 3, md := 2, imm := 9 }, 12) := rfl
theorem test_decode_spawn : decode [w0 0 0 3 0 0x70 0 1, 0, 0x208] = .ok (.spawn { len := 1, d := 3, imm := 0x208 }, 12) := rfl
theorem test_decode_xsend : decode [w0 5 8 0 0 0x71 0 1, w1 0 0 0 2 0 6 0, 0x100] = .ok (.xsend { len := 1, a := 8, b := 5, c := 6, md := 2, imm := 0x100 }, 12) := rfl
/-- R43: MAJ 0x1F is reserved. -/
theorem test_decode_reserved : decode [w0 0 0 0 0 0x1F 0 0] = .ok (.reservedMajorOpcode (w0 0 0 0 0 0x1F 0 0), 4) := rfl
/-- The two words of R342. -/
theorem test_decode_xsend_words : decode [0x14800E21, 0x00000030, 0x00000100] = .ok (.xsend { len := 1, a := 8, b := 5, c := 6, imm := 0x100 }, 12)
    ∧ decode [0x16800E21, 0x00288030, 0] = .ok (.xsend { len := 1, a := 40, b := 5, c := 6, md := 2, sbsN := 2, sbsV := true }, 12) := ⟨rfl, rfl⟩
/-- Three words of R184. -/
theorem test_decode_accumulator_words : decode [0x80400B21, 0x40000000, 0] = .ok (.mma { len := 1, a := 4, b := 32, xf := 1 }, 12)
    ∧ decode [0x40005B21, 0x00010000, 0x2120] = .ok (.mmax { len := 1, fn := 1, d := 1, b := 16, md := 4, imm := 0x2120 }, 12)
    ∧ decode [0x000A0B41, 0x40004000, 0] = .ok (.ard { len := 1, d := 40, xf := 1, md := 1 }, 12) := ⟨rfl, rfl, rfl⟩
/-- R33: a reserved MOD bit is refused. -/
theorem test_decode_reserved_field : decode [w0 2 1 3 0 0x00 0 1, w1 0 0 0 8 0 0 0, 0] = .error .reservedField := rfl
/-- R34: the words of a table row, numbered from the first. -/
theorem test_decode_table_word : decodeTableWord 64 (0x00002C01 + 2 ^ 32 * 0) = some (.ld { len := 1 }) ∨
    decodeTableWord 64 (0x00000C01 + 2 ^ 32 * 0x8000) = some (.ld { len := 1, md := 2 }) := .inr rfl

/-! ### Instructions that issue: group 0 of tile 0, with every lane live at its first instruction -/

/-- A state in which group 0 issues next, as `State.withFetchWord` leaves it. -/
def base : State := { State.reset.withFetchWord 32 0 with agenda := [] }

/-- No environment. -/
def noEnv : Env := { k := 0, pc := 0, nxt := 0, maj := 0, f := {}, sh := {}, path := 0, e := 0 }

/-- What `begin` finds for an instruction. -/
def startAt (i : Instr) (s : State) : Option (Env × Bool) :=
  match opOf i with
  | some (m, f) => match begin m f (turn s) s.cur with
    | .go e b => some (e, b)
    | _ => none
  | none => none

/-- The environment in which an instruction issues. -/
def envAt (i : Instr) (s : State) : Env := ((startAt i s).map Prod.fst).getD noEnv

/-- Whether an instruction issues. -/
noncomputable def issuesB (i : Instr) (s : State) : Bool :=
  match startAt i s with
  | some (e, false) => decide (opOf i = some (e.maj, e.f)) && decide (mkInstr e.maj e.f = some i) && decide (e.e ≠ 0)
  | _ => false

theorem startAt_begin {i : Instr} {s : State} {m : BitVec 7} {f : Fields} {e : Env} {b : Bool} (ho : opOf i = some (m, f))
    (h : startAt i s = some (e, b)) : begin m f (turn s) s.cur = .go e b := by
  unfold startAt at h
  rw [ho] at h
  dsimp only at h
  split at h
  · next e' b' h' => cases h; exact h'
  · cases h

theorem issues_of {i : Instr} {s : State} (h : issuesB i s = true) : Issues i s (envAt i s) := by
  unfold issuesB at h
  split at h
  · next e he =>
    simp only [Bool.and_eq_true, decide_eq_true_eq] at h
    have h' : envAt i s = e := by simp [envAt, he]
    rw [h']
    exact ⟨h.1.1, h.1.2, startAt_begin h.1.1 he, h.2⟩
  · cases h

/-- Each instruction of a list issues in a state, and poison does not trap there. -/
def AllIssue (s : State) (l : List Instr) : Prop := ∀ i ∈ l, Issues i s (envAt i s) ∧ NoPoisonTrap s

theorem allIssue {s : State} {l : List Instr} (h : (∀ i ∈ l, issuesB i s = true) ∧ ((turn s).grp s.cur).pt = false) : AllIssue s l :=
  fun i hi => ⟨issues_of (h.1 i hi), h.2⟩

/-- Base fields, and those of a long form. -/
def fb (fn : BitVec 2) : Fields := { fn, d := 3, a := 1, b := 2 }
/-- Fields of a long form. -/
def fl (fn : BitVec 2) (md : BitVec 4 := 0) (xf : BitVec 2 := 0) (imm : Word32 := 0) (c : BitVec 7 := 0) : Fields :=
  { len := 1, fn, d := 3, a := 1, b := 2, c, md, xf, imm }
/-- Fields of a one-operand form. -/
def f1 (len : BitVec 2) (fn : BitVec 2) (d : BitVec 7 := 3) (a : BitVec 7 := 1) : Fields := { len, fn, d, a }

theorem witness_ScalarIntegerResults : AllIssue base [.sadd (fb 2), .saddExt (fl 3 4), .ssub (fb 2), .ssubExt (fl 2), .smul (fb 2), .smulExt (fl 2),
    .smulh (fb 3), .smulhExt (fl 2), .sand (fb 2), .sandExt (fl 2), .sor (fb 2), .sorExt (fl 2), .sxor (fb 2), .sxorExt (fl 2),
    .sshl (fb 2), .sshlExt (fl 2), .sshr (fb 2), .sshrExt (fl 2), .ssar (fb 2), .ssarExt (fl 2), .smin (fb 2), .sminExt (fl 3),
    .smax (fb 2), .smaxExt (fl 2), .sclz (f1 0 2), .sclzExt (f1 1 2), .spopc (f1 0 2), .spopcExt (f1 1 2), .smov { fn := 2, d := 3, b := 2 },
    .smovExt { len := 1, fn := 2, d := 0, b := 2 }] := allIssue (by decide)

theorem witness_ScalarAndLaneOnlyResults : AllIssue base [.sandn (fb 0), .sandnExt (fl 0), .srot (fb 0), .srotExt (fl 0), .slea (fb 0),
    .sleaExt (fl 0 0 3 0xFFFFFFFF), .scmp (fb 1), .scmpExt (fl 0), .imad (fb 0), .imadExt (fl 1 0 0 0 9), .isad (fb 0), .isadExt (fl 0 0 1),
    .iabs (f1 0 0), .iabsExt (f1 1 0), .ineg (f1 0 1), .inegExt (f1 1 1), .inot (f1 0 2), .inotExt (f1 1 2), .idot4 (fb 1), .idot4Ext (fl 2)] :=
  allIssue (by decide)

theorem witness_LaneIntegerResults : AllIssue base [.iadd (fb 0), .iaddExt (fl 1 7), .isub (fb 0), .isubExt (fl 0 1), .imul (fb 0), .imulExt (fl 0 2),
    .imulh (fb 1), .imulhExt (fl 0), .iand (fb 0), .iandExt (fl 0), .ior (fb 0), .iorExt (fl 0), .ixor (fb 0), .ixorExt (fl 0 0 1),
    .ishl (fb 0), .ishlExt (fl 1 3), .ishr (fb 0), .ishrExt (fl 0), .isar (fb 0), .isarExt (fl 0), .imin (fb 0), .iminExt (fl 1),
    .imax (fb 0), .imaxExt (fl 0), .iclz (f1 0 0), .iclzExt (f1 1 0), .ipopc (f1 0 0), .ipopcExt (f1 1 0), .imov { d := 3, b := 2 },
    .imovExt { len := 1, d := 3, b := 2 }] := allIssue (by decide)

theorem witness_DivisionRoundsTowardZero : AllIssue base [.sdiv (fb 2), .sdivExt (fl 3), .srem (fb 2), .sremExt (fl 2), .idiv (fb 0), .idivExt (fl 1),
    .irem (fb 0), .iremExt (fl 0 3)] := allIssue (by decide)

theorem witness_BitFieldAndSelectResults : AllIssue base [.sbfx (fb 2), .sbfxExt (fl 3), .sbfi (fb 2), .sbfiExt (fl 2), .ibfx (fb 0), .ibfxExt (fl 1),
    .ibfi (fb 0), .ibfiExt (fl 0 3), .ssel (fb 2), .sselExt (fl 2 0 0 0 5), .isel (fb 0), .iselExt (fl 0 0 0 0 5)]
    ∧ CleanAt (envAt (.sbfx (fb 2)) base) ((turn base).grp 0) 0 := ⟨allIssue (by decide), rfl, rfl, rfl⟩

theorem witness_PredicateResults : AllIssue base [.pseti (fb 0), .psetiExt (fl 1 11), .plop (fb 0), .plopExt (fl 0 9), .pmov { fn := 1, d := 3, b := 2 },
    .pmovExt { len := 1, fn := 1, d := 0, b := 2 }, .pmovMask { fn := 2, d := 3, b := 2 }, .pmovMaskExt { len := 1, fn := 2, d := 3, b := 2 }] :=
  allIssue (by decide)

theorem witness_FloatArithmeticResults : AllIssue base [.fadd (fb 0), .faddExt (fl 1 8), .fsub (fb 0), .fsubExt (fl 2), .fmul (fb 0), .fmulExt (fl 3 1),
    .ffma (fb 0), .ffmaExt (fl 0 0 0 0 9), .ffms (fb 1), .ffmsExt (fl 0), .fnfma (fb 2), .fnfmaExt (fl 0), .fnfms (fb 0), .fnfmsExt (fl 3),
    .fminnum (fb 0), .fminnumExt (fl 3), .fmaxnum (fb 0), .fmaxnumExt (fl 0), .fminnan (fb 0), .fminnanExt (fl 0), .fmaxnan (fb 0), .fmaxnanExt (fl 0),
    .fabs (f1 0 0), .fabsExt (f1 1 3), .fneg (f1 0 0), .fnegExt (f1 1 0), .fcpysgn (fb 0), .fcpysgnExt (fl 0)] := allIssue (by decide)

theorem witness_FloatUnaryAndDotResults : AllIssue base [.fclass (f1 0 0), .fclassExt (f1 1 3), .frnd (f1 0 0), .frndExt (f1 1 1), .fscale (fb 0),
    .fscaleExt (fl 3), .fdot2 (fb 1), .fdot2Ext (fl 3), .fhadd (fb 0), .fhaddExt (fl 2)] := allIssue (by decide)

theorem witness_FloatCompareResults : AllIssue base [.psetf (fb 0), .psetfExt (fl 3 0 0 0 63)] := allIssue (by decide)

theorem witness_SpecialFunctionResults : AllIssue base [.frcp (f1 1 0), .frsq (f1 1 1), .fsqrt (f1 1 2), .fexp2 (f1 1 0), .flog2 (f1 1 0), .fsin (f1 1 0),
    .fcos (f1 1 0), .ftanh (f1 1 0), .fsigm (f1 1 2)] := allIssue (by decide)

theorem witness_RoundingPicksTheNeighbour : (0 : Int) < 1 := by decide

theorem witness_ConversionResults : AllIssue base [.cvt { d := 3, a := 1, b := 0 }, .cvtExt { len := 1, d := 3, a := 1, b := 32, c := 9, xf := 3 },
    .cvti { d := 3, a := 1, b := 32 }, .cvtiExt { len := 1, d := 3, a := 1, b := 0, md := 1 }] := allIssue (by decide)

theorem witness_PackResults : AllIssue base [.cvtf8 { d := 3, a := 1, b := 2 }, .cvtf8Ext { len := 1, d := 3, a := 1, b := 1, c := 9, xf := 3 },
    .pack (fb 0), .packExt (fl 0 0 0 0 15), .unpack { fn := 1, d := 3, a := 1 }, .unpackExt { len := 1, fn := 1, d := 3, a := 1, c := 15 }] :=
  allIssue (by decide)

theorem witness_BlockFormatResults : AllIssue base [.mxsc { len := 1, d := 40, a := 16, imm := 8 }, .mxq { len := 1, d := 8, a := 16, b := 40, c := 41, imm := 3 },
    .mxdq { len := 1, d := 16, a := 40, b := 50, imm := 2 }] ∧ ¬((8 : BitVec 7) ≤ 40 ∧ 40 < 8 + 2) := ⟨allIssue (by decide), by decide⟩

theorem witness_ShuffleResults : AllIssue base [.shfl (fl 0 3), .shflx { len := 1, fn := 1, d := 3, a := 1, b := 8, md := 2 }, .perm (fl 0 0 0 0 9),
    .perm (fl 0 0 1 0xFFFFFFFF)] := allIssue (by decide)

theorem witness_BranchResults : AllIssue base [.bra (fb 0), .braExt (fl 0 0 0 5), .brp (fb 1), .brpExt (fl 1 0 3), .brx { fn := 2, a := 1 },
    .brxExt { len := 1, fn := 2, a := 1, xf := 1, imm := 4 }, .loop (fb 0), .loopExt (fl 0)]
    ∧ (∀ l : LaneId, ((envAt (.brx { fn := 2, a := 1 }) base).srcA ((turn base).grp 0) l).poi = 0) := ⟨allIssue (by decide), by decide⟩

theorem witness_CallResults : AllIssue base [.call (fb 0), .callExt (fl 0), .callx { fn := 1, a := 1 }, .callxExt { len := 1, fn := 1, a := 1, xf := 1 },
    .ret {}, .retExt { len := 1 }] ∧ (∀ l : LaneId, ((turn base).grp 0).lane[l].hw = [] ∧ ((turn base).grp 0).lane[l].spilled = 0) :=
  ⟨allIssue (by decide), by decide⟩

/-- One lane live, its hardware stack full, and no room in the spill region. -/
def deep : State := base.modGrp 0 fun g => { g with
  lane := Vector.ofFn fun i => if i.val = 0 then { g.lane[i] with hw := List.replicate 8 4 } else { g.lane[i] with st := .exited } }

theorem witness_CallResults_full : AllIssue deep [.call (fb 0), .callExt (fl 0)] ∧ (envAt (.call (fb 0)) deep).e = 1 <<< (0 : LaneId).val
    ∧ (((turn deep).grp 0).lane[(0 : LaneId)]).hw.length = 8 ∧ (((turn deep).grp 0).lane[(0 : LaneId)]).spilled.toNat = ((turn deep).grp 0).bind.spillCap :=
  ⟨allIssue (by decide), by decide⟩

theorem witness_WaitingAndIdleResults : AllIssue base [.yield { fn := 0 }, .yieldExt { len := 1 }, .sleep { fn := 1, b := 2 }, .sleepExt { len := 2, fn := 1, lit := 100 },
    .exit {}, .exitExt { len := 1 }, .nop {}, .nopExt { len := 1 }, .safept { fn := 1 }, .safeptExt { len := 1, fn := 1 }, .pin { fn := 2 },
    .pinExt { len := 1, fn := 2 }, .unpin { fn := 3 }, .unpinExt { len := 1, fn := 3 }] := allIssue (by decide)

/-- A context that is asked to reach a safe point. -/
def asked : State := base.modCtx 0 fun x => { x with preempt := some 1000 }

theorem witness_WaitingAndIdleResults_asked : AllIssue asked [.safept { fn := 1 }] ∧ ((asked.ctx 0).preempt).isSome = true := ⟨allIssue (by decide), by decide⟩

theorem witness_TrapInstructions : AllIssue base [.trap {}, .trapExt { len := 1 }, .bkpt { fn := 1 }, .bkptExt { len := 1, fn := 1 }] ∧ (turn base).quiet 0 = true
    ∧ ((turn base).grp base.cur).mayIssue base.time = true ∧ (∃ sel, ((turn base).grp base.cur).select = some sel ∧ sel.sync = false) :=
  ⟨allIssue (by decide), by decide, by decide, _, rfl, rfl⟩

theorem witness_SpecialRegisterMoves : AllIssue base [.movsr { d := 3, a := 0 }, .movsr { d := 3, a := 0x10 }, .movsrExt { len := 1, d := 3, a := 6, xf := 1 },
    .movrs { fn := 1, d := 0x0A, b := 2 }, .movrs { fn := 1, d := 0x0E, b := 2 }, .movrsExt { len := 1, fn := 1, d := 0x0F, b := 2 }] := allIssue (by decide)

theorem witness_SpecialRegisterMoves_privilege : opOf (.movrs { fn := 1, d := 0x10, b := 2 }) = some (0x28, { fn := 1, d := 0x10, b := 2 })
    ∧ ∃ sh, shape 0x28 { fn := 1, d := 0x10, b := 2 } = some sh ∧ (sh.base || false) = true ∧ sh.fieldsOk { fn := 1, d := 0x10, b := 2 } = true
      ∧ budgetOk ((turn base).grp 0) ((turn base).team ((turn base).grp 0).team).nbars sh { fn := 1, d := 0x10, b := 2 } = true :=
  ⟨rfl, _, rfl, rfl, rfl, rfl⟩

theorem witness_PoisonSpreads : AllIssue base [.iadd (fb 0), .imaxExt (fl 0), .fadd (fb 0), .fmaxnanExt (fl 0)] := allIssue (by decide)

theorem witness_RegisterFrame : AllIssue base [.iadd (fb 0)] ∧ RegisterOnly 0x00 0 := ⟨allIssue (by decide), .inl (by decide)⟩

theorem witness_PathSelection : ∃ sel, (base.grp 0).select = some sel ∧ sel.sync = false ∧ (base.grp 0).donemask = 0 := ⟨_, rfl, rfl, rfl⟩

theorem witness_BranchResults_misaligned : AllIssue base [.brxExt { len := 1, fn := 2, a := 1, imm := 2 }]
    ∧ ¬4 ∣ (((envAt (.brxExt { len := 1, fn := 2, a := 1, imm := 2 }) base).srcA ((turn base).grp 0) 0).val + (2 : Word32).signExtend 64).toNat :=
  ⟨allIssue (by decide), by decide⟩

/-! ### Group-synchronous instructions -/

/-- The environment in which a group-synchronous instruction executes. -/
def syncEnv (i : Instr) (s : State) : Option Env :=
  match startAt i s with
  | some (e, b) =>
    match ((if b then turn s else (turn s).modGrp e.k fun g => g.park e.path).grp e.k).select with
    | some x => if x = { pc := e.pc, path := x.path, sync := true } then some { e with path := x.path, e := x.path } else none
    | none => none
  | none => none

/-- Whether a group-synchronous instruction executes. -/
noncomputable def syncB (i : Instr) (s : State) : Bool :=
  match syncEnv i s with
  | some e => decide (opOf i = some (e.maj, e.f)) && decide (mkInstr e.maj e.f = some i)
  | none => false

theorem sync_of {i : Instr} {s : State} (h : syncB i s = true) : IssuesSync i s ((syncEnv i s).getD noEnv) := by
  unfold syncB at h
  split at h
  · next e he =>
    simp only [Bool.and_eq_true, decide_eq_true_eq] at h
    rw [he, Option.getD_some]
    unfold syncEnv at he
    split at he
    · next e0 b h0 =>
      split at he
      · next x hx =>
        split at he
        · next hs =>
          cases he
          exact ⟨h.1, h.2, e0, b, startAt_begin h.1 h0, rfl, hx.trans (congrArg some hs), rfl⟩
        · cases he
      · cases he
    · cases he
  · cases h

/-- Each instruction of a list executes for all live lanes in a state. -/
def AllSync (s : State) (l : List Instr) : Prop := ∀ i ∈ l, IssuesSync i s ((syncEnv i s).getD noEnv) ∧ NoPoisonTrap s

theorem allSync {s : State} {l : List Instr} (h : (∀ i ∈ l, syncB i s = true) ∧ ((turn s).grp s.cur).pt = false) : AllSync s l :=
  fun i hi => ⟨sync_of (h.1 i hi), h.2⟩

theorem witness_GroupSynchronousResults : AllSync base [.bcast { len := 1, fn := 2, d := 3, a := 1, xf := 2, imm := 33 }, .rred { len := 1, d := 3, a := 1 },
    .rred { len := 1, d := 3, a := 1, b := 7, xf := 1 }, .rscan { len := 1, d := 3, a := 1, xf := 1 }, .vote { len := 1, d := 3, a := 1 },
    .vote { len := 1, fn := 1, d := 3, a := 1 }, .vote { len := 1, fn := 2, d := 3, a := 1 }] := allSync (by decide)

/-! ### Memory instructions -/

/-- s1 holds the first byte of a page of frame 0 that may be read, written and used by atomics. -/
def memState : State := (base.modGrp 0 fun g => { g with s := [(1, .of 0x20000), (5, .of 256)] }).modTile 0 fun t =>
  { t with tlb := { part := 0, base := 0x20000, size := 65536, leaf := BitVec.ofNat 64 (2 ^ 63 + 2 ^ 62 + 2 ^ 59 + 2 ^ 58 + 2 ^ 56) } :: t.tlb }

/-- Fields of a memory instruction: d = 3, a = 1, b = 2. -/
def fm (fn : BitVec 2) (md : BitVec 4) (imm : Word32 := 0) (c : BitVec 7 := 0) : Fields := { len := 1, fn, d := 3, a := 1, b := 2, c, md, imm }

theorem mem_page (acc : Acc1) (h : leafFault (2 ^ 63 + 2 ^ 62 + 2 ^ 59 + 2 ^ 58 + 2 ^ 56) acc = none) : ∃ e, Maps (turn memState) 0 0x20000 acc e :=
  ⟨{ part := 0, base := 0x20000, size := 65536, leaf := BitVec.ofNat 64 (2 ^ 63 + 2 ^ 62 + 2 ^ 59 + 2 ^ 58 + 2 ^ 56) }, by decide, by decide, h⟩

theorem witness_GlobalMovesIssue : AllIssue memState [.ld (fm 0 5), .st (fm 1 2), .ldp (fm 1 0), .ldc { len := 1, d := 3, a := 1, b := 2, md := 3 }]
    ∧ (∀ l : LaneId, AddrClean (envAt (.ld (fm 0 5)) memState) ((turn memState).grp 0) l
        ∧ addrOf (envAt (.ld (fm 0 5)) memState) ((turn memState).grp 0) 0 l = 0x20000)
    ∧ (∃ e, Maps (turn memState) 0 0x20000 .load e) ∧ (∃ e, Maps (turn memState) 0 0x20000 .store e) ∧ 2 ^ 5 ∣ 0x20000 :=
  ⟨allIssue (by decide), by unfold AddrClean addrOf; decide, mem_page _ (by decide), mem_page _ (by decide), by decide⟩

theorem witness_LocalMovesIssue : AllIssue base [.lds (fm 0 3), .sts (fm 1 3), .ldb (fm 0 3), .stb (fm 1 0), .lds (fm 0 3 4), .lds (fm 0 3 65536)]
    ∧ (∀ l : LaneId, AddrClean (envAt (.lds (fm 0 3)) base) ((turn base).grp 0) l)
    ∧ Local (turn base) 0 .spad 65528 8 8 8 true ∧ Local (turn base) 0 .bank 65528 8 8 8 true
    ∧ ¬8 ∣ (addrOf (envAt (.lds (fm 0 3 4)) base) ((turn base).grp 0) 4 0).toNat
    ∧ 8 ∣ (addrOf (envAt (.lds (fm 0 3 65536)) base) ((turn base).grp 0) 65536 0).toNat ∧ ¬Local (turn base) 0 .spad 65536 8 8 8 false := by
  refine ⟨allIssue (by decide), by unfold AddrClean; decide, ⟨by decide, by decide, by decide⟩, ⟨by decide, by decide⟩, by decide, by decide, ?_⟩
  rintro ⟨-, h, -⟩
  exact absurd h (by decide)

/-- One lane live on `memState` with its stack in the page at 0x20000: full and its region with room, or with its region alone. -/
def stackState (full : Bool) : State := memState.modGrp 0 fun g => { g with
  bind := { g.bind with dw1 := 0x20000, dw2 := 2 * 2 ^ 8 + 4 * 2 ^ 32 }
  lane := Vector.ofFn fun i => if i.val = 0 then { g.lane[i] with hw := if full then List.replicate 8 4 else [], spilled := if full then 0 else 1 }
    else { g.lane[i] with st := .exited } }

theorem witness_CallResults_spill : AllIssue (stackState true) [.call (fb 0), .callExt (fl 0)] ∧ (envAt (.call (fb 0)) (stackState true)).e = 1 <<< (0 : LaneId).val
    ∧ (((turn (stackState true)).grp 0).lane[(0 : LaneId)]).hw.length = 8 ∧ ((turn (stackState true)).grp 0).bind.spillCap = 4
    ∧ spillEntry ((turn (stackState true)).grp 0) 0 0 = 0x20000 ∧ (turn (stackState true)).owns 0 0 = true
    ∧ (turn (stackState true)).spillWaits 0 { lane := 0, ea := 0x20000, pa := 0 } true = false
    ∧ (turn (stackState true)).spillNow 0 0 { lane := 0, ea := 0x20000, pa := 0 } { leaf := 0, pa := 0, base := 0x20000, size := 65536 } = true :=
  ⟨allIssue (by decide), by decide⟩

theorem witness_CallResults_fill : AllIssue (stackState false) [.ret {}, .retExt { len := 1 }]
    ∧ (((turn (stackState false)).grp 0).lane[(0 : LaneId)]).hw = [] ∧ (((turn (stackState false)).grp 0).lane[(0 : LaneId)]).spilled = 1
    ∧ (((turn (stackState false)).grp 0).lane[(0 : LaneId)]).fill = none
    ∧ spillEntry ((turn (stackState false)).grp 0) 0 0 = 0x20000 ∧ (turn (stackState false)).cutBoth 0 0 0 = false
    ∧ (turn (stackState false)).spillWaits 0 { lane := 0, ea := 0x20000, pa := 0 } false = false
    ∧ ((turn (stackState false)).homeRd 0 0 0 8 0).2 = some (List.replicate 8 0, List.replicate 8 false) ∧ 4 ∣ leNat (List.replicate 8 0) :=
  ⟨allIssue (by decide), by decide⟩

/-- `memState` with an empty TLB. -/
def missState : State := memState.modTile 0 fun t => { t with tlb := t.tlb.drop 1 }

theorem witness_GlobalMovesIssue_miss : AllIssue missState [.ld (fm 0 5), .st (fm 1 2), .ldp (fm 1 0), .ldc { len := 1, d := 3, a := 1, b := 2, md := 3 }]
    ∧ (∀ l : LaneId, AddrClean (envAt (.ld (fm 0 2)) missState) ((turn missState).grp 0) l
        ∧ addrOf (envAt (.ld (fm 0 2)) missState) ((turn missState).grp 0) 0 l = 0x20000)
    ∧ (turn missState).tlbFind 0 0 0x20000 = none ∧ ((turn missState).tile 0).walks = [] :=
  ⟨allIssue (by decide), by unfold AddrClean addrOf; decide, by decide⟩

theorem witness_AtomicsIssue : AllIssue memState [.atom (fm 0 0), .acas (fm 1 3 0x419), .atoms (fm 0 0 0x10), .atomb (fm 0 0 0x28), .bred (fm 1 0 0x10), .bvec (fm 2 0 0x30)]
    ∧ (∀ l : LaneId, AddrClean (envAt (.atom (fm 0 0)) memState) ((turn memState).grp 0) l) ∧ (∃ e, Maps (turn memState) 0 0x20000 .atom e)
    ∧ AllIssue base [.atoms (fm 0 0 0x10), .atomb (fm 0 0 0x28), .bred (fm 1 0 0x10), .bvec (fm 2 0 0x30)]
    ∧ Local (turn base) 0 .spad 0 8 8 8 true ∧ Local (turn base) 0 .bank 65520 8 16 16 true :=
  ⟨allIssue (by decide), by unfold AddrClean; decide, mem_page _ (by decide), allIssue (by decide), ⟨by decide, by decide, by decide⟩, by decide, by decide⟩

/-- One lane live on `memState`, in a partition that may pin lines. -/
def oneLane : State := (memState.modGrp 0 fun g => { g with lane := Vector.ofFn fun i => if i.val = 0 then g.lane[i] else { g.lane[i] with st := .exited } }).modPart 0
  fun p => { p with desc := { p.desc with resq := 1 } }

theorem witness_CacheInstructions : AllIssue oneLane [.pref { len := 1, a := 1, b := 2 }, .pref { len := 1, a := 1, b := 2, md := 1 }, .cflush { len := 1, fn := 1, a := 1, b := 2 },
      .cinv { len := 1, fn := 2, a := 1, b := 2 }, .cpin { len := 1, fn := 3, d := 3, a := 1, b := 5 }, .cunpin { len := 1, fn := 3, d := 3, a := 1, b := 5, md := 1 }]
    ∧ (envAt (.pref { len := 1, a := 1, b := 2 }) oneLane).e = 1 <<< (0 : LaneId).val
    ∧ (turn oneLane).owns 0 0 = true ∧ (turn oneLane).hasL2 0 = true ∧ ((turn oneLane).grp 0).rdS 5 = .of 256 ∧ 256 ∣ 0x20000
    ∧ ((turn oneLane).l2Set 0).countP (fun e => e.2.pin.isSome) < 3 ∧ (turn oneLane).pinned 0 < ((turn oneLane).part 0).desc.resq :=
  ⟨allIssue (by decide), by decide⟩

/-- `oneLane` with the line pinned. -/
def pinnedLine : State := { oneLane with l2 := [(0, { valid := 1, pin := some 0 })] }

theorem witness_CacheInstructions_unpin : AllIssue pinnedLine [.cunpin { len := 1, fn := 3, d := 3, a := 1, b := 5, md := 1 }] ∧ (smGet {} pinnedLine.l2 0).pin = some 0 :=
  ⟨allIssue (by decide), by decide⟩

theorem witness_MemoryIssueFrame : AllIssue base [.lds (fm 0 3)] ∧ AllIssue memState [.st (fm 1 2)] := ⟨allIssue (by decide), allIssue (by decide)⟩

/-! ### Accumulators and the matrix array -/

/-- Name 2 of group 0 is accumulator 7 of core 0. -/
def accState : State := (base.modGrp 0 fun g => g.bindAcc 2 (some 7)).modCore 0 fun c =>
  { c with accs := c.accs.set 7 { c.accs[7] with st := .accumulating, name := 2 } }
/-- Every accumulator of core 0 has another owner. -/
def accsTaken : State := base.modCore 0 fun c => { c with accs := Vector.replicate 8 { st := .zeroed, owner := 1 } }

theorem witness_AccumulatorInstructions : AllIssue base [.aalloc { len := 1, d := 3, a := 2 }] ∧ (base.core 0).freeAcc = some 0
    ∧ AllIssue accsTaken [.aalloc { len := 1, d := 3, a := 2 }] ∧ (accsTaken.core 0).freeAcc = none
    ∧ AllIssue accState [.aalloc { len := 1, d := 3, a := 2 }, .afree { len := 1, fn := 1, a := 2 }, .azero { len := 1, fn := 2, d := 2 },
        .ard { len := 1, d := 16, a := 2, xf := 3 }, .awr { len := 1, fn := 1, d := 2, a := 16 }, .aks { len := 1, fn := 2, d := 3, a := 2 }]
    ∧ ((turn accState).grp 0).accOf 2 = some 7 ∧ (accState.core 0).queue = [] ∧ accState.ops = []
    ∧ AllIssue base [.afree { len := 1, fn := 1, a := 2 }, .azero { len := 1, fn := 2, d := 2 }, .awr { len := 1, fn := 1, d := 2, a := 16 }]
    ∧ ((turn base).grp 0).accOf 2 = none :=
  ⟨allIssue (by decide), by decide, allIssue (by decide), by decide, allIssue (by decide), by decide, by decide, by decide, allIssue (by decide), by decide⟩

theorem witness_MatrixInstructions : AllSync accState [.mma { len := 1, d := 2, a := 16, b := 32 }, .mmax { len := 1, fn := 1, d := 2, a := 16, b := 32, md := 8 }]
    ∧ pairFault 0x10000 ((turn accState).team 0).wsize [] = none ∧ ((accState.core 0).queue.countP fun m => m.inArray) < 4 ∧ ((turn accState).tile 0).range = []
    ∧ AllSync base [.mma { len := 1, d := 2, a := 16, b := 32 }] :=
  ⟨allSync (by decide), by decide, by decide, by decide, allSync (by decide)⟩

theorem witness_AccumulatorInstructions_order : (base.core 0).freeAccs[base.allocBefore 0]? = some 0 ∧ (accsTaken.core 0).freeAccs[accsTaken.allocBefore 0]? = none
    ∧ ({ base with groups := base.groups ++ [(1, bootGroup)] } : State).allocBefore 1 = 0
    ∧ ({ base with groups := [(0, { bootGroup with st := .held, hold := .aalloc }), (1, bootGroup)] } : State).allocBefore 1 = 1 := by decide

theorem witness_MatrixInstructions_due : (turn accState).followDue 0 = false := by decide

/-! ### Tokens, barriers, batches, copies -/

/-- Token 5 of group 0 is complete, or pending. -/
def tokState (x : TokState) : State := base.modGrp 0 fun g => { g with tok := g.tok.set 5 { st := x, acq := true, scope := 3 } }

/-- Barrier 3 of team 0 has two members and waits; group 0 has arrived there, or not. -/
def barState (parity : Bool) (arrive : Option Arrive) (bv : Bool) : State :=
  (base.modGrp 0 fun g => { g with arrive, batch := { g.batch with bvValid := bv, bvBar := 3 } }).setBar 0 3 { BarWord.of 0 with init := true, members := 2, parity }

theorem witness_PhaseAndBarrierInstructions : AllIssue base [.phase { len := 1, d := 5, md := 3 }, .phase { len := 1, d := 5, md := 4, xf := 1 }]
    ∧ AllIssue (tokState .complete) [.pwait { len := 1, fn := 1, a := 5 }] ∧ AllIssue (tokState .pending) [.pwait { len := 1, fn := 1, a := 5 }]
    ∧ AllIssue base [.binit { len := 1, d := 3, xf := 1, imm := 255 }, .btest { len := 1, d := 3, a := 3 }] ∧ (base.bar 0 3).arrived = 0
    ∧ AllSync (barState true none true) [.barv { len := 1, fn := 1, d := 3, a := 3 }] ∧ ((barState true none true).bar 0 3).parity = true
    ∧ AllSync (barState false (some { bar := 3, rel := {} }) false) [.bara { len := 1, fn := 2, d := 3, a := 3 }]
    ∧ (turn (barState false (some { bar := 3, rel := {} }) false)).relDone {} = true
    ∧ AllSync (barState false none false) [.barv { len := 1, fn := 1, d := 3, a := 3 }, .bara { len := 1, fn := 2, d := 3, a := 3 }]
    ∧ ((barState false none false).bar 0 3).init = true ∧ ((barState false none false).bar 0 3).gmask.getLsbD 0 = false
    ∧ AllIssue (barState true none false) [.bwait { len := 1, fn := 3, a := 3, b := 2 }] :=
  ⟨allIssue (by decide), allIssue (by decide), allIssue (by decide), allIssue (by decide), by decide, allSync (by decide), by decide, allSync (by decide), by decide,
    allSync (by decide), by decide, by decide, allIssue (by decide)⟩

/-- Batch 0 of group 0 is sealed, and complete or not. -/
def batchState (done : BitVec 32) : State := barState false none false |>.modGrp 0 fun g => { g with batch := { g.batch with issued := 1, done } }

theorem witness_BatchInstructions : AllIssue base [.cseal { len := 1, d := 3 }] ∧ AllIssue (batchState 1) [.cwait { len := 1, fn := 1, xf := 1 }]
    ∧ ((turn (batchState 1)).grp 0).batch.complete 0 = true ∧ AllIssue (batchState 0) [.cbind { len := 1, fn := 2, d := 3, a := 2 }, .cstat { len := 1, fn := 3, d := 3, a := 2 }]
    ∧ ((turn (batchState 0)).grp 0).batch.sealed 0 = true ∧ ((turn (batchState 0)).grp 0).batch.complete 0 = false ∧ ((turn (batchState 0)).grp 0).batch.age 0 < 8 :=
  ⟨allIssue (by decide), allIssue (by decide), by decide, allIssue (by decide), by decide, by decide, by decide⟩

/-- Barrier 3 with an arrival, with group 0 in it or not, or without INIT. -/
def barOf (w : BarWord) : State := base.setBar 0 3 w
/-- s2 is poisoned, and sr.ctl.pt is set or not. -/
def badS (pt : Bool) (s : State) : State := s.modGrp 0 fun g => { g with s := [(2, { val := 0, poi := 1 })], ctl := if pt then 3 else 0 }

theorem witness_PhaseAndBarrierInstructions_merge : AllIssue (tokState .pending) [.phase { len := 1, d := 5, md := 3 }]
    ∧ (((turn (tokState .pending)).grp 0).token 5).st = .pending := ⟨allIssue (by decide), by decide⟩
theorem witness_PhaseAndBarrierInstructions_ended : ∀ err ∈ [true, false],
    let s := (barState true none true).modGrp 0 fun g => { g with ended := some err }
    AllSync s [.barv { len := 1, fn := 1, d := 3, a := 3 }] ∧ ((turn s).grp 0).ended = some err := by
  intro err he
  simp only [List.mem_cons, List.mem_nil_iff, or_false] at he
  rcases he with rfl | rfl <;> exact ⟨allSync (by decide), by decide⟩
theorem witness_PhaseAndBarrierInstructions_arrived : AllSync (barState false (some { bar := 3, rel := {}, parity := some true }) false) [.bara { len := 1, fn := 2, d := 3, a := 3 }] :=
  allSync (by decide)
theorem witness_PhaseAndBarrierInstructions_traps : AllIssue base [.binit { len := 1, d := 3, b := 2 }] ∧ ((turn base).grp 0).rdS 2 = .of 0
    ∧ AllIssue (base.modGrp 0 fun g => { g with s := [(2, .of 256)] }) [.binit { len := 1, d := 3, b := 2 }]
    ∧ AllIssue (barOf { BarWord.of 0 with init := true, members := 2, arrived := 1 }) [.binit { len := 1, d := 3, xf := 1, imm := 255 }]
    ∧ ((barOf { BarWord.of 0 with init := true, members := 2, arrived := 1 }).bar 0 3).arrived ≠ 0
    ∧ AllSync (barOf (BarWord.of 0)) [.barv { len := 1, fn := 1, d := 3, a := 3 }, .bara { len := 1, fn := 2, d := 3, a := 3 }]
    ∧ ((barOf (BarWord.of 0)).bar 0 3).init = false
    ∧ AllSync (barOf { BarWord.of 0 with init := true, members := 2, arrived := 1, gmask := 1 }) [.barv { len := 1, fn := 1, d := 3, a := 3 }, .bara { len := 1, fn := 2, d := 3, a := 3 }]
    ∧ ((barOf { BarWord.of 0 with init := true, members := 2, arrived := 1, gmask := 1 }).bar 0 3).gmask.getLsbD 0 = true
    ∧ AllIssue (barOf (BarWord.of 0)) [.bwait { len := 1, fn := 3, a := 3, b := 2 }] :=
  ⟨allIssue (by decide), by decide, allIssue (by decide), allIssue (by decide), by decide, allSync (by decide), by decide, allSync (by decide), by decide, allIssue (by decide)⟩
theorem witness_PhaseAndBarrierInstructions_poison : AllIssue (badS false (barState true none false)) [.bwait { len := 1, fn := 3, a := 3, b := 2 }]
    ∧ AllIssue (badS false base) [.binit { len := 1, d := 3, b := 2 }] ∧ (((turn (badS false base)).grp 0).rdS 2).poi ≠ 0
    ∧ issuesB (.bwait { len := 1, fn := 3, a := 3, b := 2 }) (badS true (barState true none false)) = true
    ∧ issuesB (.binit { len := 1, d := 3, b := 2 }) (badS true base) = true ∧ ((turn (badS true base)).grp 0).pt = true
    ∧ (((turn (badS true base)).grp 0).rdS 2).poi ≠ 0 := ⟨allIssue (by decide), allIssue (by decide), by decide, by decide, by decide, by decide, by decide⟩

/-- Group 0 has sealed `issued` batches and completed `done`; the slot of batch `j` is bound or has its CODE. -/
def batchOf (issued done : BitVec 32) (j : Nat) (sl : BatchSlot) (init : Bool) : State :=
  (barOf { BarWord.of 0 with init, members := 2 }).modGrp 0 fun g => { g with batch := ({ g.batch with issued, done } : Batch).modSlot j fun _ => sl }

theorem witness_BatchInstructions_hold : AllIssue (batchOf 7 0 0 {} true) [.cseal { len := 1, d := 3 }] ∧ ((turn (batchOf 7 0 0 {} true)).grp 0).batch.incomplete = 7
    ∧ AllIssue (batchOf 7 7 0 { bound := true } true) [.cseal { len := 1, d := 3 }] ∧ (((turn (batchOf 7 7 0 { bound := true } true)).grp 0).batch.slot (7 + 1)).bound = true
    ∧ ((turn (batchOf 6 0 0 {} true)).grp 0).batch.incomplete < 7 ∧ AllIssue (batchOf 6 0 0 {} true) [.cseal { len := 1, d := 3 }] :=
  ⟨allIssue (by decide), by decide, allIssue (by decide), by decide, by decide, allIssue (by decide)⟩
theorem witness_BatchInstructions_wait : AllIssue (batchOf 1 0 0 { glob := true, out := 1 } true) [.cwait { len := 1, fn := 1, xf := 1 }]
    ∧ ((turn (batchOf 1 0 0 { glob := true, out := 1 } true)).grp 0).batch.complete 0 = false
    ∧ AllIssue (batchOf 1 1 0 { glob := true } true) [.cwait { len := 1, fn := 1, xf := 1 }] ∧ ((turn (batchOf 1 1 0 { glob := true } true)).grp 0).batch.complete 0 = true
    ∧ ((turn (batchOf 1 1 0 { glob := true } true)).grp 0).batch.age 0 ≤ 1 ∧ (((turn (batchOf 1 1 0 { glob := true } true)).grp 0).batch.slot (1 - 1)).glob = true
    ∧ ((turn (batchOf 1 1 0 {} true)).grp 0).batch.sealed 9 = false :=
  ⟨allIssue (by decide), by decide, allIssue (by decide), by decide⟩
theorem witness_BatchInstructions_bind : AllIssue (batchOf 1 1 0 { code := 1 } true) [.cbind { len := 1, fn := 2, d := 3, a := 2 }]
    ∧ ((turn (batchOf 1 1 0 { code := 1 } true)).grp 0).batch.complete 0 = true ∧ ((turn (batchOf 1 1 0 { code := 1 } true)).grp 0).batch.age 0 < 8
    ∧ AllIssue (batchOf 8 8 0 {} true) [.cbind { len := 1, fn := 2, d := 3, a := 2 }] ∧ ((turn (batchOf 8 8 0 {} true)).grp 0).batch.age 0 = 8
    ∧ ((turn (batchOf 8 8 0 {} true)).grp 0).batch.sealed 0 = true
    ∧ AllIssue (batchOf 0 0 0 {} true) [.cbind { len := 1, fn := 2, d := 3, a := 2 }] ∧ ((turn (batchOf 0 0 0 {} true)).grp 0).batch.sealed 0 = false
    ∧ AllIssue (batchOf 1 0 0 {} false) [.cbind { len := 1, fn := 2, d := 3, a := 2 }] ∧ ((batchOf 1 0 0 {} false).bar 0 3).init = false
    ∧ AllIssue (batchOf 1 0 0 { bound := true } true) [.cbind { len := 1, fn := 2, d := 3, a := 2 }]
    ∧ (((turn (batchOf 1 0 0 { bound := true } true)).grp 0).batch.slot 0).bound = true ∧ ((batchOf 1 0 0 { bound := true } true).bar 0 3).init = true :=
  ⟨allIssue (by decide), by decide, by decide, allIssue (by decide), by decide, by decide, allIssue (by decide), by decide, allIssue (by decide), by decide,
    allIssue (by decide), by decide, by decide⟩

/-- A copy descriptor at offset 0 of the window of team 0: 4 elements of one byte from window offset 0x1000 to 0x2000; `c` and `multi` are added to
its control word and MULTI. -/
def copyState (c multi : Nat) (follow : List Byte) : State :=
  { base with spad := memWrite (memWrite [] 0 (leBytes 8 (0x140001 + c) ++ leBytes 8 0x1000 ++ leBytes 8 0x2000 ++ leBytes 8 0 ++ leBytes 8 multi
      ++ leBytes 6 1 ++ leBytes 6 1 ++ leBytes 4 4 ++ leBytes 8 0)) 0xD0 follow } |>.modPart 0
    fun p => { p with routes := [(17, some { num := 17, src := (0, 0), dst := (0, 0) })] }

/-- What a copy's issue needs, as a check. -/
def copyReady (s : State) (kind : CopyKind) : Bool :=
  let rd := (turn s).spadRd 0 0 256
  let d := readDesc rd.2.1
  (rd.2.2.all fun b => !b) && !d.bad (descNat rd.2.1 0 8) && (sideCheck d.src.toNat d.srcSide 1 65536).2.isNone
    && (kind = .multicast || (sideCheck d.dst.toNat d.dstSide 1 65536).2.isNone) && rd.1.copyRoom 0 && decide ((rd.1.tile 0).range.length + 2 ≤ 64)
    && match kind with
       | .multicast => d.dspace = 1 && d.multi.toNat / 2 ^ 32 % 256 = 1 && (smGet none ((turn s).part 0).routes d.route).isSome
       | .follow => d.route = 0 && d.multi = 0 && d.dspace = 1 && (rd.1.member 0 (followGroup d)).any fun h => !followBad d h.regs
       | _ => d.route = 0 && d.multi = 0

theorem witness_CopyAndMessageInstructions : AllIssue (copyState 0 0 []) [.cpy { len := 1, a := 2 }] ∧ copyReady (copyState 0 0 []) .plain = true
    ∧ AllIssue (copyState 0x110000000 0x100000000 []) [.cpym { len := 1, fn := 1, a := 2 }]
    ∧ AllIssue (copyState 0 0 []) [.cpyf { len := 1, fn := 2, a := 2 }] ∧ copyReady (copyState 0 0 []) .follow = true
    ∧ AllIssue (base.modGrp 0 fun g => { g with copyr := false }) [.cpy { len := 1, a := 2 }] :=
  ⟨allIssue (by decide), by decide, allIssue (by decide), allIssue (by decide), by decide, allIssue (by decide)⟩

theorem witness_CopyAndMessageInstructions_multicast : copyReady (copyState 0x110000000 0x100000000 []) .multicast = true := by decide

/-- s6 names team 9 over route 17. -/
def msgState : State := (copyState 0 0 []).modGrp 0 fun g => { g with s := [(6, .of 0x1100000009)] }

theorem witness_CopyAndMessageInstructions_message : AllIssue msgState [.xsend { len := 1, a := 8, b := 5, c := 6, md := 2, imm := 0x100 }]
    ∧ ((turn msgState).grp 0).rdS 6 = .of 0x1100000009 ∧ (0x1100000009 : Word).toNat / 2 ^ 46 % 1024 = 0 ∧ bits (0x1100000009 : Word) 32 8 = 17
    ∧ bits (0x1100000009 : Word) 56 8 = 0 ∧ (smGet none ((turn msgState).part 0).routes 17).isSome = true ∧ (turn msgState).copyRoom 0 = true :=
  ⟨allIssue (by decide), by decide⟩

/-! ### Records and spawned groups -/

/-- A record of node 1. -/
def rec1 : Rec := { node := 1, depth := 1, committed := true, elig := true, payload := List.replicate 16 7, ppoi := List.replicate 16 false }

/-- Kernel 0 of context 0 has two nodes; `q0` and `q1` are their queues. -/
def kernState (q0 q1 : Queue) : State := (base.modCtx 0 fun x => { x with
  kerns := [(0, { st := .active, text := 0x10000, entries := [0, 64], nodes := [{ dlim := 3 }, { dlim := 3 }], queues := [q0, q1] })] }).modGrp 0 fun g =>
    { g with s := [(1, .of 64), (2, .of (2 ^ 40))], v := [(3, Vector.replicate 32 (.of (2 ^ 40)))] }

/-- A queue of four slots, the same with a record, and the same closed. -/
def q4 : Queue := { pool := 4 }
def qRec : Queue := { pool := 4, recs := [(0, some rec1)] }
def qShut : Queue := { pool := 4, closed := true }

/-- One lane of group 0 is live. -/
def one (s : State) : State := s.modGrp 0 fun g =>
  { g with lane := Vector.ofFn fun i => if i.val = 0 then g.lane[i] else { g.lane[i] with st := .exited } }

theorem witness_RecordInstructions_ralloc : AllIssue (one (kernState q4 q4)) [.ralloc { len := 1, d := 7, b := 4, c := 3, md := 2, imm := 1 }]
    ∧ (envAt (.ralloc { len := 1, d := 7, b := 4, c := 3, md := 2, imm := 1 }) (one (kernState q4 q4))).e = 1 <<< (0 : LaneId).val
    ∧ q4.freeSlot = some 0 ∧ ((kernState q4 q4).kern 0 0).nodes.length = 2 ∧ ((turn (one (kernState q4 q4))).grp 0).depth + 1 ≤ 3 :=
  ⟨allIssue (by decide), by decide⟩

theorem witness_RecordInstructions_qstat : AllIssue (kernState q4 qRec) [.qstat { len := 1, fn := 1, d := 3, imm := 1 }] := allIssue (by decide)

theorem witness_RecordInstructions_queue : AllIssue (kernState q4 qRec) [.rcommit { len := 1, fn := 1, d := 3, a := 1, b := 2 },
    .rfree { len := 1, fn := 2, d := 3 }, .rjoin { len := 1, fn := 0, d := 3 }] ∧ handleOk ((kernState q4 qRec).kern 0 0) (2 ^ 40) = true
    ∧ (kernState q4 qRec).ops = [] := ⟨allIssue (by decide), by decide⟩

theorem witness_RecordInstructions_depth : AllIssue ((one (kernState q4 q4)).modGrp 0 fun g => { g with depth := 3 })
    [.ralloc { len := 1, d := 7, b := 4, c := 3, imm := 1 }] ∧ ((kernState q4 q4).kern 0 0 |>.node 1).dlim < 3 + 1 := ⟨allIssue (by decide), by decide⟩

theorem witness_RecordInstructions_rpop : (∀ q ∈ [qShut, q4, qRec], AllIssue (kernState q4 q) [.rpop { len := 1, d := 3, a := 1, xf := 1, imm := 1 }])
    ∧ qShut.closed = true ∧ q4.order = [] ∧ qRec.order = [(0, rec1)] ∧ qRec.waiters = []
    ∧ ((turn (kernState q4 qRec)).grp 0).rdS 1 = .of 64 ∧ 64 + ((kernState q4 qRec).kern 0 0 |>.node 1).size ≤ ((kernState q4 qRec).team 0).wsize := by
  refine ⟨?_, by decide⟩
  intro q hq
  simp only [List.mem_cons, List.mem_nil_iff, or_false] at hq
  rcases hq with rfl | rfl | rfl <;> exact allIssue (by decide)

/-- Two slots of core 0 are bound for spawned groups of kernel 0. -/
def spawnState : State := { kernState q4 q4 with groups := (kernState q4 q4).groups ++ [(1, { st := .bound, bind := { dw0 := 2 ^ 62 } }), (2, { st := .bound, bind := { dw0 := 2 ^ 62 } })] }

theorem witness_RecordInstructions_spawn : AllIssue spawnState [.spawn { len := 1, d := 3, imm := 0x102 }] ∧ (spawnState.spawnSlots 0 0 0) = [1, 2]
    ∧ (turn spawnState).groupsOf 0 = [0] ∧ (turn spawnState).siteMoving 0 0 = false
    ∧ AllIssue (kernState q4 q4) [.spawn { len := 1, d := 3, imm := 0x102 }] ∧ ((kernState q4 q4).spawnSlots 0 0 0) = []
    ∧ ((kernState q4 q4).kern 0 0).entries[1]? = some 64 := ⟨allIssue (by decide), by decide, by decide, by decide, allIssue (by decide), by decide, by decide⟩

/-- The queues of kernel 0 stand at site 1, to which the link is down. -/
def farState : State := (kernState { q4 with home := 1 } { q4 with home := 1 }).modRouter 0 fun r => { r with down := [1] }
/-- The nodes of kernel 0 have the trap mode or not. -/
def trapMode (b : Bool) (s : State) : State := s.modCtx 0 fun x => { x with kerns := x.kerns.map fun e => (e.1, { e.2 with nodes := e.2.nodes.map fun d => { d with trap := b } }) }
/-- RALLOC of a record of node 1. -/
noncomputable def ralloc1 : Instr := .ralloc { len := 1, d := 7, b := 4, c := 3, imm := 1 }
/-- RPOP of a record of node 1. -/
noncomputable def rpop1 (xf : BitVec 2) : Instr := .rpop { len := 1, d := 3, a := 1, xf, imm := 1 }

theorem witness_RecordInstructions_far : AllIssue farState [.ralloc { len := 1, d := 7, b := 4, c := 3, imm := 1 }, .qstat { len := 1, fn := 1, d := 3, imm := 1 },
      .rpop { len := 1, d := 3, a := 1, xf := 1, imm := 1 }]
    ∧ (turn farState).cutBoth 0 0 1 = true ∧ (turn (kernState q4 q4)).cutBoth 0 0 0 = false ∧ (farState.queue 0 0 1).home = 1 := ⟨allIssue (by decide), by decide⟩
theorem witness_RecordInstructions_full : (∀ b ∈ [true, false], AllIssue (trapMode b (one (kernState q4 { q4 with pool := 0 }))) [ralloc1]
      ∧ AllIssue ((trapMode b (one (kernState q4 q4))).modTeam 0 fun t => { t with uncommitted := 256 }) [ralloc1]
      ∧ AllIssue ((trapMode b (one (kernState q4 q4))).modGrp 0 fun g => { g with depth := 3 }) [ralloc1]
      ∧ (((trapMode b (one (kernState q4 q4))).kern 0 0).node 1).trap = b)
    ∧ ({ q4 with pool := 0 } : Queue).freeSlot = none ∧ (base.team 0).uncommitted < 256 := by
  refine ⟨?_, by decide, by decide⟩
  intro b hb
  simp only [List.mem_cons, List.mem_nil_iff, or_false] at hb
  rcases hb with rfl | rfl <;> exact ⟨allIssue (by decide), allIssue (by decide), allIssue (by decide), by decide⟩
theorem witness_RecordInstructions_held : (∀ q ∈ [qShut, q4, qRec], AllIssue (kernState q4 q) [rpop1 0]) ∧ 1 < ((kernState q4 q4).kern 0 0).queues.length
    ∧ qShut.closed = true ∧ q4.order = [] ∧ ((turn (kernState q4 qRec)).grp 0).hold ≠ .rpop := by
  refine ⟨?_, by decide⟩
  intro q hq
  simp only [List.mem_cons, List.mem_nil_iff, or_false] at hq
  rcases hq with rfl | rfl | rfl <;> exact allIssue (by decide)
theorem witness_RecordInstructions_traps : ∀ s ∈ [kernState q4 q4], (s.kern 0 0).nodes[((turn s).team 0).node]?.any (fun d => d.trap) = false := by decide

/-! ### The step -/

theorem witness_StepRunsDecoded :
    let s : State := { base with stage := .issues, turns := [0] }
    let b := State.boundary { s with turns := [] } 0
    let s2 : State := { (b.1.modTeam (b.1.grp 0).team fun t => { t with begun := true }) with cur := 0 }
    s.nextTurn = none ∧ s.stage = .issues ∧ s.turns = [0] ∧ (s.grp 0).allParked = false ∧ b.2 = true
      ∧ ∃ sel ws i n, ((s2.grp 0).tick s2.time).select = some sel ∧ s2.fetchMiss 0 sel.pc = [] ∧ (s2.fetch 0 sel.pc).2 = .ok ws ∧ decode ws = .ok (i, n) :=
  ⟨by decide, rfl, rfl, by decide, by decide, _, _, _, _, rfl, by decide, rfl, rfl⟩
/-- Where the TLB holds no page the walker is asked first (R191). -/
theorem witness_StepRunsDecoded_walk : let s : State := { base.modTile 0 fun t => { t with tlb := [] } with turns := [0] }
    s.fetchMiss 0 0x10000 ≠ [] := by decide
theorem witness_StepRunsDecoded_stages : ({ base with stage := .events, agenda := [.event 0 (.wakeEvent 0)] } : State).nextTurn.isSome = true
    ∧ ({ base with stage := .closing } : State).nextTurn = none
    ∧ ({ base with stage := .events, groups := [], turns := [] } : State).nextTurn = none
    ∧ ({ base with stage := .events, groups := [], turns := [] } : State).openIssues.turns = [] := by decide

/-- A step runs an IADD placed for it, and its result lands after L FCLK (R37, R108). -/
theorem test_step_iadd : ∃ t, step (State.reset.withFetchWord 32 0x0810C00C) = .next t ∧ (t.grp 0).pend.length = 1 := ⟨_, rfl, by decide⟩

/-- The page that `State.withFetchWord` maps may be executed, and its frame belongs to the partition or does not. -/
theorem witness_FetchReadsMemory : Maps base 0 0x10000 .fetch { part := 0, base := 0x10000, size := 65536, leaf := BitVec.ofNat 64 (2 ^ 63 + 2 ^ 62 + 2 ^ 57) }
    ∧ leafTgt (2 ^ 63 + 2 ^ 62 + 2 ^ 57) = 0 ∧ leafRep (2 ^ 63 + 2 ^ 62 + 2 ^ 57) = none ∧ base.owns 0 0 = true
    ∧ ({ base with owner := [] } : State).owns 0 0 = false := ⟨⟨by decide, by decide, by decide⟩, by decide, by decide, by decide, by decide⟩

/-- A line of the instruction cache, and a way that is cut. -/
theorem witness_FetchReadsMemory_line : ((base.core 0).icache.find? fun x => x.1 = l1Key 0 0) = none ∧ base.cutBoth 0 0 (base.homeSite 0) = false
    ∧ (let s := base.modCore 0 fun c => { c with icache := [(l1Key 0 0, [1, 2, 3, 4])] }; ((s.core 0).icache.find? fun x => x.1 = l1Key 0 0).isSome = true)
    ∧ (let s := (base.modRouter 0 fun r => { r with down := [1] }).modRouter 1 fun r => { r with down := [3] }; s.cutBoth 0 1 (s.homeSite 0) = true) := by decide

theorem witness_MemoriesKept : MemoriesWf base ∧ ∃ t, step base = .next t := ⟨⟨by decide, by decide, by decide⟩, _, rfl⟩

/-- An instruction with its fields at the ends of their ranges. -/
def wide : Instr := .iaddExt { len := 3, stall := 7, d := 127, a := 127, gp := 7, gn := true, sbsV := true, sbsN := 7, sbw := 255, md := 4, lit := 0xFFFFFFFFFFFFFFFF }

theorem witness_DecodeEncodes : wellFormed wide = true ∧ (encode wide).isSome = true := by decide

theorem witness_FloatToInteger : (-(2 : Int) ^ 63) ≤ 0 ∧ (0 : Int) ≤ 2 ^ 63 - 1 ∧ (0 : Int) ≤ 0 := by decide

/-! ### Events of groups and of the supervisor core -/

/-- `base` with group 0 changed. -/
def grp0 (f : Group → Group) : State := base.modGrp 0 f
/-- `base` with an operation of group 0 in flight. -/
def withOp (o : Op) : State := { base with ops := [o] }
/-- A group that drains, alone in its team. -/
def leaving : State := grp0 fun g => { g with st := .draining, acc := g.acc.set 2 (some 5), batch := g.batch.seal }

theorem witness_GroupEvents : (grp0 fun g => { g with pend := [{ regs := [], lat := 4, flags := 3 }] }).grp 0 |>.pend.any fun p => decide (p.land.toNat ≤ base.time.toNat) := by
  decide
theorem witness_GroupEvents_complete : (withOp { id := 1, k := 0, kind := .ld, sbs := some 7 }).opReady { id := 1, k := 0, kind := .ld, sbs := some 7 } = true
    ∧ OpKind.ld ≠ .queue ∧ OpKind.ld.store = false := by decide
theorem witness_GroupEvents_trap : (grp0 fun g => { g with trapReq := some (0x1A, 4, 1) }).quiet 0 = true := by decide
theorem witness_GroupEvents_watchdog : ((grp0 fun g => { g with period := 1, elapsed := 1 }).grp 0).expired = true
    ∧ ((grp0 fun g => { g with period := 1, elapsed := 0 }).grp 0).expired = false := by decide
/-- Group 0 is the oldest ready one of its core, from FCLK 0 on. -/
def waited (now : Word) : State := { base.modCore 0 fun c => { c with oldest := [(0, some (0, 0))] } with time := now, turns := [] }
theorem witness_GroupEvents_overdue : (waited 48).late (coreOf 0) = some (slotOf 0)
    ∧ (waited 47).late (coreOf 0) = none ∧ 0 ∉ (waited 48).turns := by decide
theorem witness_GroupEvents_hold : (grp0 fun g => { g with holdReq := true }).quiet 0 = true ∧ (base.grp 0).st = .ready ∧ (base.grp 0).trapReq = none
    ∧ base.faulted 0 = false ∧ (base.grp 0).expired = false := by decide
theorem witness_GroupEvents_stall : ∃ s : State, (s.grp 0).st = .held ∧ (s.grp 0).hold = .stall ∧ (s.grp 0).stallEnd.toNat ≤ s.time.toNat :=
  ⟨{ grp0 fun g => { g with st := .held, hold := .stall, stallEnd := 9 } with time := 9 }, by decide⟩
theorem witness_GroupEvents_sleep : ∃ s : State, (s.grp 0).sleepEnd = some 9 ∧ (9 : Word).toNat ≤ s.time.toNat ∧ (s.grp 0).st = .held ∧ (s.grp 0).hold = .sleep :=
  ⟨{ grp0 fun g => { g with st := .held, hold := .sleep, sleepEnd := some 9 } with time := 9 }, by decide⟩
theorem witness_GroupEvents_drain : (leaving.drainNow 0).drained 0 = true
    ∧ (leaving.drainNow 0).openRecs ((leaving.grp 0).team) = [] ∧ (leaving.grp 0).accOf 2 = some 5 ∧ (leaving.drainNow 0).groupsOf 0 = [0] := ⟨by decide +kernel, by decide⟩

/-- Group 0 is held at `i` for a reason. -/
def heldAt (i : BitVec 64) (h : Hold) : State :=
  ({ State.reset.withFetchWord 64 i.toNat with agenda := [] } : State).modGrp 0 fun g => { g with st := .held, hold := h }

/-- A group held at an instruction takes it up again, as a check. -/
def takesUpB (k : Nat) (hs : List Hold) (s : State) (maj : BitVec 7) : Bool :=
  (s.grp k).st = .held && hs.contains (s.grp k).hold && (s.boundary k).2
    && match ({ ((s.boundary k).1.modGrp k fun g => { g with hold := .none }) with cur := k } : State).fetchInstr k with
       | (_, .form m _) => m = maj
       | _ => false

/-- A long form's first two words. -/
def long (b a d : BitVec 6) (fn : BitVec 2) (maj : BitVec 7) (md : BitVec 4) : BitVec 64 := w1 0 0 0 md 0 0 0 ++ w0 b a d fn maj 0 1

theorem takes_up {i : Instr} {k : Nat} {hs : List Hold} {s : State} {maj : BitVec 7} {f : Fields} (hi : mkInstr maj f = some i)
    (h1 : (s.grp k).st = .held ∧ (s.grp k).hold ∈ hs ∧ (s.boundary k).2 = true)
    (h2 : (({ ((s.boundary k).1.modGrp k fun g => { g with hold := .none }) with cur := k } : State).fetchInstr k).2 = .form maj f) :
    ∃ s2, TakesUp i k hs s s2 :=
  ⟨_, h1.1, h1.2.1, _, maj, f, Prod.ext rfl h1.2.2, Prod.ext rfl h2, hi⟩

theorem witness_HeldGroupsTakeUp : (∃ s2, TakesUp (.pwait { len := 1, fn := 1, a := 5 }) 0 [.pwait] (heldAt (long 0 5 0 1 0x68 0) .pwait) s2)
    ∧ (∃ s2, TakesUp (.cseal { len := 1, d := 3 }) 0 [.cwait, .cseal] (heldAt (long 0 0 3 0 0x6C 0) .cseal) s2)
    ∧ (∃ s2, TakesUp (.cpy { len := 1, a := 2 }) 0 [.engine, .range] (heldAt (long 0 2 0 0 0x6B 0) .engine) s2)
    ∧ (∃ s2, TakesUp (.lds { len := 1, d := 3, a := 1, b := 2 }) 0 [.range] (heldAt (long 2 1 3 0 0x61 0) .range) s2)
    ∧ (∃ s2, TakesUp (.afree { len := 1, fn := 1, a := 2 }) 0 [.accBusy] (heldAt (long 0 2 0 1 0x58 0) .accBusy) s2)
    ∧ (∃ s2, TakesUp (.bwait { len := 1, fn := 3, a := 3, b := 2 }) 0 [.bwait] (heldAt (long 2 3 0 3 0x69 0) .bwait) s2)
    ∧ (∃ s2, TakesUp (.aalloc { len := 1, d := 3, a := 2 }) 0 [.aalloc] { heldAt (long 0 2 3 0 0x58 0) .aalloc with stage := .closing } s2)
    ∧ (∃ s2, TakesUp (.rpop { len := 1, d := 3, a := 1 }) 0 [.rpop] (heldAt (long 0 1 3 0 0x6F 0) .rpop) s2) :=
  ⟨takes_up (f := { len := 1, fn := 1, a := 5 }) rfl (by decide) rfl, takes_up (f := { len := 1, d := 3 }) rfl (by decide) rfl,
    takes_up (f := { len := 1, a := 2 }) rfl (by decide) rfl, takes_up (f := { len := 1, d := 3, a := 1, b := 2 }) rfl (by decide) rfl,
    takes_up (f := { len := 1, fn := 1, a := 2 }) rfl (by decide) rfl, takes_up (f := { len := 1, fn := 3, a := 3, b := 2 }) rfl (by decide) rfl,
    takes_up (f := { len := 1, d := 3, a := 2 }) rfl (by decide) rfl, takes_up (f := { len := 1, d := 3, a := 1 }) rfl (by decide) rfl⟩

/-- Group 0 is held at a BARV or BARA of barrier 3 with its arrival there. -/
def arrivesAt (fn : BitVec 2) (f : Group → Group) : State := (heldAt (long 0 3 3 fn 0x69 0) .bwait).modGrp 0 f

theorem witness_HeldGroupsTakeUp_arrival :
    let a : Arrive := { bar := 3, rel := {} }
    let s (fn : BitVec 2) : State := arrivesAt fn fun g => { g with arrive := some a }
    ((s 1).grp 0).st = .held ∧ a.parity = none ∧ (s 1).relDone a.rel = true ∧ (s 1).atBarv 0 = true ∧ (s 2).atBarv 0 = false ∧ ((s 2).grp 0).trapReq = none
      ∧ ∃ s2, State.fetchInstr { (((s 2).countArrival 0 a false).modGrp 0 fun g => { g with hold := .none, trapReq := none }) with cur := 0 } 0
        = (s2, .form 0x69 { len := 1, fn := 2, d := 3, a := 3 }) := ⟨by decide, by decide, by decide, by decide, by decide, by decide, _, rfl⟩
theorem witness_HeldGroupsTakeUp_ended :
    let s : State := arrivesAt 1 fun g => { g with batch := { g.batch with bvValid := true, bvBar := 3 }, ended := some false }
    (s.grp 0).arrive = none ∧ (s.grp 0).arriving = true ∧ ∃ s2, State.fetchInstr { (s.modGrp 0 fun g => { g with hold := .none, trapReq := none }) with cur := 0 } 0
        = (s2, .form 0x69 { len := 1, fn := 1, d := 3, a := 3 }) := ⟨by decide, by decide, _, rfl⟩

/-- Every lane of group 0 is parked at a VOTE. -/
def atVote : State := ({ State.reset.withFetchWord 64 (long 0 1 3 0 0x1E 0).toNat with agenda := [] } : State).modGrp 0 fun g =>
  { g with lane := Vector.replicate 32 { pcv := 0x10000, st := .parked } }

theorem witness_HeldGroupsTakeUp_sync : 0 ∈ ({ atVote with turns := [0] } : State).turns ∧ (atVote.grp 0).mayIssue atVote.time = true
    ∧ (∃ x, (atVote.grp 0).select = some x ∧ x.sync = true) ∧ (atVote.boundary 0).2 = true
    ∧ (({ (atVote.boundary 0).1 with cur := 0 } : State).fetchInstr 0).2 = .form 0x1E { len := 1, d := 3, a := 1 } :=
  ⟨by decide, by decide, ⟨_, rfl, rfl⟩, by decide, rfl⟩

theorem witness_GroupEvents_watchdog_closing : let s : State := { grp0 fun g => { g with period := 1, elapsed := 1 } with stage := .closing }
    s.stage = .closing ∧ (s.grp 0).expired = true ∧ (s.grp 0).trapReq = none := by decide
theorem witness_GroupEvents_overdue_wait : ((waited 48).core (coreOf 0)).wait = false := by decide
theorem witness_HeldGroupsTakeUp_closing : (∃ s2, TakesUp (.rpop { len := 1, d := 3, a := 1 }) 0 [.rpop] { heldAt (long 0 1 3 0 0x6F 0) .rpop with stage := .closing } s2)
    ∧ (({ heldAt (long 2 1 3 0 0x61 0) .range with stage := .closing } : State).core (coreOf 0)).wait = false :=
  ⟨takes_up (f := { len := 1, d := 3, a := 1 }) rfl (by decide) rfl, by decide⟩

/-- A record that a plan of context 0 holds for slot 1 of core 0: valid, with the least budget of registers. -/
def planned1 : BindRec := { dw0 := 2 ^ 63, dw2 := 2 * 2 ^ 8 }
/-- `base` with group 0 trapped. -/
def trapped : State := grp0 fun g => { g with st := .trapped }

theorem witness_SupervisorEvents : ((trapped.grp 0).st = .trapped ∧ ∃ l : LaneId, (trapped.grp 0).lane[l].st = .live ∧ (trapped.grp 0).lane[l].yld = false)
    ∧ (base.grp 1).st = .free ∧ (base.grp 0).st = .ready ∧ (grp0 fun g => { g with st := .bound }).grp 0 ≠ {} :=
  ⟨⟨by decide, 31, by decide⟩, by decide⟩
theorem witness_SupervisorEvents_window : (8 * 31 = 256 * 0 + 8 * (31 : LaneId).val ∧ 0 < (trapped.grp 0).regs ∧ (0 : Nat) < 128)
    ∧ (0x91F8 = 0x9000 + 8 * 63 ∧ 0 < 63 ∧ 63 < 64) ∧ 0x94F8 = 0x9400 + 8 * (31 : LaneId).val ∧ (leBytes 8 5).length = 8 ∧ (leBytes 8 5 ≠ []) := by decide
theorem witness_SupervisorEvents_acc : ∃ s : State, ((s.core 0).acc 7).st = .zeroed ∧ (s.grp ((s.core 0).acc 7).owner).st = .trapped ∧ (s.core 0).executing = none
    ∧ 4 ∣ 0x3FFC ∧ 0x3FFC + (leBytes 4 1).length ≤ 0x4340 :=
  ⟨trapped.modCore 0 fun c => { c with accs := c.accs.set 7 { st := .zeroed } }, by decide⟩
theorem witness_SupervisorEvents_command : (15 : Nat) < 16 ∧ 31 = 16 * 1 + 15 ∧ (base.grp 31).st = .free := by decide
theorem witness_SupervisorEvents_context : (base.ctx 0).st = .running ∧ ((base.modCtx 4095 fun x => { x with st := .castling }).ctx 4095).st = .castling
    ∧ 4095 < 4096 := by decide

/-- Slot 1 of site 0 is free, and the plan of kernel 0 of context 0 has a set for it. -/
def plannedState : State := kernState q4 q4 |>.modCtx 0 fun x => { x with
  kerns := x.kerns.map fun e => (e.1, { e.2 with plan := { sets := [{ node := 0, slots := [{ site := 0, core := 0, slot := 1, bind := planned1 }] }] } }) }

theorem witness_SupervisorEvents_bind : (plannedState.grp 1).st = .free ∧ planned1.valid = true ∧ plannedState.bindable 1 planned1 = true
    ∧ plannedState.bindable 1 { planned1 with dw0 := 2 ^ 63 + 15 * 2 ^ 4 } = false ∧ ({ planned1 with dw0 := 2 ^ 63 + 15 * 2 ^ 4 } : BindRec).valid = true
    ∧ ({} : BindRec).valid = false := by decide
theorem witness_SupervisorEvents_plugin : (∀ st ∈ [CtxState.created, .loaded, .runnable, .running, .preempting, .saved, .migrating], ((base.modCtx 0 fun x => { x with st }).ctx 0).st = st)
    ∧ mgx ≠ 0 ∧ (0x08000000 : Nat) < 0x0A000010 ∧ (151 : Nat) < 152 := by decide

/-! ### Events of the matrix array -/

/-- Accumulator 7 of core 0 and an MMA of FP16 in the array (R156). -/
def mmaState (m : MmaEnt) (a : Acc) : State := accState.modCore 0 fun c => { c with queue := [m], accs := c.accs.set 7 a, kgrant := 8, edges := 1 }
/-- An MMA with `prog` steps behind it. -/
def mma0 (prog : Nat) : MmaEnt := { acc := 7, x := false, ty := 0, areg := 16, breg := 32, prog }

theorem witness_MatrixEvents_kStep : ((mmaState (mma0 0) { st := .accumulating, name := 2 }).core 0).nextStep = some (mma0 0, 0) ∧ (mma0 0).readsAt 0 ≤ 8
    ∧ ((mmaState (mma0 0) { st := .accumulating, name := 2 }).core 0).run = none ∧ ((mmaState (mma0 0) { st := .accumulating, name := 2 }).core 0).edges ≠ 0
    ∧ ((mmaState (mma0 0) { st := .accumulating, name := 2 }).core 0).edgeAt = (mmaState (mma0 0) {}).time ∧ (mma0 0).acc < 8
    ∧ (mma0 0).ready.toNat ≤ (mmaState (mma0 0) {}).time.toNat ∧ ((mmaState (mma0 0) { st := .accumulating, name := 2 }).grp 0).pt = false := by decide
theorem witness_MatrixEvents_poisoned : ∃ s : State, (s.core 0).nextStep = some (mma0 0, 0) ∧ (s.core 0).run = none ∧ (s.core 0).edges ≠ 0 ∧ (s.core 0).edgeAt = s.time
    ∧ (s.grp ((s.core 0).acc 7).owner).pt = true ∧ ((s.core 0).acc 7).poi ≠ []
    ∧ (mma0 0).readsAt 0 ≤ (s.core 0).kgrant :=
  ⟨(mmaState (mma0 0) { st := .accumulating, name := 2, poi := [(0, true)] }).modGrp 0 fun g => { g with ctl := 3 }, by decide⟩
theorem witness_MatrixEvents_complete : ((mmaState (mma0 (mma0 0).steps) { st := .accumulating }).core 0).queue.find? (fun m => m.steps ≤ m.prog && m.endAt.toNat + 12 ≤ (12 : Word).toNat)
    = some (mma0 (mma0 0).steps) := by decide
theorem witness_MatrixEvents_trap : ∃ s : State, (s.core 0).queue.find? (fun m => !m.inArray && ((s.core 0).acc m.acc).fault
    && ((s.core 0).acc m.acc).owner = 0) = some { mma0 1 with inArray := false } ∧ (s.grp 0).st = .ready ∧ (s.grp 0).trapReq = none :=
  ⟨mmaState { mma0 1 with inArray := false } { st := .stalled, fault := true }, by decide⟩
theorem witness_MatrixEvents_drain : (((mmaState (mma0 0) { st := .draining }).core 0).acc 7).st = .draining := by decide
theorem witness_MatrixEvents_grant : ((mmaState (mma0 0) {}).tile 0).ration ≠ 0 ∧ ((mmaState (mma0 0) {}).core 0).clocked = true
    ∧ (∀ r ∈ [none, some (0, 1), some (0, 2)], let s := (mmaState (mma0 0) {}).modCore 0 fun c => { c with run := r, edges := 0 }
        (s.core 0).passedEdges s.time < s.lclkEdges 0)
    ∧ ((mmaState (mma0 0) {}).core 0).passedEdges 0 = (mmaState (mma0 0) {}).lclkEdges 0 ∧ (base.core 0).clocked = false := by decide

/-- A follow-on block: accumulator 2 of group 0, registers 16 and 32 (R175). -/
def followBytes : List Byte := leBytes 8 (2 * 2 ^ 6 + 16 * 2 ^ 16 + 32 * 2 ^ 23) ++ List.replicate 32 0

theorem witness_MatrixEvents_follow : ∃ (s : State) (x : Copy), s.copy? 9 = some x ∧ x.kind = .follow ∧ x.followIn = false ∧ x.landAt = some 0 ∧ (0 : Word).toNat < s.time.toNat
    ∧ (s.team x.team).image = none ∧ s.memberKey x.team (followGroup x.desc) = some 0 ∧ (s.grp 0).accOf (followAcc x.desc) = some 7 ∧ (s.grp 0).unexited ≠ 0
    ∧ pairFault 0 (s.team x.team).wsize ((followMma x.desc 9).apair.toList ++ (followMma x.desc 9).bpair.toList) = none
    ∧ ((s.core 0).queue.countP fun m => m.inArray) < 4 ∧ (s.tile 0).range = [] :=
  ⟨{ accState with copies := [{ id := 9, kind := .follow, gid := 0, team := 0, site := 0, part := 0, batch := 0, desc := { follow := followBytes }, total := 0, landAt := some 0 }], time := 1 }, _,
    rfl, by decide⟩

/-! ### Memory accesses -/

/-- An operation of one lane, at address 0 of memory, window or bank. -/
def lane0 (kind : OpKind) (x : LaneOp) (wr : List RegId := []) : Op := { id := 1, k := 0, kind, size := 4, lanes := [x], wr }
/-- An access that waits, one that has been performed, and one at a migrating page. -/
def x0 : LaneOp := { lane := 31, data := [1, 2, 3, 4] }

theorem witness_MemoryPerforms : (∀ kind ∈ [OpKind.ld, .ldp, .ldc, .st, .atom, .acas], (withOp (lane0 kind x0)).op? 1 = some (lane0 kind x0)
      ∧ (lane0 kind x0).lane? (31 : LaneId).val = some x0 ∧ (withOp (lane0 kind x0)).laneClear (lane0 kind x0) x0 = true
      ∧ (withOp (lane0 kind x0)).owns 0 0 = true ∧ ((withOp (lane0 kind x0)).l1 (lane0 kind x0).core (l1Key 0 0)).dirty = 0
      ∧ (withOp (lane0 kind x0)).onMigrating (lane0 kind x0) x0 = false ∧ (lane0 kind x0).together x0 = [x0] ∧ (lane0 kind x0).f.aop ≤ 9
      ∧ (withOp (lane0 kind x0)).wayCut (lane0 kind x0) x0 = false ∧ (withOp (lane0 kind x0)).hostLines = [])
    ∧ ∀ kind ∈ [OpKind.sts, .lds, .stb, .ldb], (withOp (lane0 kind x0)).laneClear (lane0 kind x0) x0 = true
      ∧ (withOp (lane0 kind x0)).bankCut (lane0 kind x0) x0 = false := by decide
theorem witness_MemoryPerforms_response : OpKind.ld.load = true ∧ OpKind.ld ≠ .ldc ∧ (lane0 .ld { x0 with phase := .performed, val := [1, 2, 3, 255] } [.v 0]).wr ≠ []
    ∧ (4 : Nat) ≤ 8 ∧ ([1, 2, 3, 255] : List Byte).length = 4 := by decide

/-- An access held at its page. -/
def xHeld : LaneOp := { x0 with ea := 0x20000, phase := .migrating }
/-- `memState` with it. -/
def replayState : State := { memState with ops := [lane0 .st xHeld] }

theorem witness_MemoryPerforms_migrating : (∃ y, replayState.leafNow (lane0 .st xHeld) xHeld = some y ∧ leafMig y.leaf = false)
    ∧ ∀ o' ∈ replayState.ops, ∀ z ∈ o'.lanes, xHeld.held = z.held ∧ xHeld.lane ≤ z.lane := ⟨⟨_, rfl, by decide⟩, by decide⟩

/-- The walker of tile 0 has a miss for the page at 0x20000, in a table at 0x10000 that maps it or does not. -/
def walkState (ok : Bool) : State :=
  { (base.modPart 0 fun p => { p with root := 0x10000 }).modTile 0 fun t => { t with tlb := [], walks := [{ k := 0, part := 0, page := 2 }] } with
    owner := [(0, 1), (1, 1), (2, 1)]
    mem := if ok then [(0x10002, 2), (0x10007, 0x80), (0x20004, 1), (0x20007, 0xC8)] else [] }

theorem witness_TranslationAndLines : (∀ ok ∈ [true, false], ((walkState ok).tile 0).walks.find? (fun m => !m.none) = some { k := 0, part := 0, page := 2 }
      ∧ (walkState ok).tlbFind 0 0 (65536 * 2) = none ∧ (0x20000 : Word).toNat / 65536 = 2)
    ∧ (∃ e base size, (walkState true).walkAt 0 0 (65536 * 2) = .leaf e base size) ∧ (walkState false).walkAt 0 0 (65536 * 2) = .none
    ∧ ({ walkState true with owner := [] } : State).walkAt 0 0 (65536 * 2) = .dropped 0x10000 ∧ ({ walkState true with owner := [] } : State).owns 0 0x10000 = false := by
  exact ⟨by decide, ⟨_, _, _, rfl⟩, rfl, rfl, by decide⟩

/-- The link from site 1 to the tables at site 0 is down. -/
def cutWalk : State := (walkState true).modRouter 1 fun r => { r with down := [3] }

theorem witness_TranslationAndLines_cut : cutWalk.walkAt 1 0 (65536 * 2) = .dropped 0x10000 ∧ cutWalk.owns 0 0x10000 = true := ⟨rfl, by decide⟩
/-- The read of a table was lost in FCLK `d`. -/
def lostWalk (d now : Word) : State :=
  { (walkState true).modTile 0 fun t => { t with walks := [{ k := 0, part := 0, page := 2, lost := some d }] } with time := now }

theorem witness_TranslationAndLines_lost : ((lostWalk 5 180004).tile 0).walks = [{ k := 0, part := 0, page := 2, lost := some 5 }]
    ∧ (180004 : Word).toNat < (5 : Word).toNat + 180000 ∧ (5 : Word).toNat + 180000 ≤ (180005 : Word).toNat := ⟨rfl, by decide⟩

/-- A dirty line of core 0 whose page is in the TLB. -/
def dirtyLine : State := memState.modCore 0 fun c => { c with l1 := [(l1Key 0 0x20000, { valid := 3, dirty := 1, data := [(0, 9)] })] }

theorem witness_TranslationAndLines_writeback : dirtyLine.lineHome 0 (l1Key 0 0x20000) (dirtyLine.l1 0 (l1Key 0 0x20000)) = (0, 0, false, none)
    ∧ dirtyLine.owns (l1Key 0 0x20000 / 2 ^ 50) 0 = true ∧ 64 ∣ 0 := by decide
theorem witness_TranslationAndLines_replica : let w : RepWrite := { op := 1, who := none, lane := 0, bytes := [(5, 6, false)] }
    smGet [] [(repKey 127 8191 7, [w])] (repKey 127 8191 7) = w :: [] := by decide

/-! ### How accesses end -/

/-- A port that is up, port 144 of host and port 0. -/
def upPort (s : State) (n : Nat) : State := s.modPort n fun p => { p with st := .up, en := true, width := 16 }

theorem witness_AccessEnds : (∀ ph ∈ [Phase.sent, .waiting, .lost, .resend, .inval], (withOp (lane0 .ld { x0 with tgt := 1, phase := ph })).op? 1 =
      some (lane0 .ld { x0 with tgt := 1, phase := ph }) ∧ (lane0 .ld { x0 with tgt := 1, phase := ph }).lane? 31 = some { x0 with tgt := 1, phase := ph })
    ∧ (lane0 .ld x0).k < 2 ^ 40 ∧ (lane0 .ld x0).rel = none ∧ (lane0 .ld x0).ctx < 4096 := by decide
theorem witness_AccessEnds_lost : (lane0 .ld x0).time.toNat + 180000 ≤ (180000 : Word).toNat := by decide
theorem witness_AccessEnds_timeout : ∃ s : State, x0.seq.toNat + (s.port x0.port).timeout ≤ s.time.toNat ∧ s.copy? 1 = none :=
  ⟨{ base with time := 2 ^ 40 }, by decide⟩
theorem witness_AccessEnds_release : (withOp { lane0 .atom x0 with rel := some {} }).relDone {} = true := by decide

/-- A contribution with a number, in a bank whose counter of the cell is 5; `held` those in the window. -/
def bredState (q : Word) (held : List BredEnt) : State :=
  { withOp (lane0 .bred { x0 with seq := q }) with bank := memWrite [] (bankAddr 0 0 + 8) (leBytes 8 5), bred := held }

theorem witness_AccessEnds_bred : (bredState 5 []).laneClear (lane0 .bred { x0 with seq := 5 }) { x0 with seq := 5 } = true
    ∧ (bredState 69 []).laneClear (lane0 .bred { x0 with seq := 69 }) { x0 with seq := 69 } = true := ⟨by decide, by decide⟩
theorem witness_AccessEnds_bred_numbers : (4 : Word).toNat < 5 ∧ (5 : Word).toNat = 5 ∧ ((68 : Word).toNat < 5 + 64) ∧ ¬((69 : Word).toNat < 5 + 64) := by decide
theorem witness_AccessEnds_bred_next (q : Word) (held : List BredEnt) : memLoad (bredState q held).bank (bankAddr 0 0 + 8) 8 = 5 := by
  have h : memLoad (memWrite [] (bankAddr 0 0 + 8) (leBytes 8 5)) (bankAddr 0 0 + 8) 8 = 5 := by decide
  exact h
theorem witness_AccessEnds_host : ((upPort (base.modPart 0 fun p => { p with port := 144 }) 144).portUp 144 = true) ∧ (upPort base 144).owns 0 0 = true ∧ 60 % 64 + [1, 2, 3, (4 : Byte)].length ≤ 64 := by decide

/-- An access of one lane at its own L1. -/
def x1 : LaneOp := { x0 with l1 := true, ea := 60 }
/-- The line of the bytes at 60 is valid in core 0. -/
def hitState (kind : OpKind) : State := { withOp (lane0 kind x1) with cores := [(0, { l1 := [(l1Key 0 60, { valid := BitVec.allOnes 64, data := [(63, 9)] })] })] }

theorem witness_MemoryPerforms_local : (∀ kind ∈ [OpKind.ldb, .stb, .atomb, .bvec, .atoms], (withOp (lane0 kind x0)).laneClear (lane0 kind x0) x0 = true
      ∧ (withOp (lane0 kind x0)).bankCut (lane0 kind x0) x0 = false ∧ (lane0 kind x0).together x0 = [x0] ∧ (lane0 kind x0).f.aop ≤ 9)
    ∧ (base.part 0).grow.isSome = false ∧ base.cut 0 (base.bankSite 0 0) 0 = false ∧ base.homeTurn 0 0 = true ∧ base.cut 0 (base.homeSite 0) 0 = false
    ∧ (withOp (lane0 .st x0)).behindLeft (lane0 .st x0) x0 = false := by decide
theorem witness_MemoryPerforms_l1 : (∀ kind ∈ [OpKind.ld, .ldp, .ldc], (hitState kind).laneClear (lane0 kind x1) x1 = true ∧ (hitState kind).l1Hit (lane0 kind x1) x1 = true)
    ∧ (hitState .st).laneClear (lane0 .st x1) x1 = true ∧ (60 : Word).toNat % 64 + x1.data.length ≤ 64 := by decide
theorem witness_MemoryPerforms_response_kinds : OpKind.ld ≠ .fill ∧ ¬((withOp (lane0 .st x0)).ops.any fun o => o.lanes.any fun z => z.phase = .migrating) := by decide
theorem witness_TranslationAndLines_writeback_way : dirtyLine.cutBoth 0 0 (dirtyLine.homeSite 0) = false
    ∧ dirtyLine.leftIn 0 (l1Key 0 0x20000) (dirtyLine.l1 0 (l1Key 0 0x20000)).dirty = false ∧ l1Key 0 0x20000 / 2 ^ 50 = 0 := by decide
theorem witness_AccessEnds_ways : base.cut 0 (base.waySite (lane0 .ld { x0 with tgt := 1, phase := .sent }) { x0 with tgt := 1, phase := .sent }) 0 = false
    ∧ (lane0 .ld x0).kind ≠ .wback ∧ base.cutBoth 0 (base.hostSite 144 0) (base.homeSite 0) = false
    ∧ ((upPort base 144).port 144).cxl = false ∧ (((upPort base 144).modPort 144 fun p => { p with cxl := true }).port 144).cxl = true
    ∧ base.cut 0 (base.bankSite 0 0) 0 = false ∧ (base.part 0).grow.isSome = false := by decide

/-! ### Tokens, batches, copies and messages -/

/-- A copy of one byte within the window. -/
def copy0 (kind : CopyKind) (recv : List Recv) : Copy :=
  { id := 9, kind, gid := 0, team := 0, site := 0, part := 0, batch := 0, total := 1, recv, desc := { sspace := 1, dspace := 1, dims := [⟨1, 1, 1, 0, 0⟩] } }
/-- `base` with copies. -/
def withCopy (c : Copy) : State := { base with copies := [c] }

theorem witness_CopyEvents_token : (((grp0 fun g => { g with tok := g.tok.set 7 { st := .pending, rel := true } }).grp 0).token 7).st = .pending
    ∧ (grp0 fun g => { g with tok := g.tok.set 7 { st := .pending, rel := true } }).relDone (Tok.toRel { st := .pending, rel := true }) = true := by decide
theorem witness_CopyEvents_batch : ∃ g n err, ((grp0 fun g => { g with batch := { g.batch with issued := 1, done := 1, slots := g.batch.slots.set 0 { bound := true, bar := 15 } } }).grp 0).batchArrives 0
    = some (g, n, err) ∧ n < 16 := ⟨_, _, _, rfl, by decide⟩
theorem witness_CopyEvents_start : (withCopy (copy0 .plain [])).copy? 9 = some (copy0 .plain []) ∧ (copy0 .plain []).chan = none
    ∧ (∀ y ∈ (withCopy (copy0 .plain [])).copies, y.site = 0 → y.kind ≠ .message → y.chan ≠ some 0 ∧ (y.chan = none → 9 ≤ y.id)) := by decide
theorem witness_CopyEvents_write : (copy0 .plain []).behind 0 = false ∧ 0 < (copy0 .plain []).total ∧ 0 ∉ (copy0 .plain []).doneEl ∧ (copy0 .plain []).desc.styp < 4
    ∧ (base.team 0).present = true ∧ (base.team 0).image = none ∧ (base.tile 0).range = [] ∧ (base.team 0).st ≠ .transit ∧ base.cut 0 0 0 = false := by decide
theorem witness_CopyEvents_complete : ({ copy0 .plain [] with chan := some 15, doneEl := [0] } : Copy).doneEl.length = 1
    ∧ (withCopy (copy0 .plain [])).memberKey 0 0 = some 0 ∧ (withCopy (copy0 .plain [])).ops = [] := by decide
/-- A multicast whose source has been read, and its receiver as far as it has come. -/
def shareCopy (y : Recv) : Copy := { copy0 .multicast [y] with doneEl := [0], bytes := [(65535, 7, false)] }
/-- Its share holds an entry of the range scoreboard. -/
def shareState (y : Recv) : State := (withCopy (shareCopy y)).modTile 0 fun t =>
  { t with range := [{ team := 0, dest := true, lo := 65535, hi := 65536, copy := some 9, mma := none, share := true }] }

theorem witness_CopyEvents_share : let y : Recv := { team := 0, looked := true, site := some 0, taken := some 0 }
    (shareState y).copy? 9 = some (shareCopy y) ∧ (shareCopy y).doneEl.length = (shareCopy y).total ∧ (shareCopy y).recvKey y = 0
      ∧ (65535 : Nat) + 1 ≤ (base.team 0).wsize ∧ (base.team 0).present = true ∧ (base.team 0).st ≠ .transit ∧ (base.team 0).image = none
      ∧ (∀ e ∈ ((shareState y).tile 0).range, e.mma = none ∧ e.share = true ∧ e.copy = some 9 ∧ e.team = 0) ∧ (shareCopy y).rben = false := by decide
theorem witness_CopyEvents_accept : let y : Recv := { team := 0, looked := true, site := some 0 }
    (withCopy (shareCopy y)).accepted 0 < 64 ∧ (withCopy (shareCopy y)).routeCut 0 0 0 0 = false ∧ ((withCopy (shareCopy y)).tile 0).range = []
      ∧ (shareCopy y).bytes ≠ [] ∧ 64 ≤ ({ base with copies := [copy0 .multicast (List.replicate 64 { y with taken := some 0 })] } : State).accepted 0 := by decide
theorem witness_CopyEvents_lookup : ∀ r ∈ (copy0 .message [{ team := 0 }, { team := 3 }]).recv, r.looked = false ∧ r.done = false
    ∧ (base.team ((copy0 .message []).recvKey r)).st ≠ .transit := by decide
theorem witness_CopyEvents_message : (withCopy (copy0 .message [{ team := 0, looked := true }])).messageFirst (copy0 .message [{ team := 0, looked := true }]) = true := by decide

/-- A plain copy that has started and carries its own entries of the range scoreboard, which read from its window or from what stood there. -/
def ownCopy (snap : Option (SMap Byte × SMap Bool)) : Copy := { copy0 .plain [] with chan := some 0, snap }
/-- The state with it. -/
def ownState (snap : Option (SMap Byte × SMap Bool)) : State := (withCopy (ownCopy snap)).modTile 0 fun t =>
  { t with range := [{ team := 0, dest := false, lo := 0, hi := 1, copy := some 9, mma := none }, { team := 0, dest := true, lo := 0, hi := 1, copy := some 9, mma := none }] }

theorem witness_CopyEvents_own : ∀ snap ∈ [none, some ([(0, (7 : Byte))], [])], (ownState snap).copy? 9 = some (ownCopy snap) ∧ (ownCopy snap).chan.isSome = true
    ∧ (ownCopy snap).behind 0 = false ∧ 0 < (ownCopy snap).total ∧ 0 ∉ (ownCopy snap).doneEl ∧ (ownCopy snap).desc.styp = (ownCopy snap).desc.dtyp
    ∧ (ownCopy snap).desc.sspace = 1 ∧ (ownCopy snap).desc.dspace = 1 ∧ (ownCopy snap).doneEl.length + 1 = (ownCopy snap).total
    ∧ ((ownState snap).tile ((ownState snap).team 0).site).range ≠ [] ∧ (∀ e ∈ ((ownState snap).tile ((ownState snap).team 0).site).range, e.mma = none)
    ∧ (ownState snap).cut 0 0 ((ownState snap).team 0).site = false := by decide
theorem witness_CopyEvents_complete_seal : ((withCopy (copy0 .plain [])).grp 0).sealDue = false ∧ (∀ o ∈ (withCopy (copy0 .plain [])).ops, o.k ≠ copyOwner 9 0) := by decide
theorem witness_CopyEvents_accept_site : ∀ site ∈ [none, some 0], ({ team := 0, looked := true, site } : Recv).site.getD (base.team 0).site = 0
    ∧ base.cutBoth 0 0 (base.team 0).site = false := by decide

/-! ### Queues and launches -/

/-- An operation of group 0 on record 0 of node 1. -/
def qop (kind : QKind) (checked : List Nat) (x : QLane) : Op :=
  { id := 1, k := 0, kind := .queue, q := some kind, qlanes := [x], checked, f := { len := 1, fn := if kind = .free then 2 else if kind = .commit then 1 else 0 } }
/-- A lane of it. -/
def ql (bad : Nat) : QLane := { lane := 0, handle := 2 ^ 40, ea := 64, bad }
/-- A record as RALLOC leaves it. -/
def recNew (join : Nat) : Rec := { node := 1, join }
/-- A queue that holds it. -/
def qNew (join : Nat) : Queue := { pool := 4, recs := [(0, some (recNew join))] }
/-- The state with the operation and the record. -/
def qopState (join : Nat) (o : Op) : State := { kernState q4 (qNew join) with ops := [o] }

theorem witness_QueueEvents_check : (∀ kind ∈ [QKind.commit, .free, .join], queueLaneFault (qNew 1) kind [ql 0] (ql 0) = 0
      ∧ (qopState 1 (qop kind [] (ql 0))).qhome (qop kind [] (ql 0)) (ql 0) = 0 ∧ 0 ∉ (qop kind [] (ql 0)).checked)
    ∧ ((qNew 1).lookup (2 ^ 40)).map (fun r => r.lock) = some none := by decide
theorem witness_QueueEvents_apply : (∀ kind ∈ [QKind.commit, .free, .join], (shape (if kind = .join then 0x6E else 0x6D) (qop kind [0] (ql 0)).f).isSome = true
      ∧ (qopState 2 (qop kind [0] (ql 0))).qhome (qop kind [0] (ql 0)) (ql 0) ∈ (qop kind [0] (ql 0)).checked)
    ∧ ((qopState 2 (qop .join [0] (ql 0))).queue 0 0 1).rec? 0 = some (recNew 2) ∧ (ql 0).ea.toNat % 16 = 0
    ∧ (ql 0).ea.toNat + ((kernState q4 q4).kern 0 0 |>.node 1).size - 16 ≤ (base.team 0).wsize := by decide
theorem witness_QueueEvents_trap : (qop .commit [0] (ql 0x1B)).qlanes.find? (fun y => y.bad != 0) = some (ql 0x1B)
    ∧ ((grp0 fun g => { g with st := .held, hold := .queue }).grp 0).st = .held := by decide
theorem witness_QueueEvents_timer : ({ qRec with timer := some 5 } : Queue).closed = false ∧ (5 : Word).toNat ≤ (5 : Word).toNat
    ∧ ({ base with stage := .closing } : State).stage = .closing := by decide
theorem witness_QueueEvents_reopen : ∃ s : State, (s.ctx 0).st = .loaded ∧ (s.queue 0 0 1).closed = true ∧ 1 < (s.kern 0 0).queues.length :=
  ⟨(kernState q4 qShut).modCtx 0 fun x => { x with st := .loaded }, by decide⟩
theorem witness_QueueEvents_pending : (base.ctx 0).pendFault = false ∧ (base.ctx 0).pending = false := by decide

/-- Slot 1 of core 0 is bound for set 0 of kernel 0. -/
def bound0 : Group := { st := .bound, bind := { dw0 := 2 ^ 63 } }
/-- Kernel 0 has one bind set, for a node or for a grid, and an open run. -/
def launchState (node : Nat) (q : Queue) (r : Run) : State :=
  let s := kernState q4 q
  { s.modCtx 0 fun x => { x with kerns := x.kerns.map fun e => (e.1, { e.2 with plan := { sets := [{ node, slots := [{ site := 0, core := 0, slot := 1, bind := bound0.bind }] }] } }), runs := [r] } with
    groups := s.groups ++ [(1, bound0)] }

theorem witness_QueueEvents_launch : (launchState 1 qRec {}).time.toNat = 0 ∧ ((launchState 1 qRec {}).queue 0 0 1).launched = none ∧ ((launchState 1 qRec {}).queue 0 0 1).order = [(0, rec1)] ∧ (launchState 1 qRec {}).restoring 0 = false
    ∧ (launchState 1 qRec {}).waiting qRec = [] ∧ ((launchState 1 qRec {}).kern 0 0 |>.node 1).k = 1 ∧ (launchState 1 qRec {}).nodeRun 0 0 = some {}
    ∧ (launchState 1 qRec {}).freeSet 0 0 1 none = some (0, [1], 0) := by decide
theorem witness_QueueEvents_wake : ∃ s : State, 0 ∈ s.wakes ∧ (s.grp 0).st = .held ∧ (s.grp 0).hold = .sleep ∧ (s.grp 0).sleepEnd.isSome = true ∧ s.groupsOf 0 = [0] :=
  ⟨{ grp0 fun g => { g with st := .held, hold := .sleep, sleepEnd := some 9 } with wakes := [0] }, by decide⟩
theorem witness_QueueEvents_start : ∃ s : State, (s.team 0).st = .starting ∧ (s.ctx (s.team 0).ctx).st = .running ∧ (s.ctx (s.team 0).ctx).pendFault = false
    ∧ (s.ctx (s.team 0).ctx).pending = false ∧ ∀ k ∈ s.groupsOf 0, (s.grp k).stopReq = none ∧ (s.core (coreOf k)).wait = false := ⟨base.modTeam 0 fun t => { t with st := .starting }, by decide⟩
theorem witness_QueueEvents_grid : (launchState 0 q4 { n := 9, counter := 8 }).run? 0 0 = some { n := 9, counter := 8 } ∧ (8 : Nat) < 9
    ∧ ((launchState 0 q4 { n := 9, counter := 8 }).freeSet 0 0 0 (some 0)) = some (0, [1], 0)
    ∧ smGet [] ({ n := 9, counter := 9, locals := [(0, [8])] } : Run).locals 0 = [8] ∧ ((launchState 0 q4 {}).grp 1).ctx = 0 := by decide

/-! ### Launch lines -/

/-- Line 0 of function 0 holds some bytes and waits; function 0 serves context 0 over port 144, which is up. -/
def lineState (bytes : SMap Byte) (busy : Bool) (s : State) : State :=
  ({ upPort s 144 with time := 1 } : State).modVf 0 fun v => { v with port := 144, ctx := some 0, order := if busy then [(0, 511)] else [], lines := [(511, { bytes, busy })] }

theorem witness_LineEvents_write : ((lineState [(0, 1)] false base).vf 0).frozen = false ∧ (lineState [(0, 1)] false base).portUp 144 = true ∧ 511 < 512
    ∧ ((lineState [(0, 1)] false base).line 0 511).busy = false ∧ ((lineState [(0, 1)] true base).line 0 511).busy = true
    ∧ ((lineState [(0, 3)] false base).line 0 511).nat 0 1 = 3 ∧ ((lineState [(0, 4)] false base).line 0 511).nat 0 1 = 4 ∧ 127 + [(1 : Byte)].length ≤ 128 := by decide
theorem witness_LineEvents_run : LineReady (lineState [(0, 1), (8, 9)] true (base.modCtx 0 fun x => { x with kerns := [(0, { st := .loaded })] })) 0 511 1 0 0
    ∧ ((lineState [(0, 1), (8, 9)] true base).line 0 511).nat 8 4 = 9 := ⟨⟨⟨_, rfl, by decide⟩, by decide⟩, by decide⟩
theorem witness_LineEvents_append : LineReady (lineState [(0, 2), (3, 1), (14, 1)] true (kernState q4 q4)) 0 511 2 0 0
    ∧ ((lineState [(0, 2), (3, 1), (14, 1)] true (kernState q4 q4)).line 0 511).nat 0x0E 2 = 1 ∧ ((kernState q4 q4).kern 0 0 |>.node 1).size ≤ 80
    ∧ ((kernState q4 q4).modCtx 0 fun x => { x with runs := [{}] }).run? 0 0 = some {} := ⟨⟨⟨_, rfl, by decide⟩, by decide⟩, by decide⟩
theorem witness_LineEvents_end : LineReady (lineState [(0, 3)] true (kernState q4 q4)) 0 511 3 0 0 := ⟨⟨_, rfl, by decide⟩, by decide⟩
theorem witness_LineEvents_malformed : ((lineState [(0, 1), (2, 1)] true base).line 0 511).formed = false
    ∧ ((lineState [(0, 1), (2, 1)] true base).vf 0).order.head? = some (0, 511)
    ∧ 0 < (lineState [(0, 1), (2, 1)] true base).time.toNat := by decide
/-- A node run whose END has come and whose queues are empty, with or without a word to store. -/
def overState (addr : Word) : State := ((memState.modCtx 0 fun x => { x with
  kerns := [(0, { st := .active, nodes := [{}], queues := [q4] })], runs := [{ grid := 5, ended := true, raise := true, doneaddr := addr, doneval := 7 }] }))

theorem witness_LineEvents_over : (overState 0).runOver 0 { grid := 5, ended := true, raise := true, doneaddr := 0, doneval := 7 } = true
    ∧ (overState 0x20000).runOver 0 { grid := 5, ended := true, raise := true, doneaddr := 0x20000, doneval := 7 } = true
    ∧ (overState 0).runLines { grid := 5 } = [] := by decide
theorem witness_LineEvents_released : (overState 0x20000).runReleased 0 { grid := 5 } = true := by decide
theorem witness_LineEvents_stored : (overState 0).storeDone 0 = true ∧ ({ overState 0 with ops := [{ id := 9, k := 2 ^ 40, kind := .wback }] } : State).storeDone 9 = false := by decide
theorem witness_LineEvents_store : ∃ s1 x, (overState 0x20000).globalCheck 0 0 0x20000 .store = (s1, .ok x) ∧ leafTgt x.leaf = 0 ∧ leafRep x.leaf = none
    ∧ (0x20000 : Word).toNat % 64 ≤ 56 := ⟨_, _, rfl, by decide⟩
theorem witness_LineEvents_skip : ∃ s1 e, (overState 0x40000).globalCheck 0 0 0x40000 .store = (s1, .error e) := ⟨_, _, rfl⟩

/-- Context 0 has an open run of kernel 0, whose nodes are there or not. -/
def runState (nodes : Bool) : State := (kernState q4 q4).modCtx 0 fun x => { x with
  kerns := if nodes then x.kerns else x.kerns.map fun e => (e.1, { e.2 with nodes := [] }), runs := [{ n := 1 }] }
/-- The page at 0x20000 is in the TLB of the tile that serves port 144. -/
def monitorState (s : State) : State := s.modTile 384 fun t =>
  { t with tlb := [{ part := 0, base := 0x20000, size := 65536, leaf := BitVec.ofNat 64 (2 ^ 63 + 2 ^ 62 + 2 ^ 59 + 2 ^ 58 + 2 ^ 56) }] }

theorem witness_LineEvents_open : (runState true).openRun? 0 0 = some { n := 1 } ∧ (runState true).openRuns 0 = [{ n := 1 }] ∧ ((runState true).openRuns 0).length < 16
    ∧ 1 < ((runState true).kern 0 0).queues.length ∧ ((runState true).queue 0 0 1).closed = false ∧ ((runState true).queue 0 0 1).freeSlot = some 0
    ∧ LineReady (lineState [(0, 2), (3, 1), (18, 2)] true (runState true)) 0 511 2 0 0 ∧ ((lineState [(0, 2), (3, 1), (18, 2)] true base).line 0 511).nat 0x0E 2 = 0 :=
  ⟨by decide, by decide, by decide, by decide, by decide, by decide, ⟨⟨_, rfl, by decide⟩, by decide⟩, by decide⟩
theorem witness_LineEvents_read : (∃ v s1, State.readVa (lineState [] true (monitorState (runState true))) ((lineState [] true base).monitor 0) 0 0 32 0x20000 16 = (s1, some v))
    ∧ ∃ s1, State.readVa (lineState [] true (runState true)) ((lineState [] true base).monitor 0) 0 0 32 0x40000 16 = (s1, none) := ⟨⟨_, _, rfl⟩, _, rfl⟩
theorem witness_LineEvents_grid : LineReady (lineState [(0, 3)] true (runState false)) 0 511 3 0 0 ∧ ((runState false).kern 0 0).nodes = []
    ∧ (runState false).openRun? 0 0 = some { n := 1 } ∧ ((runState false).kern 0 0).st = .active := ⟨⟨⟨_, rfl, by decide⟩, by decide⟩, by decide⟩
theorem witness_LineEvents_unlisted : ((lineState [(0, 4)] true base).line 0 511).listed = false ∧ ((lineState [(0, 4)] true base).line 0 511).formed = false
    ∧ (((lineState [(0, 1)] true base).modVf 0 fun v => { v with ctx := none }).vf 0).ctx = none
    ∧ ((lineState [(0, 1)] true base).line 0 511).nat 0 1 = 1 := by decide

/-! ### Castling and contexts -/

/-- Partition 0 has the sites 0 and 1 on one ring, at the end of its interval. -/
def ringState : State := { base.modPart 0 fun p => { p with sites := [0, 1], plan := { interval := 4, rings := [[0, 1]] } } with time := 7200000 }

theorem witness_CastlingEvents_interval : (ringState.part 0).st = .active ∧ (ringState.part 0).plan.rings = [[0, 1]] ∧ 0 < 4 * 1800000
    ∧ 4 * 1800000 ≤ ringState.time.toNat - (ringState.part 0).planFrom.toNat ∧ (∀ a ∈ [0, 1], ringState.siteMoving 0 a = false)
    ∧ (ringState.team 0).st = .resident ∧ (ringState.team 0).image = none ∧ (ringState.ctx 0).st = .running := by decide
/-- Team 0 stops, its group has stopped. -/
def stopState : State := (grp0 fun g => { g with st := .stopped }).modTeam 0 fun t => { t with st := .stopping, rel := some {} }

theorem witness_CastlingEvents_stop : (stopState.team 0).st = .stopping ∧ (stopState.team 0).reason = .castling ∧ (stopState.ctx (stopState.team 0).ctx).st = .running
    ∧ (∀ k ∈ stopState.groupsOf 0, (stopState.grp k).st = .stopped ∧ stopState.opsOf k = [] ∧ stopState.mmasAll k = [] ∧ (stopState.grp k).pin = false
      ∧ stopState.faulted k = false ∧ (stopState.grp k).expired = false ∧ (stopState.grp k).holdReq = false) ∧ stopState.groupsOf 0 = [0]
    ∧ stopState.relDone {} = true := by decide
/-- The teams of the ring are in transit. -/
def moveState : State := { (ringState.modPart 0 fun p => { p with moving := [{ pairs := [(0, 1), (1, 0)] }] }) with groups := [], teams := [(0, { st := .transit, image := some {} })] }

theorem witness_CastlingEvents_move : moveState.moveReady { pairs := [(0, 1), (1, 0)] } = true ∧ (moveState.part 0).moving[0]? = some { pairs := [(0, 1), (1, 0)] }
    ∧ smSorted moveState.groups = true ∧ ([(0, 1), (1, 0)].map Prod.snd : List Nat).Nodup
    ∧ (∀ e ∈ ([(0, 1), (1, 0)] : List (Nat × Nat)), ∃ e' ∈ ([(0, 1), (1, 0)] : List (Nat × Nat)), e'.1 = e.2) := by decide
theorem witness_CastlingEvents_interval_closing : let s : State := { ringState with stage := .closing }
    s.stage = .closing ∧ (∀ a ∈ [0, 1], s.siteMoving 0 a = false) ∧ (s.team 0).site ∈ [0, 1] := by decide
theorem witness_CastlingEvents_stop_arrive : ∀ k ∈ stopState.groupsOf 0, (stopState.grp k).arrive = none := by decide
/-- One image of the ring is in transit, and the link of its way is down or not. -/
def sailState (down : List Nat) : State := { moveState.modRouter 0 fun r => { r with down } with
  teams := [(0, { st := .transit, wsize := 64, image := some {} })], ctxs := [(0, { st := .castling })] }
theorem witness_CastlingEvents_sail : let m : RingMove := { pairs := [(0, 1), (1, 0)] }
    (∀ d ∈ [[], [1]], (sailState d).moveReady m = true ∧ smSorted (sailState d).teams = true ∧ ((sailState d).team 0).st = .transit
      ∧ ((sailState d).team 0).landed = false ∧ (∃ e ∈ m.pairs, e.1 = ((sailState d).team 0).site) ∧ (∀ x ∈ (sailState d).teams, x.2.st = .transit → x.1 = 0)
      ∧ m.pairs.find? (fun x => x.1 = ((sailState d).team 0).site) = some (0, 1) ∧ ((sailState d).part 0).moving[0]? = some m
      ∧ ((sailState d).team 0).site ≠ 1 ∧ ((sailState d).team 0).image = some {} ∧ ((sailState d).teams.filter fun x => x.1 = 0).length = 1
      ∧ ((sailState d).ctx 0).st = .castling ∧ ((sailState d).ctx 0).pending = false ∧ ((sailState d).ctx 0).pendFault = false)
    ∧ (sailState []).moveCut m 0 = false ∧ (sailState [1]).moveCut m 0 = true := by decide

/-- An image of one group. -/
def image0 : Image := { groups := [(3, 15, { st := .stopped, regs := 8 })], window := [(5, 6)] }
/-- The image has landed. -/
def landedState : State := { moveState with
  teams := [(0, { st := .transit, site := 1, landed := true, wsize := 64, image := some image0 })], ctxs := [(0, { st := .castling })] }

theorem witness_CastlingEvents_land : (landedState.team 0).st = .transit ∧ (landedState.team 0).landed = true ∧ (landedState.team 0).down = false
    ∧ (landedState.team 0).landAt.toNat ≤ landedState.time.toNat ∧ ({ landedState with time := 9 } : State).time.toNat < (10 : Word).toNat := by decide
theorem witness_CastlingEvents_resume : (landedState.team 0).image = some image0 ∧ (landedState.team 0).landAt.toNat + 16 ≤ landedState.time.toNat ∧ landedState.site 1 = .good ∧ (landedState.grp (64 * 1 + 16 * 3 + 15)).st = .free
    ∧ landedState.roomFor image0 [(127, { st := .stopped, regs := 8 })] 1 = true ∧ smSorted image0.window = true
    ∧ (landedState.ctx 0).st = .castling ∧ (landedState.ctx 0).pending = false ∧ (landedState.ctx 0).pendFault = false := by decide
theorem witness_CastlingEvents_down : let s := landedState.modTeam 0 fun t => { t with down := true }
    (s.team 0).down = true ∧ (s.team 0).image = some image0 ∧ (s.team 0).landed = true ∧ s.site 1 = .good := by decide
theorem witness_CastlingEvents_pin : ∃ s : State, (s.team 0).pinEnd = some 9 ∧ (9 : Word).toNat ≤ s.time.toNat ∧ (∃ k ∈ s.groupsOf 0, (s.grp k).pinned = true)
    ∧ (s.team 0).ctx < 4096 :=
  ⟨{ (grp0 fun g => { g with pin := true, stopReq := some .castling }).modTeam 0 fun t => { t with pinEnd := some 9 } with time := 9 }, by decide, by decide, ⟨0, by decide⟩, by decide⟩
/-- A saved team, and a free bind set for it; where `ok`, the save area is mapped and holds the start of a header of context 0 (R189, R311). -/
def savedState (ok : Bool) : State :=
  let s := launchState 0 q4 {}
  let s := s.modPart 0 fun p => { p with root := 0x10000 }
  { s with groups := [(1, bound0)], teams := [(0, { st := .saved, image := some { image0 with window := [], groups := [(0, 0, { st := .stopped })] } })],
           ctxs := s.ctxs.map fun e => (e.1, { e.2 with st := .runnable }),
           sites := [(1, .mappedOut)], owner := [(1, 1), (2, 1), (0x10049, 1)],
           mem := if ok then [(0x10002, 2), (0x10007, 0x80), (0x20004, 1), (0x20007, 0xC8), (0x100490000, 0x49), (0x100490001, 0x4D), (0x100490002, 0x47),
             (0x100490003, 0x31), (0x100490004, 1)] else [] }

theorem witness_CastlingEvents_restore : (∀ ok ∈ [true, false], ((savedState ok).team 0).st = .saved ∧ ((savedState ok).ctx 0).st = .runnable
      ∧ (savedState ok).teamsOf 0 = [(0, (savedState ok).team 0)]) ∧ (savedState true).freeSet 0 0 0 none = some (0, [1], 0)
    ∧ (savedState true).mapSlots 0 0 [1] [{ st := .stopped }] = some [(1, { st := .stopped })]
    ∧ (savedState true).roomFor { image0 with groups := [(0, 0, { st := .stopped })] } [(1, { st := .stopped })] 0 = true := by decide
theorem witness_CastlingEvents_header : ((savedState true).headerOk 0 0).2 = true ∧ ((savedState false).headerOk 0 0).2 = false := by decide +kernel
/-- Bytes of an image written out from R101, R181 and R311. -/
theorem test_image_bytes : (List.range 8).map (fun o => image0.headerByte { ctx := 5 } o) = [0x49, 0x4D, 0x47, 0x31, 1, 0, 5, 0]
    ∧ ({ regs := 8, lane := Vector.replicate 32 { pcv := 0x1234, st := .parked, hw := [1, 2] } } : Group).winByte 0 0 0x9409 = 0x12
    ∧ ({ regs := 8, lane := Vector.replicate 32 { pcv := 0x1234, st := .parked, hw := [1, 2] } } : Group).winByte 0 0 0x931F = 0x11
    ∧ ({ gid := 3, name := 2, phys := 1, acc := { st := .stalled, fault := true } } : SavedAcc).byte 0x4202 = 0x30 := by decide

/-- `base` once Roith has booted. -/
def up : State := { base with booted := true }
/-- Context 0 in a state. -/
def ctxIn (st : CtxState) : State := up.modCtx 0 fun x => { x with st }

theorem witness_ContextEvents_create : descOk { ctl := BitVec.ofNat 64 (200 * 2 ^ 32 + 11 * 2 ^ 20), savebase := 65536 } = true ∧ descOk { ctl := BitVec.ofNat 64 (201 * 2 ^ 32) } = false
    ∧ (up.part 0).st = .active ∧ (({ up with ctxs := [] } : State).ctxs.countP fun e => e.2.st != .destroyed && e.2.part = 0) < 1
    ∧ (({ up with ctxs := [] } : State).ctx 0).st = .destroyed := by decide
theorem witness_ContextEvents_states : (∀ st ∈ [CtxState.running, .created, .saved, .killed, .scrubbing, .preempting], ((ctxIn st).ctx 0).st = st)
    ∧ (∃ e ∈ up.teamsOf 0, e.2.st ≠ .saved) ∧ up.teamsOf 0 = [(0, up.team 0)] := ⟨by decide, ⟨(0, up.team 0), by decide⟩, by decide⟩
theorem witness_ContextEvents_resume : ∃ s : State, (s.ctx 0).st = .saved ∧ s.booted = true ∧ (∀ e ∈ s.teamsOf 0, e.2.st = .saved) ∧ (s.teamsOf 0).length = 1 ∧ (s.ctx 0).pending = false ∧ (s.ctx 0).pendFault = false :=
  ⟨(ctxIn .saved).modTeam 0 fun t => { t with st := .saved }, by decide⟩
theorem witness_ContextEvents_budget : ∃ s : State, (s.ctx 0).preempt = some 9 ∧ (9 : Word).toNat ≤ s.time.toNat ∧ (s.ctx 0).st = .preempting ∧ (s.ctx 0).reason = .safePoint :=
  ⟨{ (ctxIn .preempting).modCtx 0 fun x => { x with preempt := some 9 } with time := 9 }, by decide⟩
theorem witness_ContextEvents_killed : ∃ s : State, (s.ctx 4095).st = .killed ∧ (∀ e ∈ s.groups, e.2.st = .free ∨ e.2.ctx ≠ 4095) ∧ s.teamsOf 4095 = [] ∧ s.copies = [] :=
  ⟨up.modCtx 4095 fun x => { x with st := .killed }, by decide⟩

/-- The function of partition 0 is frozen. -/
def frozenState : State := up.modVf 0 fun v => { v with frozen := true }
theorem witness_ContextEvents_frozen : (frozenState.vf (frozenState.ctx 0).part).frozen = true ∧ (up.vf (up.ctx 0).part).frozen = false
    ∧ (frozenState.ctx 0).st ≠ .destroyed ∧ (up.ctx 0).st ≠ .destroyed := by decide
/-- The command line of port 144 is the oldest triggered one and holds a command, with its FORCE flag and arguments. -/
def cmdState (bytes : SMap Byte) (s : State) : State := { upPort s 144 with cmds := [144] } |>.modPort 144 fun p => { p with cmd := { bytes, busy := true } }
theorem witness_ContextEvents_turns : up.cmdTurn 0x22 none [0] = true ∧ (cmdState [(0, 0x22)] up).cmdTurn 0x22 none [0] = true ∧ (cmdState [(0, 0x23)] up).cmdTurn 0x22 none [0] = false
    ∧ (cmdState [(0, 0x22), (8, 1)] up).cmdTurn 0x22 none [0] = false ∧ (cmdState [(0, 4), (2, 1)] up).cmdTurn 4 (some true) [0] = true
    ∧ (cmdState [(0, 4), (2, 1)] up).cmdTurn 4 (some false) [0] = false ∧ up.bufferLost 0x20 = false := by decide

/-! ### Kernels, tables, packets -/

/-- A kernel image of its header alone, whose first word is its text (R290). -/
def image1 : List Byte := leBytes 4 0x314B594D ++ leBytes 2 1 ++ leBytes 2 0 ++ leBytes 4 0 ++ leBytes 4 4 ++ List.replicate 36 0 ++ leBytes 4 (1 + 2 ^ 12 + 2 ^ 17) ++ List.replicate 72 0
/-- Partition 0 owns frames 0 to 9 and its table stands at frames 1 to 3. -/
def framesState : State := { up.modPart 0 fun p => { p with root := 65536, used := [0, 1, 2, 3] } with owner := (List.range 12).map fun i => (i, 1), mem := [] }

theorem witness_KernelAndTableCommands_load : ((ctxIn .created).ctx 0).st = .created ∧ ((ctxIn .created).kern 0 0).st = .absent
    ∧ (readImage image1).isSome = true ∧ (∀ im, readImage image1 = some im → im.kern.nodes.length = 0 ∧ im.routes = []
        ∧ (framesState.mapKernel 0 0 im [] {}).isSome = true) := by
  refine ⟨by decide, by decide, by decide, ?_⟩
  intro im h
  obtain rfl : im = ((readImage image1).getD { kern := {}, routes := [], text := [], data := [], whole := [] }) := by rw [h]; rfl
  exact ⟨by decide, by decide, by decide⟩
theorem witness_KernelAndTableCommands_unload : ((kernState q4 q4).kern 0 0).st = .active ∧ ((launchState 0 q4 {}).ctx 0).runs = [{}] := by decide
theorem witness_KernelAndTableCommands_tables : up.tablesOpen 0 = true ∧ up.routeOk 0 { num := 255, src := (0, 0), dst := (0, 0) } = true
    ∧ (ringState.castleOk 0 { interval := 64, rings := [[0, 1]] }) = true ∧ peerFits { module := 2 ^ 18 - 1, rpart := 127, port := 143 } = true
    ∧ distinct [0] = true ∧ up.hasL2 0 = true ∧ up.tableOk [0] [] = true ∧ (127 : Nat) < 128 ∧ (143 : Nat) < 144 := by decide
theorem witness_KernelAndTableCommands_retire : smGet 0 framesState.owner 9 = 0 + 1 ∧ 9 ∉ rootFrames 65536 ∧ framesState.leaves 0 = [] ∧ (12 : Nat) / 65536 ∈ (framesState.part 0).chans
    ∧ 12 % 65536 < framesState.chanFrames 0 ∧ smGet 0 framesState.owner 12 = 0 ∧ Memory.wf framesState.mem = true ∧ framesState.entries 0 = [] := by decide

/-- A packet for this module over port 143, and a state that takes it. -/
def packet : Etsel := { port := 143, hdr := { addr := 0x20000, bytes := 7 }, data := leBytes 8 5 }
/-- Port 143 is up, and the TLB of its site holds a page of partition 0. -/
def packetState : State := (upPort memState 143).modTile (etselSite 143) fun t =>
  { t with tlb := [{ part := 0, base := 0x20000, size := 65536, leaf := BitVec.ofNat 64 (2 ^ 63 + 2 ^ 62 + 2 ^ 59 + 2 ^ 58 + 2 ^ 56) }] }

theorem witness_EtselEvents : Takes packetState packet ∧ ∀ a ∈ [Acc1.load, .store, .atom], ∃ s1 x, packetState.globalCheck (etselSite 143) 0 0x20000 a = (s1, .ok x)
    ∧ leafTgt x.leaf = 0 ∧ leafRep x.leaf = none ∧ leafMig x.leaf = false ∧ packetState.owns 0 x.pa = true ∧ x.pa % 64 + 8 ≤ 64
    ∧ 1 ∉ (packetState.port 143).xoff ∧ (packetState.port 143).rbuf = [] := by
  refine ⟨by unfold Takes; decide, ?_⟩
  intro a ha
  simp only [List.mem_cons, List.mem_nil_iff, or_false] at ha
  rcases ha with rfl | rfl | rfl <;> exact ⟨_, _, rfl, by decide⟩
theorem witness_EtselEvents_answer : let o := lane0 .ld { x0 with tgt := 2, phase := .sent }
    (withOp o).asked { tag := etselTag 1 31 } = some (o, { x0 with tgt := 2, phase := .sent }) ∧ (withOp o).op? 1 = some o := by decide
theorem witness_EtselEvents_messaged : let c : Copy := { copy0 .message [{ team := 0 }] with remote := some 0, sent := true }
    (withCopy c).messaged { tag := 9 } = some c ∧ ((withCopy c).team c.team).image = none := by decide
/-- The one packet of a message to team 0 of grid 0, one lane of 8 bytes for the start of its window. -/
def xpacket : Etsel := { port := 143, hdr := { addr := 0, mask := 1, vl := 2, last := true }, data := leBytes 8 5 }
/-- It waits in the receive buffer with its entry of the range scoreboard. -/
def xState : State := (packetState.modPort 143 fun p => { p with rbuf := [{ id := 77, op := 5, pkt := xpacket, taken := some 0 }] }).modTile 0 fun t =>
  { t with range := [{ team := 0, dest := true, lo := 0, hi := 8, copy := some 77, mma := none, share := true }] }

theorem witness_EtselEvents_xsend : Takes xState xpacket ∧ (xState.port 143).rbuf = [{ id := 77, op := 5, pkt := xpacket, taken := some 0 }]
    ∧ 1 ∉ (xState.port 143).xoff ∧ teamKey 0 0 (BitVec.truncate 32 (0 : Word)) = 0 ∧ (xState.team 0).present = true ∧ (xState.ctx (xState.team 0).ctx).part = 0
    ∧ (xState.team 0).st ≠ .transit ∧ (xState.team 0).image = none ∧ 7 < (xState.team 0).wsize ∧ laneList xpacket.hdr.mask = [0]
    ∧ ∀ e ∈ (xState.tile 0).range, e.mma = none ∧ e.share = true ∧ e.copy = some 77 ∧ e.team = 0 := ⟨by unfold Takes; decide, by decide⟩

theorem witness_EtselEvents_foreign : ({ packet with hdr := { packet.hdr with dmod := 1 } } : Etsel).hdr.dmod ≠ packetState.flash.module ∧ packetState.portUp 143 = true := by decide
theorem witness_EtselEvents_ways : packetState.peerCut packet 0 false = false ∧ packetState.peerCut packet 0 true = false
    ∧ xState.cutBoth 0 (etselSite 143) (xState.team 0).site = false ∧ base.cut 0 (etselSite 143) 0 = false
    ∧ (base.modRouter (etselSite 143) fun r => { r with down := [0, 1, 2, 3] }).cut 0 (etselSite 143) 0 = true := by decide +kernel

/-! ### The mesh, ports, partitions, the module and power -/

/-- Router 0 permits partition 127 the east link. -/
def meshState (down : List Nat) : State := up.modRouter 0 fun r => { r with links := [(127, [1])], down }

/-- A flit of partition 127 at site 0. -/
def flit (dst : Nat) : Flit := { tag := 127, site := 0, src := 0, dst, chan := 3 }

theorem witness_MeshAndPortEvents : (meshState []).flitLink (flit 1) = (some 1, []) ∧ 1 ∈ smGet [] ((meshState []).router 0).links 127
    ∧ 1 ∈ ((meshState [1]).router 0).down ∧ ((meshState []).flitLink (flit 0)).1 = none ∧ ((meshState []).flitLink (flit 48)).1 = some 0
    ∧ 0 ∉ smGet [] ((meshState []).router 0).links 127 ∧ up.site 4607 = .good ∧ 4 ≤ (flit 1).inLink ∧ (flit 1).chan < 4 := by decide
theorem witness_MeshAndPortEvents_turn : let here := (meshState []).flits ++ [flit 1]
    smGet 0 ((meshState []).router 0).sent 1 ≠ (meshState []).time.toNat + 1 ∧ (here.find? fun z => sameWay z (flit 1)) = some (flit 1)
      ∧ (∀ z ∈ here, z.chan = 3) ∧ (flit 1).stall = false := by decide
theorem witness_MeshAndPortEvents_states : ∀ st ∈ [PortState.up, .degraded, .training, .frozen, .down, .isolated], ((base.modPort 151 fun p => { p with st, width := 16 }).port 151).st = st := by
  decide
theorem witness_MeshAndPortEvents_late : ({ withOp (lane0 .ld { x0 with tgt := 1, phase := .sent }) with time := 2 ^ 40 } : State).hostLate 0 0 = true := by decide

/-- Every site that could serve a port is a hole. -/
def unserved : State := { base with sites := [(47, .hole), (384, .hole), (432, .hole), (576, .hole), (624, .hole)] }
/-- Port `n` trains since FCLK 0. -/
def trains (n : Nat) (now : Word) : State := { base.modPort n fun p => { p with st := .training } with time := now }
theorem witness_MeshAndPortEvents_served : base.portServed 143 = true ∧ base.portServed 144 = true ∧ unserved.portServed 144 = false
    ∧ ((trains 143 179999999).port 143).st = .training ∧ (trains 143 179999999).time.toNat < ((trains 143 179999999).port 143).since.toNat + 180000000
    ∧ ((trains 144 180000000).port 144).since.toNat + 180000000 ≤ (trains 144 180000000).time.toNat
    ∧ ((base.modPort 144 fun p => { p with st := .degraded, retrain := true }).port 144).retrain = true
    ∧ (1 : Nat) < 2 ∧ ((base.modPort 0 fun p => { p with st := .up, width := 2 }).port 0).width = 2 := by decide +kernel
theorem witness_MeshAndPortEvents_isolate : ∃ s : State, (s.port 144).st = .up ∧ (s.part 0).port = 144 ∧ s.ops = [lane0 .ld { x0 with tgt := 1, phase := .sent }] :=
  ⟨(upPort (withOp (lane0 .ld { x0 with tgt := 1, phase := .sent })) 144).modPart 0 fun p => { p with port := 144 }, by decide⟩
theorem witness_MeshAndPortEvents_control : (1 : Word).getLsbD 0 = true ∧ (1 : Word).getLsbD 1 = false ∧ (3 : Word).getLsbD 1 = true ∧ (0 : Word).getLsbD 0 = false
    ∧ (base.port 151).st = .down ∧ base.portServed 151 = true ∧ 0 ∉ (base.port 151).xoff := by decide +kernel

/-- A booted module without partitions; sites 0 and 1 and channel 0 are free. -/
def bare : State := { State.reset with booted := true }

theorem witness_PartitionEvents_carve : bare.carveCode 0 [0, 1] [0] { hbmq := 0, bmunits := 64 } [{ site := 0, links := [1] }, { site := 1, links := [3] }] = 0
    ∧ (bare.part 0).st = .free ∧ rootFrames 0 = [0, 1] := by decide
theorem witness_PartitionEvents_reshape : up.tdispBars 0 false = false ∧ up.siteFree 1 = true ∧ up.tableOk [0, 1] [{ site := 0, links := [1] }, { site := 1, links := [3] }] = true
    ∧ up.sharesOk 0 [] 16 = true ∧ descFits { hbmq := 1, bmunits := 1 } = true ∧ (up.requota 0 1).isSome = true ∧ up.bankUsed 0 ≤ 1 := by decide
theorem witness_PartitionEvents_shrink : (∀ z ∈ [1], z ∈ (ringState.part 0).sites) ∧ ((ringState.part 0).sites.filter fun z => !([1] : List Nat).contains z) = [0]
    ∧ (∀ e ∈ ringState.groups, siteOf e.1 ∈ [1] → e.2.st = .free) ∧ (ringState.part 0).moving = [] ∧ ringState.tableOk [0] [] = true := by decide
theorem witness_PartitionEvents_compact : up.tableOk [1] [] = true ∧ up.siteFree 1 = true ∧ (up.part 0).moving = [] ∧ distinct [1] = true
    ∧ (up.part 0).sites.map (siteMoved []) = [0] := by decide
theorem witness_PartitionEvents_still : ∃ s : State, (s.part 0).st = .quiescing ∧ (∀ c ∈ s.ctxsOf 0, (s.ctx c).still = true) ∧ s.copies = [] ∧ s.ops = [] :=
  ⟨(ctxIn .migrating).modPart 0 fun p => { p with st := .quiescing }, by decide⟩
/-- A record of page 0 with all its lines, under its MAC for session 0. -/
noncomputable def record0 : PageRecord :=
  let r : PageRecord := { major := 1, minors := List.replicate 64 1, carried := List.range 64 }
  { r with mac := recordMac (macKey 0) r }

theorem witness_PartitionEvents_records : record0.mac = recordMac (macKey 0) record0 ∧ ({ st := .migratingIn } : Part).accepts record0 = true
    ∧ (∀ m, ({ st := .migratingIn } : Part).accepts { major := 0, minors := [0], carried := [0], mac := m } = false) ∧ (0 : Nat) / 16 < (up.ownFrames 0).length := by
  refine ⟨rfl, ?_, fun m => ?_, by decide⟩
  · unfold Part.accepts
    rw [show record0.mac = recordMac (macKey ({ st := .migratingIn } : Part).session) record0 from rfl]
    simp only [decide_true, Bool.true_and]
    decide
  · unfold Part.accepts
    rw [Bool.and_eq_false_iff]
    exact .inr rfl
theorem witness_PartitionEvents_saved : up.installOk 0 {} = true
    ∧ up.installOk 0 { frames := List.range 99 } = false := by decide
theorem witness_PartitionEvents_scrub : ({ up with groups := [] } : State).sitesStill [0] = true ∧ up.ops = [] ∧ up.site 0 = .good := by decide

/-- The head of a record of page 0 that carries line 0. -/
def pageHead : List Byte := List.replicate 16 0 ++ 0x81 :: List.replicate 63 0
/-- Its bytes with a MAC. -/
def pageOf (m : BitVec 128) : List Byte := pageHead ++ (beBytes 16 m.toNat ++ List.replicate 4096 0)
/-- The record that they are. -/
def recordOf (m : BitVec 128) : PageRecord := { minors := 1 :: List.replicate 63 0, carried := [0], mac := m, data := [(0, List.replicate 64 0)] }

theorem beBytes_length (n x : Nat) : (beBytes n x).length = n := by
  rw [beBytes, List.length_reverse]
  induction n generalizing x with
  | zero => rfl
  | succ n ih => simp [leBytes, ih]

theorem readPage_pageOf (m : BitVec 128) : readPage (pageOf m) = recordOf m := by
  have hl : pageHead.length = 80 := by decide
  have h8 : (pageOf m).take 16 = pageHead.take 16 := by rw [pageOf, List.take_append_of_le_length (by omega)]
  have hg (i : Nat) (hi : i < 80) : (pageOf m).getD i 0 = pageHead.getD i 0 := List.getD_append _ _ _ _ (by omega)
  have hm : ((pageOf m).drop 0x50).take 16 = beBytes 16 m.toNat := by
    rw [pageOf, List.drop_left' hl, List.take_left' (beBytes_length _ _)]
  have hd : ((pageOf m).drop 0x60).take 64 = List.replicate 64 0 := by
    rw [show (0x60 : Nat) = 80 + 16 from rfl, ← List.drop_drop, pageOf, List.drop_left' hl, List.drop_left' (beBytes_length _ _)]
    decide
  have hb : BitVec.ofNat 128 (beNat (beBytes 16 m.toNat)) = m := by
    rw [beNat, beBytes, List.reverse_reverse, leNat_leBytes, Nat.mod_eq_of_lt (by have := m.isLt; omega), BitVec.ofNat_toNat, BitVec.setWidth_eq]
  have hc : ((List.range 64).filter fun i => decide (128 ≤ ((pageOf m).getD (16 + i) 0).toNat)) = [0] := by
    rw [show ((List.range 64).filter fun i => decide (128 ≤ ((pageOf m).getD (16 + i) 0).toNat))
        = (List.range 64).filter fun i => decide (128 ≤ (pageHead.getD (16 + i) 0).toNat) from
      List.filter_congr fun i hi => by rw [hg _ (by have := List.mem_range.1 hi; omega)]]
    decide
  have hs : ((List.range 64).map fun i => ((pageOf m).getD (16 + i) 0).toNat % 128) = 1 :: List.replicate 63 0 := by
    rw [show ((List.range 64).map fun i => ((pageOf m).getD (16 + i) 0).toNat % 128)
        = (List.range 64).map fun i => (pageHead.getD (16 + i) 0).toNat % 128 from
      List.map_congr_left fun i hi => by rw [hg _ (by have := List.mem_range.1 hi; omega)]]
    decide
  have ht : (pageOf m).take 8 = List.replicate 8 0 ∧ ((pageOf m).drop 8).take 8 = List.replicate 8 0 := by
    constructor
    · rw [show (pageOf m).take 8 = ((pageOf m).take 16).take 8 by rw [List.take_take]; rfl, h8]; decide
    · rw [show ((pageOf m).drop 8).take 8 = ((pageOf m).take 16).drop 8 by rw [List.drop_take], h8]; decide
  unfold readPage
  simp only [hm, hb, hc, hs, ht.1, ht.2, List.map_cons, List.map_nil, Nat.mul_zero, Nat.add_zero, hd]
  rfl

theorem witness_PartitionEvents_page : ∃ bs : List Byte, bs.length = 4192 ∧ ({ st := .migratingIn } : Part).accepts (readPage bs) = true
    ∧ (readPage bs).page / 16 < (up.ownFrames 0).length := by
  refine ⟨pageOf (recordMac (macKey 0) (recordOf 0)), ?_, ?_, ?_⟩
  · rw [pageOf, List.length_append, List.length_append, beBytes_length, List.length_replicate]; decide
  · rw [readPage_pageOf]
    unfold Part.accepts
    rw [show (recordOf (recordMac (macKey 0) (recordOf 0))).mac = recordMac (macKey ({ st := .migratingIn } : Part).session) (recordOf (recordMac (macKey 0) (recordOf 0))) from rfl]
    simp only [decide_true, Bool.true_and]
    decide
  · rw [readPage_pageOf]
    decide

/-- A head that names the route table of two sites. -/
def table2 : List RouterEntry := [{ site := 0, links := [1] }, { site := 1, links := [3] }]
theorem witness_PartitionEvents_import : bare.cmdTurn 8 none [0] = true ∧ bare.bufferLost 8 = false ∧ ({ table := table2 } : StreamHead).table = table2
    ∧ bare.carveCode 0 [0, 1] [0] { hbmq := 1 } table2 = 0 ∧ (∀ q < 0, (bare.part q).st ≠ .free) := by decide +kernel
theorem witness_PartitionEvents_grow : up.cmdTurn 2 (some false) [0] = true ∧ up.bufferLost 2 = false ∧ distinct ((up.part 0).sites ++ [1]) = true
    ∧ distinct ((up.part 0).chans ++ [1]) = true ∧ up.siteFree 1 = true ∧ up.chanFree 0 1 false = true ∧ up.tableOk ((up.part 0).sites ++ [1]) table2 = true
    ∧ (∀ e ∈ [((1 : Nat), (31 : Nat))], e.1 ∈ (up.part 0).sites ++ [1] ∧ e.2 < 32) ∧ up.sharesOk 0 [1] (shareOf (up.part 0).desc) = true := by decide +kernel
theorem witness_PartitionEvents_grown : ∃ s : State, ((s.part 0).grow).map (fun g => g.sites) = some [0, 1] ∧ ∀ g, (s.part 0).grow = some g → g.since.toNat < s.time.toNat :=
  ⟨{ up.modPart 0 fun p => { p with st := .growing, grow := some { sites := [0, 1] } } with time := 1 }, by decide, fun g h => by cases h; decide⟩
theorem witness_PartitionEvents_shrink_bind : (∀ e ∈ ringState.ctxs, e.2.part = 0 → ∀ k ∈ e.2.kerns,
      (∀ b ∈ k.2.plan.sets, ∀ z ∈ b.slots, z.site ∉ [1]) ∧ ∀ z ∈ k.2.plan.spawns, z.site ∉ [1])
    ∧ (∀ f ∈ ringState.ownFrames 0, f / 65536 ∈ ([] : List Nat) → ringState.frameUsed 0 f = false)
    ∧ ringState.tableOk [0] ((ringState.part 0).table.filter fun e => ([0] : List Nat).contains e.site || ringState.site e.site = .spare || ringState.site e.site = .mappedOut) = true
    ∧ (ringState.part 0).desc.bmunits ≤ bankUnits [0] := by decide +kernel
theorem witness_PartitionEvents_quota : ∃ s1, up.requota 0 1 = some s1 := ⟨_, rfl⟩
theorem witness_PartitionEvents_export : up.cmdTurn 7 (some true) [0, 5, 6, 7] = true ∧ up.tdispBars 0 true = false := by decide
/-- What stands on sites 0 and 1, and their channels, may change places, or nothing moves. -/
def twoSites : State := up.modPart 0 fun p => { p with sites := [0, 1], chans := [0, 1], table := table2 }
theorem witness_PartitionEvents_moves : ∀ m ∈ [[((0 : Nat), (1 : Nat)), (1, 0)], []],
    let x := twoSites.part 0
    let cm := (m.map fun e => (twoSites.chanOf e.1, twoSites.chanOf e.2)).filter fun e => x.chans.contains e.1
    let fs := (twoSites.ownFrames 0).filter fun f => cm.any fun e => e.1 = f / 65536
    x.st = .active ∧ x.moving = [] ∧ twoSites.tdispBars 0 false = false ∧ (∀ e ∈ m, e.1 ∈ x.sites) ∧ (m.filter fun e => e.1 != e.2) = m
      ∧ distinct (m.map Prod.fst) = true ∧ distinct (x.sites.map (siteMoved m)) = true ∧ (∀ e ∈ m, e.2 ∈ x.sites ∨ twoSites.siteFree e.2 = true)
      ∧ ({ x with sites := x.sites.map (siteMoved m) } : Part).origin = x.origin ∧ twoSites.tableOk (x.sites.map (siteMoved m)) table2 = true
      ∧ (twoSites.modPart 0 fun y => { y with sites := x.sites.map (siteMoved m) }).castleOk 0 {} = true
      ∧ x.routes = [] ∧ (∀ e ∈ cm, twoSites.chanFree 0 e.2 x.desc.prot = true) ∧ (∀ e ∈ twoSites.l2, e.1 / 256 ∈ fs → e.2.pin = none)
      ∧ (∀ f ∈ fs, let t := siteMoved cm (f / 65536) * 65536 + f % 65536
          t ∈ fs ∨ (smGet 0 twoSites.owner t = 0 ∧ t ∉ twoSites.retired ∧ t % 65536 < twoSites.chanFrames (t / 65536)))
      ∧ twoSites.sharesOk 0 (cm.map Prod.snd) (shareOf x.desc) = true := by decide +kernel
theorem witness_PartitionEvents_compacting : ∃ s : State, (s.part 0).st = .compacting ∧ (s.part 0).moving = [] ∧ (s.part 0).cframes ≠ [] :=
  ⟨twoSites.modPart 0 fun p => { p with st := .compacting, cmap := [(0, 1), (1, 0)], cchans := [(0, 1), (1, 0)], cframes := [(0, 65536)] }, by decide⟩
theorem witness_PartitionEvents_rounds : (∀ t ∈ [1, 0], ∃ s : State, (s.part 0).st = .precopying ∧ (s.part 0).threshold = t ∧ (s.part 0).resend = [] ∧ (s.part 0).rounds < 31)
    ∧ ∃ s : State, (s.part 0).st = .migratingIn ∧ s.installOk 0 {} = true ∧ ((s.install 0 {}).requota 0 0).isSome = true := by
  refine ⟨fun t _ => ⟨up.modPart 0 fun p => { p with st := .precopying, threshold := t }, rfl, rfl, rfl, (by decide : 0 < 31)⟩,
    { up.modPart 0 fun p => { p with st := .migratingIn } with owner := [] }, by decide +kernel⟩
theorem witness_PartitionEvents_leaving : ∃ s : State, (s.part 0).st = .active ∧ (s.part 0).leaving ≠ [] ∧ s.sitesStill (s.part 0).leaving = true :=
  ⟨{ up.modPart 0 fun p => { p with leaving := [7] } with groups := [] }, by decide⟩

theorem witness_ModuleEvents : (up.part 0).st = .active ∧ up.tdispBars 0 false = false ∧ (up.ctx 0).st ≠ .destroyed ∧ (up.ctx 0).part = 0
    ∧ (upPort up 151).portUp 151 = true ∧ ((upPort up 151).port 151).cmd.busy = false ∧ roithOps.contains (((upPort up 151).port 151).cmd.nat 0 2) = false := by decide
theorem witness_ModuleEvents_tdisp : ∃ s : State, (s.vf 127).tdisp = .unlocked ∧ (s.vf 127).ide = true ∧ (s.part 127).desc.prot = true ∧ (s.part 127).st = .active :=
  ⟨(up.modVf 127 fun v => { v with ide := true }).modPart 127 fun p => { p with st := .active, desc := { prot := true } }, by decide⟩
theorem witness_ModuleEvents_reset : ((State.reset.flash.imageA || State.reset.flash.imageB) && State.reset.flash.baseOk) = true := by decide

theorem witness_PowerEvents : 18000 ∣ (18000 : Word).toNat ∧ base.site 4607 = .good ∧ (2949 : Nat) < 2950 ∧ 20 * 2565 ≤ 19 * 2700 ∧ ¬(20 * 2566 ≤ 19 * 2700)
    ∧ 1800000 ∣ (1800000 : Word).toNat ∧ smSorted base.tiles = true ∧ ((base.tile 0).occ.map Prod.fst).Nodup := by decide

theorem witness_ModuleEvents_turns : up.cmdTurn 0x31 none [0] = true ∧ up.cmdTurn 0x32 none [4607] = true ∧ up.cmdTurn 0x33 none [] = true ∧ up.cmdTurn 20 (some false) [0, 144, 0] = true
    ∧ (up.modVf 0 fun v => { v with ctx := some 0 }).booted = true := by decide
theorem witness_PowerEvents_interval : base.ctlAt ≠ (18000 : Word).toNat + 1 ∧ ¬18000 ∣ (18001 : Word).toNat ∧ ({ base with ctlAt := 1 } : State).ctlAt = base.time.toNat + 1 := by decide

/-! ### Single steps, with results worked out by hand from the rules -/

/-- The state after an instruction. -/
noncomputable def after (i : Instr) (s : State) : State := (match exec i s with | .next t => t | _ => s)
/-- Group 0 with s1 and s2. -/
def withS (a b : Word) : State := grp0 fun g => { g with s := [(1, .of a), (2, .of b)] }
/-- Group 0 with v1 and v2 in every lane. -/
def withV (a b : Word) : State := grp0 fun g => { g with v := [(1, Vector.replicate 32 (.of a)), (2, Vector.replicate 32 (.of b))] }

/-- R66: a sum is taken modulo 2^64. -/
theorem test_sadd_wraps : ((after (.sadd (fb 2)) (withS (BitVec.allOnes 64) 1)).grp 0).rdS 3 = .of 0 := by decide
/-- R108: the difference is A minus B, not B minus A. -/
theorem test_ssub_order : ((after (.ssub (fb 2)) (withS 5 7)).grp 0).rdS 3 = .of (-2) := by decide
/-- R67: the quotient is rounded toward zero: -7 / 2 = -3. -/
theorem test_sdiv_toward_zero : ((after (.sdiv (fb 2)) (withS (-7) 2)).grp 0).rdS 3 = .of (-3) := by decide
/-- R67: a divisor of 0 gives all ones. -/
theorem test_sdiv_by_zero : ((after (.sdiv (fb 2)) (withS 7 0)).grp 0).rdS 3 = .of (BitVec.allOnes 64) := by decide
/-- R67: the remainder has the sign of the dividend. -/
theorem test_srem_sign : ((after (.srem (fb 2)) (withS (-7) 2)).grp 0).rdS 3 = .of (-1) := by decide
/-- R108: a count of the width or more gives 0. -/
theorem test_sshl_width : ((after (.sshl (fb 2)) (withS 1 64)).grp 0).rdS 3 = .of 0 := by decide
/-- R108: SAR of a negative value by more than the width gives -1. -/
theorem test_ssar_width : ((after (.ssar (fb 2)) (withS (-5) 200)).grp 0).rdS 3 = .of (-1) := by decide
/-- R33, R66: MOD 6 is bytes with SAT, each clamped on its own: 0x7F + 1 = 0x7F, -128 + -1 = -128. -/
theorem test_iadd_saturates : ((after (.iaddExt (fl 0 6)) (withV 0x807F 0xFF01)).grp 0).rdV 3 31 = .of 0x807F := by decide
/-- R33: MOD 3 is 64 bits, so a carry crosses bit 32; MOD 0 is 32 bits, so it does not. -/
theorem test_iadd_width : ((after (.iaddExt (fl 0 3)) (withV 0xFFFFFFFF 1)).grp 0).rdV 3 0 = .of 0x100000000
    ∧ ((after (.iaddExt (fl 0 0)) (withV 0xFFFFFFFF 1)).grp 0).rdV 3 0 = .of 0 := by decide
/-- R108: MULH keeps the upper half of the signed product: -1 times 1 gives -1. -/
theorem test_imulh_signed : ((after (.imulhExt (fl 0 3)) (withV (BitVec.allOnes 64) 1)).grp 0).rdV 3 7 = .of (BitVec.allOnes 64) := by decide
/-- R69: 1.0 + 2^-24 is a tie that rne rounds to 1.0 in FP32, in both halves. -/
theorem test_fadd_tie : ((after (.fadd (fb 0)) (withV 0x3F8000003F800000 0x3380000033800000)).grp 0).rdV 3 0 = .of 0x3F8000003F800000 := by decide
/-- R69: 1.00000012 times 1.0, and 2.0 times -3.0, in the two halves. -/
theorem test_fmul_one : ((after (.fmul (fb 0)) (withV 0x3F80000140000000 0x3F800000C0400000)).grp 0).rdV 3 5 = .of 0x3F800001C0C00000 := by decide
/-- R117: a branch of -3 words from address 0x10000 goes to 0xFFF4. -/
theorem test_bra_back : ((after (.bra { d := 61, a := 63, b := 63 }) base).grp 0).lane[(9 : LaneId)].pcv = 0xFFF4 := by decide
/-- R98: TRAP with a code traps the group. -/
theorem test_trap : ((after (.trap { imm := 0 }) base).grp 0).st = .trapped := by decide

/-! ### The hash and the cipher, against the published vectors of their standards -/

/-- FIPS 180-4: the digest of "abc". -/
theorem test_sha256 : sha256 [0x61, 0x62, 0x63] = 0xBA7816BF8F01CFEA414140DE5DAE2223B00361A396177A9CB410FF61F20015AD := by decide +kernel
/-- FIPS 197, C.3: AES-256. -/
theorem test_aes : aesBlock ((List.range 32).map (BitVec.ofNat 8)) ((List.range 16).map fun i => BitVec.ofNat 8 (0x11 * i)) =
    beBytes 16 0x8EA2B7CA516745BFEAFC49904B496089 := by decide +kernel
/-- The multiplication of GHASH, from test cases 13 and 14 of GCM with their zero key. -/
theorem test_ghash : ghMul (ghMul 0xCEA7403D4D606B6E074EC5D3BAF39D18 0xDC95C078A2408989AD48A21492842087 ^^^ 128) 0xDC95C078A2408989AD48A21492842087
    ^^^ 0x530F8AFBC74536B9A963B4F1C4CB738B = 0xD0D1C8A799996BF0265B98B5D48AB919 := by decide +kernel

end Sys2Proof.Tests
end

section
/-!
PROOFS of O39 and O40. `MemoriesWf` is an invariant of every function of the model that makes a state. A function that leaves the three
memories alone has an `↔`, which `simp` applies whatever else stands around it; one that writes them has an implication. The lemmas
follow the model's files in their order, up to `exec_kept` and `step_kept`. `KeptBy` carries both obligations: the outcome
is a next state (R2), and its memories are canonical if those before were.
-/

namespace Sys2Proof.Machine

/-! ### The invariant: records, choices, folds and outcomes -/

@[simp] theorem memoriesWf_mk (time agenda stage turns cur nextId freeCtr out groups cores tiles routers flits mem mpoi hostLines
    spad spoi sown bank bpoi bred ecc l2 served repLog owner retired ops copies wakes teams ctxs parts vfs ports cmds flash sites
    booted bootCode pnow pnows ctlAt plim ovhd limited) :
    MemoriesWf (State.mk time agenda stage turns cur nextId freeCtr out groups cores tiles routers flits mem mpoi hostLines
        spad spoi sown bank bpoi bred ecc l2 served repLog owner retired ops copies wakes teams ctxs parts vfs ports cmds flash sites
        booted bootCode pnow pnows ctlAt plim ovhd limited) ↔
      Memory.wf mem = true ∧ Memory.wf spad = true ∧ Memory.wf bank = true := Iff.rfl

@[simp] theorem memoriesWf_fold (s : State) :
    (Memory.wf s.mem = true ∧ Memory.wf s.spad = true ∧ Memory.wf s.bank = true) ↔ MemoriesWf s := Iff.rfl

@[simp] theorem memoriesWf_ite (c : Prop) [Decidable c] (s t : State) :
    MemoriesWf (if c then s else t) ↔ if c then MemoriesWf s else MemoriesWf t := by split <;> rfl

@[simp] theorem memoriesWf_ite_fst {α : Type} (c : Prop) [Decidable c] (p q : State × α) :
    MemoriesWf (if c then p else q).1 ↔ if c then MemoriesWf p.1 else MemoriesWf q.1 := by split <;> rfl

@[simp] theorem memoriesWf_foldl_iff {α : Type} (f : State → α → State) (l : List α) (s : State)
    (hf : ∀ s a, MemoriesWf (f s a) ↔ MemoriesWf s) :
    MemoriesWf (l.foldl f s) ↔ MemoriesWf s := by
  induction l generalizing s with
  | nil => rfl
  | cons a l ih => exact (ih _).trans (hf s a)

@[simp] theorem memoriesWf_foldl {α : Type} {f : State → α → State} {s : State} (l : List α) (hf : ∀ s a, MemoriesWf s → MemoriesWf (f s a))
    (hw : MemoriesWf s) : MemoriesWf (l.foldl f s) := by
  induction l generalizing s with
  | nil => exact hw
  | cons a l ih => exact ih (hf s a hw)

@[simp] theorem memoriesWf_foldl_fst_iff {α β : Type} (f : State × β → α → State × β) (l : List α) (r : State × β)
    (hf : ∀ r a, MemoriesWf (f r a).1 ↔ MemoriesWf r.1) : MemoriesWf (l.foldl f r).1 ↔ MemoriesWf r.1 := by
  induction l generalizing r with
  | nil => rfl
  | cons a l ih => exact (ih _).trans (hf r a)

theorem memoriesWf_cases {c : Prop} [Decidable c] {s t : State} (hs : c → MemoriesWf s) (ht : ¬c → MemoriesWf t) :
    MemoriesWf (if c then s else t) :=
  iteInduction (motive := MemoriesWf) hs ht

theorem memoriesWf_fst_mk {α β : Type} (r : State × β) (a : α) : MemoriesWf (r.1, a).1 ↔ MemoriesWf r.1 := Iff.rfl

theorem memoriesWf_of_fst {α : Type} {p : State × α} {s : State} {a : α} (h : p = (s, a)) (hw : MemoriesWf p.1) : MemoriesWf s := by
  rwa [h] at hw

/-- Rewrites the state that a step of a `match` names to the state that it was made from. -/
theorem memoriesWf_iff_of_fst {α : Type} {p : State × α} {s : State} {a : α} (h : p = (s, a)) : MemoriesWf s ↔ MemoriesWf p.1 := by
  rw [h]

/-- The states that an outcome of a body carries have canonical memories. -/
def Out.Wf : Out → Prop
  | .regs _ _ _ => True
  | .next s => MemoriesWf s
  | .pcs s _ => MemoriesWf s
  | .start s _ => MemoriesWf s
  | .held _ s => MemoriesWf s
  | .trap _ _ _ s => MemoriesWf s
  | .hold _ => True
  | .wait _ s => MemoriesWf s

@[simp] theorem Out.wf_regs (g : Group) (fl : BitVec 6) (c : Nat) : (Out.regs g fl c).Wf := trivial
@[simp] theorem Out.wf_next (s : State) : (Out.next s).Wf ↔ MemoriesWf s := Iff.rfl
@[simp] theorem Out.wf_pcs (s : State) (pc) : (Out.pcs s pc).Wf ↔ MemoriesWf s := Iff.rfl
@[simp] theorem Out.wf_start (s : State) (op) : (Out.start s op).Wf ↔ MemoriesWf s := Iff.rfl
@[simp] theorem Out.wf_held (s : State) (h) : (Out.held h s).Wf ↔ MemoriesWf s := Iff.rfl
@[simp] theorem Out.wf_trap (s : State) (c a d) : (Out.trap c a d s).Wf ↔ MemoriesWf s := Iff.rfl
@[simp] theorem Out.wf_hold (h) : (Out.hold h).Wf := trivial
@[simp] theorem Out.wf_wait (s : State) (h) : (Out.wait h s).Wf ↔ MemoriesWf s := Iff.rfl
@[simp] theorem Out.wf_ite (c : Prop) [Decidable c] (o p : Out) :
    (if c then o else p).Wf ↔ if c then o.Wf else p.Wf := by split <;> rfl

/-- The state, where there is one, has canonical memories. -/
def OptWf : Option State → Prop
  | none => True
  | some s => MemoriesWf s

@[simp] theorem optWf_none : OptWf none := trivial
@[simp] theorem optWf_some (s : State) : OptWf (some s) ↔ MemoriesWf s := Iff.rfl

theorem OptWf.of_eq {o : Option State} {s : State} (ho : OptWf o) (he : o = some s) : MemoriesWf s := by
  rwa [he] at ho

@[simp] theorem memoriesWf_getD (o : Option State) (s : State) (ho : OptWf o) (hw : MemoriesWf s) : MemoriesWf (o.getD s) := by
  cases o with
  | none => exact hw
  | some u => exact ho

/-- The outcome goes on to a next state, and keeps the memories of `s` canonical: the invariant of every arm of `exec`. -/
def KeptBy (s : State) (r : Res) : Prop := ∃ t, r = .next t ∧ (MemoriesWf s → MemoriesWf t)

@[simp] theorem keptBy_next (s t : State) : KeptBy s (.next t) ↔ (MemoriesWf s → MemoriesWf t) := by simp [KeptBy]

/-! ### Functions of `Sys2Proof/Machine/Ops` -/

@[simp] theorem State.setGrp_wf (s : State) (k : Nat) (g : Group) : MemoriesWf (s.setGrp k g) ↔ MemoriesWf s :=
  Iff.rfl

@[simp] theorem State.modGrp_wf (s : State) (k : Nat) (f : Group → Group) : MemoriesWf (s.modGrp k f) ↔ MemoriesWf s :=
  Iff.rfl

@[simp] theorem State.leaveSlot_wf (s : State) (k : Nat) : MemoriesWf (s.leaveSlot k) ↔ MemoriesWf s :=
  Iff.rfl

@[simp] theorem State.modCore_wf (s : State) (c : Nat) (f : Core → Core) : MemoriesWf (s.modCore c f) ↔ MemoriesWf s :=
  Iff.rfl

@[simp] theorem State.modTile_wf (s : State) (t : Nat) (f : Tile → Tile) : MemoriesWf (s.modTile t f) ↔ MemoriesWf s :=
  Iff.rfl

@[simp] theorem State.modRouter_wf (s : State) (t : Nat) (f : Router → Router) : MemoriesWf (s.modRouter t f) ↔ MemoriesWf s :=
  Iff.rfl

@[simp] theorem State.modTeam_wf (s : State) (t : Nat) (f : Team → Team) : MemoriesWf (s.modTeam t f) ↔ MemoriesWf s :=
  Iff.rfl

@[simp] theorem State.modCtx_wf (s : State) (c : Nat) (f : Ctx → Ctx) : MemoriesWf (s.modCtx c f) ↔ MemoriesWf s :=
  Iff.rfl

@[simp] theorem State.modPart_wf (s : State) (p : Nat) (f : Part → Part) : MemoriesWf (s.modPart p f) ↔ MemoriesWf s :=
  Iff.rfl

@[simp] theorem State.modVf_wf (s : State) (v : Nat) (f : Vf → Vf) : MemoriesWf (s.modVf v f) ↔ MemoriesWf s :=
  Iff.rfl

@[simp] theorem State.modPort_wf (s : State) (p : Nat) (f : Port → Port) : MemoriesWf (s.modPort p f) ↔ MemoriesWf s :=
  Iff.rfl

@[simp] theorem State.modKern_wf (s : State) (c n : Nat) (f : Kern → Kern) : MemoriesWf (s.modKern c n f) ↔ MemoriesWf s :=
  Iff.rfl

@[simp] theorem State.emit_wf (s : State) (o : Output) : MemoriesWf (s.emit o) ↔ MemoriesWf s := Iff.rfl

@[simp] theorem State.ctxEvent_wf (s : State) (c n : Nat) : MemoriesWf (s.ctxEvent c n) ↔ MemoriesWf s := by
  simp [State.ctxEvent]

@[simp] theorem State.ctxCount_wf (s : State) (c : Nat) (i : Fin 8) (n : Nat) : MemoriesWf (s.ctxCount c i n) ↔ MemoriesWf s := by
  simp [State.ctxCount]

@[simp] theorem State.consume_wf (s : State) (k n : Nat) : MemoriesWf (s.consume k n) ↔ MemoriesWf s := by
  simp [State.consume]

@[simp] theorem State.freeMmas_wf (s : State) (k : Nat) : MemoriesWf (s.freeMmas k) ↔ MemoriesWf s := by
  simp [State.freeMmas]

@[simp] theorem State.enterTrap_wf (s : State) (k : Nat) (cause : BitVec 6) (addr : Word) (done : LaneMask) :
    MemoriesWf (s.enterTrap k cause addr done) ↔ MemoriesWf s :=
  Iff.rfl

@[simp] theorem State.trap_wf (s : State) (k : Nat) (cause : Nat) (addr : Word) (done : LaneMask) :
    MemoriesWf (s.trap k cause addr done) ↔ MemoriesWf s := by
  simp [State.trap]

@[simp] theorem State.holdGrp_wf (s : State) (k : Nat) (h : Hold) (t : Word) : MemoriesWf (s.holdGrp k h t) ↔ MemoriesWf s :=
  Iff.rfl

@[simp] theorem State.launch_wf (s : State) (env : Env) (op : Op) : MemoriesWf (s.launch env op) ↔ MemoriesWf s :=
  Iff.rfl

@[simp] theorem State.complete_wf (s : State) (env : Env) (sync : Bool) (pc : LaneId → Word) :
    MemoriesWf (s.complete env sync pc) ↔ MemoriesWf s :=
  Iff.rfl

@[simp] theorem finish_wf (s : State) (env : Env) (sync : Bool) (o : Out) (hw : MemoriesWf s) (ho : o.Wf) :
    MemoriesWf (finish s env sync o) := by
  cases o <;> simp_all [finish, Out.Wf]

theorem issueWith_wf {maj : BitVec 7} {f : Fields} {s : State} {body : Env → State → Out} (hb : ∀ env s, MemoriesWf s → (body env s).Wf)
    (hw : MemoriesWf s) : MemoriesWf (issueWith maj f s body) := by
  unfold issueWith; dsimp only
  repeat' split
  all_goals simp [hw, hb]

theorem issueSync_wf {maj : BitVec 7} {f : Fields} {s : State} {body : Env → State → Out} (hb : ∀ env s, MemoriesWf s → (body env s).Wf)
    (hw : MemoriesWf s) : MemoriesWf (issueSync maj f s body) := by
  unfold issueSync; dsimp only
  repeat' split
  all_goals simp [hw, hb]

/-! ### Functions of `Sys2Proof/Machine/Operands` -/

@[simp] theorem poisonGate_wf (env : Env) (s : State) (cons : Nat) (go : Out) (hw : MemoriesWf s) (hgo : go.Wf) :
    (poisonGate env s cons go).Wf := by
  unfold poisonGate; split <;> simp [hw, hgo]

@[simp] theorem vecOutG_wf (env : Env) (s : State) (g : Group) (res : LaneId → LRes) (hw : MemoriesWf s) : (vecOutG env s g res).Wf := by
  simp [vecOutG, hw]

@[simp] theorem vecOut_wf (env : Env) (s : State) (res : LaneId → LRes) (hw : MemoriesWf s) : (vecOut env s res).Wf := by
  simp [vecOut, hw]

@[simp] theorem scalOut_wf (env : Env) (s : State) (res : LRes) (hw : MemoriesWf s) : (scalOut env s res).Wf := by
  simp [scalOut, hw]

@[simp] theorem predOut_wf (env : Env) (s : State) (res : LaneId → Bool × Nat × BitVec 6) (hw : MemoriesWf s) : (predOut env s res).Wf := by
  simp [predOut, hw]

/-! ### Functions of `Sys2Proof/Machine/Translate` -/

@[simp] theorem State.routeDrop_wf (s : State) (p : Nat) : MemoriesWf (s.routeDrop p) ↔ MemoriesWf s :=
  Iff.rfl

@[simp] theorem State.tagDrop_wf (s : State) (p : Nat) : MemoriesWf (s.tagDrop p) ↔ MemoriesWf s := Iff.rfl

@[simp] theorem State.hostErr_wf (s : State) (c : Nat) : MemoriesWf (s.hostErr c) ↔ MemoriesWf s := by
  simp [State.hostErr]

@[simp] theorem State.tlbAdd_wf (s : State) (t : Nat) (x : TlbEnt) : MemoriesWf (s.tlbAdd t x) ↔ MemoriesWf s :=
  Iff.rfl

@[simp] theorem State.askWalksAt_wf (s : State) (t k p : Nat) (ns : List Nat) : MemoriesWf (s.askWalksAt t k p ns) ↔ MemoriesWf s :=
  Iff.rfl

@[simp] theorem State.askWalks_wf (s : State) (k p : Nat) (ns : List Nat) : MemoriesWf (s.askWalks k p ns) ↔ MemoriesWf s :=
  Iff.rfl

@[simp] theorem State.endWalksAt_wf (s : State) (t k : Nat) : MemoriesWf (s.endWalksAt t k) ↔ MemoriesWf s :=
  Iff.rfl

@[simp] theorem State.endWalks_wf (s : State) (k : Nat) : MemoriesWf (s.endWalks k) ↔ MemoriesWf s := Iff.rfl

@[simp] theorem withWalks_wf (env : Env) (s : State) (vas : List Nat) (body : State → Out) (hb : ∀ s, MemoriesWf s → (body s).Wf)
    (hw : MemoriesWf s) : (withWalks env s vas body).Wf := by
  unfold withWalks; dsimp only
  split <;> simp [hw, hb]

@[simp] theorem State.xlate_wf (s : State) (t p va : Nat) : MemoriesWf (s.xlate t p va).1 ↔ MemoriesWf s := by
  unfold State.xlate
  repeat' split
  all_goals simp

@[simp] theorem State.globalCheck_wf (s : State) (t p : Nat) (va : Word) (a : Acc1) :
    MemoriesWf (s.globalCheck t p va a).1 ↔ MemoriesWf s := by
  have hx := State.xlate_wf s t p va.toNat
  unfold State.globalCheck
  repeat' split
  all_goals simp_all

/-! ### Functions of `Sys2Proof/Machine/Memory` -/

@[simp] theorem State.setStore_wf {s : State} {m : Memory} (x : Store) (p : SMap Bool) (hm : Memory.wf m = true) (hw : MemoriesWf s) :
    MemoriesWf (s.setStore x m p) := by
  obtain ⟨h1, h2, h3⟩ := hw
  cases x
  · exact ⟨hm, h2, h3⟩
  · exact ⟨h1, hm, h3⟩
  · exact ⟨h1, h2, hm⟩

@[simp] theorem State.setStore_bytesOf_wf (s : State) (x : Store) (p : SMap Bool) :
    MemoriesWf (s.setStore x (s.bytesOf x) p) ↔ MemoriesWf s := by
  cases x <;> exact Iff.rfl

theorem State.bytesOf_wf {s : State} (x : Store) (hw : MemoriesWf s) : Memory.wf (s.bytesOf x) = true := by
  obtain ⟨h1, h2, h3⟩ := hw
  cases x <;> assumption

theorem memWf_foldl_memSet {α : Type} {m : Memory} (l : List α) (a : α → Nat) (b : α → Byte) (h : Memory.wf m = true) :
    Memory.wf (l.foldl (fun m e => memSet m (a e) (b e)) m) = true := by
  induction l generalizing m with
  | nil => exact h
  | cons e l ih => exact ih (memWf_memSet _ _ h)

theorem memWf_foldl_memStore {α : Type} {m : Memory} (l : List α) (a n : α → Nat) (v : Memory → α → Nat) (h : Memory.wf m = true) :
    Memory.wf (l.foldl (fun m e => memStore m (a e) (n e) (v m e)) m) = true := by
  induction l generalizing m with
  | nil => exact h
  | cons e l ih => exact ih (memWf_memStore _ _ _ h)

@[simp] theorem State.eccMeet_wf (s : State) (c : Nat) (x : Store) (w : Nat) : MemoriesWf (s.eccMeet c x w) ↔ MemoriesWf s := by
  unfold State.eccMeet
  dsimp only
  split <;> simp

@[simp] theorem State.eccCount_wf (s : State) (c n1 n2 : Nat) : MemoriesWf (s.eccCount c n1 n2) ↔ MemoriesWf s := by
  simp [State.eccCount]

@[simp] theorem State.meetRegs_wf (s : State) (k : Nat) (rs : List RegId) (m : LaneMask) :
    MemoriesWf (s.meetRegs k rs m) ↔ MemoriesWf s := by
  simp [State.meetRegs]

@[simp] theorem State.meetAll_wf (s : State) (k : Nat) : MemoriesWf (s.meetAll k) ↔ MemoriesWf s := by
  simp [State.meetAll]

@[simp] theorem State.rdStore_wf (s : State) (c : Nat) (x : Store) (a n : Nat) : MemoriesWf (s.rdStore c x a n).1 ↔ MemoriesWf s := by
  simp [State.rdStore]

@[simp] theorem State.putBytes_wf (s : State) (x : Store) (bs : List WByte) (hw : MemoriesWf s) : MemoriesWf (s.putBytes x bs) :=
  State.setStore_wf x _ (memWf_foldl_memSet _ _ _ (State.bytesOf_wf x hw)) hw

@[simp] theorem State.wrStore_wf (s : State) (c : Nat) (x : Store) (bs : List WByte) (hw : MemoriesWf s) :
    MemoriesWf (s.wrStore c x bs) := by
  simp [State.wrStore, hw]

@[simp] theorem State.l2Meet_wf (s : State) (c ln : Nat) (m : BitVec 32) : MemoriesWf (s.l2Meet c ln m) ↔ MemoriesWf s := by
  simp [State.l2Meet]

@[simp] theorem State.l2Clean_wf (s : State) (c ln : Nat) : MemoriesWf (s.l2Clean c ln) ↔ MemoriesWf s := by
  simp [State.l2Clean]

@[simp] theorem State.l2Make_wf (s : State) (c ln : Nat) : MemoriesWf (s.l2Make c ln) ↔ MemoriesWf s := by
  unfold State.l2Make
  dsimp only
  repeat' split
  all_goals simp

@[simp] theorem State.l2Fetch_wf (s : State) (c pa n : Nat) (wr : Bool) : MemoriesWf (s.l2Fetch c pa n wr) ↔ MemoriesWf s := by
  simp [State.l2Fetch]

@[simp] theorem State.l2Touch_wf (s : State) (c pa n cls : Nat) (wr : Bool) : MemoriesWf (s.l2Touch c pa n cls wr) ↔ MemoriesWf s := by
  simp [State.l2Touch]

@[simp] theorem State.hostInval_wf (s : State) (pas : List Nat) : MemoriesWf (s.hostInval pas) ↔ MemoriesWf s := by
  simp [State.hostInval]

@[simp] theorem State.noteLines_wf (s : State) (lns : List Nat) : MemoriesWf (s.noteLines lns) ↔ MemoriesWf s := by
  unfold State.noteLines; split
  · rfl
  · refine memoriesWf_foldl_iff _ _ _ fun s ln => ?_
    repeat' split
    all_goals simp

@[simp] theorem State.homeRd_wf (s : State) (tag c pa n cls : Nat) : MemoriesWf (s.homeRd tag c pa n cls).1 ↔ MemoriesWf s := by
  simp [State.homeRd]

@[simp] theorem State.runTouch_wf (s : State) (c cls : Nat) (r : List WByte) : MemoriesWf (s.runTouch c cls r) ↔ MemoriesWf s := by
  unfold State.runTouch
  split <;> simp

@[simp] theorem State.chanWr_wf (s : State) (c : Nat) (bs : List WByte) (cls : Nat) (hw : MemoriesWf s) :
    MemoriesWf (s.chanWr c bs cls) := by
  unfold State.chanWr
  split <;> simp [hw]

@[simp] theorem State.homePut_wf (s : State) (inval : Bool) (tag c : Nat) (bs : List WByte) (cls : Nat) (hw : MemoriesWf s) :
    MemoriesWf (s.homePut inval tag c bs cls).1 := by
  unfold State.homePut
  split <;> simp [hw]

@[simp] theorem State.homeWr_wf (s : State) (tag c : Nat) (bs : List WByte) (cls : Nat) (hw : MemoriesWf s) :
    MemoriesWf (s.homeWr tag c bs cls).1 := by
  simp [State.homeWr, hw]

@[simp] theorem State.homePutAll_wf (s : State) (inval : Bool) (tag c : Nat) (bs : List WByte) (cls : Nat) (hw : MemoriesWf s) :
    MemoriesWf (s.homePutAll inval tag c bs cls).1 :=
  List.foldlRecOn (motive := fun r : State × Bool => MemoriesWf r.1) _ _ hw fun r hr _ _ => State.homePut_wf r.1 inval tag c _ cls hr

@[simp] theorem State.homeWrAll_wf (s : State) (tag c : Nat) (bs : List WByte) (cls : Nat) (hw : MemoriesWf s) :
    MemoriesWf (s.homeWrAll tag c bs cls).1 := by
  simp [State.homeWrAll, hw]

@[simp] theorem State.orderWr_wf (s : State) (p : Nat) (rep : Option Nat) (op : Nat) (who : Option Nat) (c core lane : Nat)
    (bs : List WByte) : MemoriesWf (s.orderWr p rep op who c core lane bs) ↔ MemoriesWf s := by
  unfold State.orderWr
  split <;> simp

@[simp] theorem State.setL1_wf (s : State) (core key : Nat) (x : L1Line) : MemoriesWf (s.setL1 core key x) ↔ MemoriesWf s :=
  Iff.rfl

@[simp] theorem State.l1Meet_wf (s : State) (c core key : Nat) (m : Byte) : MemoriesWf (s.l1Meet c core key m) ↔ MemoriesWf s := by
  simp [State.l1Meet]

@[simp] theorem State.sendWb_wf (s : State) (core p c : Nat) (lanes : List LaneOp) : MemoriesWf (s.sendWb core p c lanes) ↔ MemoriesWf s :=
  Iff.rfl

@[simp] theorem State.lineWb_wf (s : State) (core key : Nat) (hw : MemoriesWf s) : MemoriesWf (s.lineWb core key) := by
  have h1 : MemoriesWf (s.l1Meet (s.l1 core key).ctx core key (wordsIn (s.l1 core key).dirty)) := by simp [hw]
  unfold State.lineWb
  generalize s.l1Meet (s.l1 core key).ctx core key (wordsIn (s.l1 core key).dirty) = s1 at h1
  refine memoriesWf_cases (fun _ => h1) fun _ => memoriesWf_cases (fun _ => by simp [h1]) fun _ =>
    memoriesWf_cases (fun _ => by simp [h1]) fun _ => memoriesWf_cases
        (fun _ => by simp [h1]) fun _ =>
    memoriesWf_cases (fun _ => by simp [h1]) fun _ => ?_
  dsimp only
  split
  next he =>
    have h2 := memoriesWf_of_fst he (by simp [h1])
    simp [h2]
  next he =>
    have h2 := memoriesWf_of_fst he (by simp [h1])
    simp [h2]

@[simp] theorem State.unfill_wf (s : State) (core : Nat) (hit : Nat → Bool) : MemoriesWf (s.unfill core hit) ↔ MemoriesWf s :=
  Iff.rfl

@[simp] theorem State.l1Evict_wf (s : State) (core key : Nat) (hw : MemoriesWf s) : MemoriesWf (s.l1Evict core key) := by
  simp [State.l1Evict, hw]

@[simp] theorem State.l1Make_wf (s : State) (core key : Nat) (hw : MemoriesWf s) : MemoriesWf (s.l1Make core key) := by
  unfold State.l1Make
  dsimp only
  repeat' split
  all_goals simp [hw]

@[simp] theorem State.l1Flush_wf (s : State) (core p va n : Nat) (hw : MemoriesWf s) : MemoriesWf (s.l1Flush core p va n) := by
  simp [State.l1Flush, hw]

@[simp] theorem State.acquire_wf (s : State) (core scope : Nat) : MemoriesWf (s.acquire core scope) ↔ MemoriesWf s := by
  simp [State.acquire]

@[simp] theorem State.spadWr_wf (s : State) (tk : Nat) (off : Nat) (bs : List Byte) (ps : List Bool) (hw : MemoriesWf s) :
    MemoriesWf (s.spadWr tk off bs ps) := by
  simp [State.spadWr, hw]

@[simp] theorem State.spadRd_wf (s : State) (tk : Nat) (off n : Nat) : MemoriesWf (s.spadRd tk off n).1 ↔ MemoriesWf s := by
  simp [State.spadRd]

@[simp] theorem zeroBytes_wf (s : State) (x : Store) (a n : Nat) (hw : MemoriesWf s) : MemoriesWf (zeroBytes s x a n) :=
  State.setStore_wf x _ (memWf_filter _ (State.bytesOf_wf x hw)) hw

@[simp] theorem State.zeroFrame_wf (s : State) (f : Nat) (hw : MemoriesWf s) : MemoriesWf (s.zeroFrame f) := by
  simp [State.zeroFrame, hw]

@[simp] theorem State.openWindow_wf (s : State) (tk : Nat) (zero : Bool) (hw : MemoriesWf s) : MemoriesWf (s.openWindow tk zero) := by
  refine memoriesWf_foldl _ (fun s i h => ?_) hw
  dsimp only
  split <;> simp [h]

@[simp] theorem State.freeBytes_wf (s : State) (n : Nat) : MemoriesWf (s.freeBytes n).1 ↔ MemoriesWf s :=
  Iff.rfl

@[simp] theorem State.mapRels_wf (s : State) (f : Rel → Rel) : MemoriesWf (s.mapRels f) ↔ MemoriesWf s := by
  simp [State.mapRels]

@[simp] theorem State.writeback_wf (s : State) (core key : Nat) (hw : MemoriesWf s) : MemoriesWf (s.writeback core key) := by
  simp [State.writeback, hw]

/-! ### Functions of `Sys2Proof/Machine/Access` -/

@[simp] theorem State.l1Update_wf (s : State) (core p : Nat) (o : LaneOp) : MemoriesWf (s.l1Update core p o) ↔ MemoriesWf s := by
  simp [State.l1Update]

@[simp] theorem checkLane_wf (env : Env) (g : Group) (r : MemReq) (c : Chk) (l : LaneId) :
    MemoriesWf (checkLane env g r c l).s ↔ MemoriesWf c.s := by
  unfold checkLane Chk.fail
  dsimp only
  split
  · split <;> rfl
  · split
    · rfl
    · split
      · split
        next he => simp [memoriesWf_iff_of_fst he]
        next he => simp [memoriesWf_iff_of_fst he]
      · split <;> rfl
      · repeat' split
        all_goals rfl

@[simp] theorem checkLanes_wf (env : Env) (s : State) (r : MemReq) (ls : List LaneId) (hw : MemoriesWf s) :
    MemoriesWf (checkLanes env s r ls).s :=
  List.foldlRecOn (motive := fun c => MemoriesWf c.s) _ _ hw fun c hc l _ => (checkLane_wf env _ r c l).2 hc

@[simp] theorem memOut_wf (env : Env) (op : Op) (c : Chk) (yield : Bool) (hw : MemoriesWf c.s) : (memOut env op c yield).Wf := by
  unfold memOut
  dsimp only
  repeat' split
  all_goals simp [hw]

@[simp] theorem moveBody_wf (kind : OpKind) (env : Env) (s : State) (hw : MemoriesWf s) : (moveBody kind env s).Wf :=
  iteInduction (motive := Out.Wf) (fun _ => hw) fun _ => withWalks_wf _ _ _ _ (hw := hw) fun s h => by
    dsimp only
    split <;> simp [h]

@[simp] theorem atomBody_wf (kind : OpKind) (env : Env) (s : State) (hw : MemoriesWf s) : (atomBody kind env s).Wf := by
  unfold atomBody
  refine withWalks_wf _ _ _ _ (fun s h => ?_) hw
  dsimp only
  split <;> simp [h]

@[simp] theorem bredBody_wf (env : Env) (s : State) (hw : MemoriesWf s) : (bredBody env s).Wf := by
  simp [bredBody, hw]

@[simp] theorem State.l1Fetch_wf (s : State) (core p c va pa tgt : Nat) (rep : Option Nat) (repl : Bool) (cls : Nat) (hw : MemoriesWf s) :
    MemoriesWf (s.l1Fetch core p c va pa tgt rep repl cls).1 := by
  unfold State.l1Fetch
  extract_lets key base src r
  have hr : MemoriesWf r.1 := by
    dsimp only [r]
    split <;> simp [hw]
  clear_value r
  split
  · exact hr
  next s1 _ _ =>
    have h1 : MemoriesWf s1 := hr
    simp [h1]

@[simp] theorem State.prefWay_wf (s : State) (core p pa : Nat) : MemoriesWf (s.prefWay core p pa).1 ↔ MemoriesWf s := by
  simp [State.prefWay]

@[simp] theorem prefBody_wf (env : Env) (s : State) (hw : MemoriesWf s) : (prefBody env s).Wf := by
  refine iteInduction (motive := Out.Wf) (fun _ => hw) fun _ => withWalks_wf _ _ _ _ (fun s h => ?_) hw
  refine memoriesWf_foldl _ (fun s l h => ?_) h
  dsimp only
  split
  next he => exact memoriesWf_of_fst he (by simp [h])
  next he =>
      have h1 := memoriesWf_of_fst he (by simp [h])
      refine memoriesWf_cases (fun _ => h1) fun _ => ?_
      split
      next he => simp [memoriesWf_of_fst he (by simp [h1])]
      next he =>
          have h2 := memoriesWf_of_fst he (by simp [h1])
          repeat' split
          all_goals simp [h2]

@[simp] theorem flushBody_wf (env : Env) (s : State) (hw : MemoriesWf s) : (flushBody env s).Wf := by
  unfold flushBody
  refine withWalks_wf _ _ _ _ (fun s h => ?_) hw
  refine List.foldlRecOn (motive := fun c : Chk => MemoriesWf c.s) _ _ h fun c hc l _ => ?_
  dsimp only
  split
  · exact hc
  · split
    next he => exact memoriesWf_of_fst he (by simp [hc])
    next he => exact memoriesWf_of_fst he (by simp [hc])

@[simp] theorem pinLines_wf (site p c : Nat) (unpin : Bool) (fuel va : Nat) (s : State) (n : Nat) :
    MemoriesWf (pinLines site p c unpin fuel va s n).1 ↔ MemoriesWf s := by
  induction fuel generalizing va s n with
  | zero => rfl
  | succ fuel ih =>
    have hx := State.globalCheck_wf s site p (BitVec.ofNat 64 va) .load
    unfold pinLines
    split
    next he => simp_all
    next he =>
      simp only [he] at hx
      rw [← hx]
      dsimp only
      repeat' split
      all_goals simp [ih]

@[simp] theorem pinBody_wf (env : Env) (s : State) (hw : MemoriesWf s) : (pinBody env s).Wf := by
  refine iteInduction (motive := Out.Wf) (fun _ => by simp [hw]) fun _ => withWalks_wf _ _ _ _ (fun s h => ?_) hw
  simp [h]

/-! ### Functions of `Sys2Proof/Machine/Save` -/

@[simp] theorem State.saveLine_wf (s : State) (c : Nat) (bs : List WByte) (hw : MemoriesWf s) : MemoriesWf (s.saveLine c bs) := by
  unfold State.saveLine
  split
  · exact hw
  · dsimp only
    split
    · exact hw
    · split
      next he => simp [memoriesWf_of_fst he (by simp [hw])]
      next he => simp [memoriesWf_of_fst he (by simp [hw])]

@[simp] theorem State.saveWrite_wf (s : State) (c off n : Nat) (f : Nat → Byte × Bool) (hw : MemoriesWf s) :
    MemoriesWf (s.saveWrite c off n f) :=
  memoriesWf_foldl _ (fun s _ h => State.saveLine_wf s c _ h) hw

@[simp] theorem State.saveRead_wf (s : State) (c off n : Nat) : MemoriesWf (s.saveRead c off n).1 ↔ MemoriesWf s := by
  refine memoriesWf_foldl_fst_iff _ _ _ fun r i => ?_
  dsimp only
  split
  · rfl
  next pa rep _ =>
    have hx := State.homeRd_wf r.1 (s.ctx c).part c pa (min (off + n) (64 * (off / 64 + i) + 64) - max off (64 * (off / 64 + i))) 0
    split
    next he => simpa only [he] using hx
    next he => simpa only [he, State.hostErr_wf] using hx

@[simp] theorem State.imageWrite_wf (s : State) (tk off n : Nat) (f : Nat → Byte × Bool) (hw : MemoriesWf s) :
    MemoriesWf (s.imageWrite tk off n f) := by
  unfold State.imageWrite
  split <;> simp [hw]

@[simp] theorem State.writeHead_wf (s : State) (c : Nat) (hw : MemoriesWf s) : MemoriesWf (s.writeHead c) := by
  simp [State.writeHead, hw]

@[simp] theorem State.writeDirectory_wf (s : State) (tk : Nat) (im : Image) (valid : Bool) (hw : MemoriesWf s) :
    MemoriesWf (s.writeDirectory tk im valid) := by
  simp [State.writeDirectory, hw]

@[simp] theorem State.writeImage_wf (s : State) (tk : Nat) (hw : MemoriesWf s) : MemoriesWf (s.writeImage tk) := by
  unfold State.writeImage
  dsimp only
  split
  · exact hw
  next im _ =>
    apply State.writeDirectory_wf
    apply State.imageWrite_wf
    refine memoriesWf_cases (fun _ => ?_) (fun _ => State.imageWrite_wf _ _ _ _ _ ?_)
    all_goals
      refine memoriesWf_foldl _ (fun s a h => State.imageWrite_wf s _ _ _ _ h) ?_
      refine memoriesWf_foldl _ (fun s a h => State.imageWrite_wf s _ _ _ _ h) ?_
      exact State.imageWrite_wf _ _ _ _ _ hw

@[simp] theorem State.updateGroup_wf (s : State) (tk gid : Nat) (hw : MemoriesWf s) : MemoriesWf (s.updateGroup tk gid) := by
  unfold State.updateGroup
  repeat' split
  all_goals simp [hw]

@[simp] theorem State.updateBars_wf (s : State) (tk : Nat) (hw : MemoriesWf s) : MemoriesWf (s.updateBars tk) := by
  simp [State.updateBars, hw]

@[simp] theorem State.clearEntry_wf (s : State) (tk id : Nat) (share : Bool) (hw : MemoriesWf s) :
    MemoriesWf (s.clearEntry tk id share) := by
  unfold State.clearEntry
  repeat' split
  all_goals simp [hw]

@[simp] theorem State.writeIndices_wf (s : State) (c : Nat) (hw : MemoriesWf s) : MemoriesWf (s.writeIndices c) :=
  memoriesWf_foldl _ (fun s _ h => memoriesWf_cases (fun _ => h) fun _ => State.saveWrite_wf s c _ _ _ h) hw

@[simp] theorem State.headerOk_wf (s : State) (c slot : Nat) : MemoriesWf (s.headerOk c slot).1 ↔ MemoriesWf s := by
  simp [State.headerOk]

@[simp] theorem State.readGroups_wf (s : State) (c slot : Nat) (ks : List (Nat × Group)) :
    MemoriesWf (s.readGroups c slot ks).1 ↔ MemoriesWf s := by
  simp [State.readGroups]

@[simp] theorem State.readAccs_wf (s : State) (c slot : Nat) (as : List SavedAcc) : MemoriesWf (s.readAccs c slot as).1 ↔ MemoriesWf s :=
  memoriesWf_foldl_fst_iff _ _ _ fun r _ => (memoriesWf_fst_mk (r.1.saveRead c _ 0x4340) _).trans (State.saveRead_wf r.1 c _ 0x4340)

@[simp] theorem State.readBars_wf (s : State) (c slot : Nat) : MemoriesWf (s.readBars c slot).1 ↔ MemoriesWf s :=
  (memoriesWf_fst_mk (s.saveRead c _ 0x80) _).trans (State.saveRead_wf s c _ 0x80)

@[simp] theorem State.readSavedWindow_wf (s : State) (c slot n : Nat) : MemoriesWf (s.readSavedWindow c slot n).1 ↔ MemoriesWf s :=
  (memoriesWf_fst_mk (s.saveRead c _ n) _).trans (State.saveRead_wf s c _ n)

/-! ### Functions of `Sys2Proof/Machine/Team` -/

@[simp] theorem State.modMember_wf (s : State) (tk gid : Nat) (f : Group → Group) (hw : MemoriesWf s) :
    MemoriesWf (s.modMember tk gid f) := by
  unfold State.modMember
  repeat' split
  all_goals simp [hw]

@[simp] theorem State.batchErr_wf (s : State) (c : Copy) (code : Nat) (hw : MemoriesWf s) : MemoriesWf (s.batchErr c code) := by
  simp [State.batchErr, hw]

@[simp] theorem State.trimRemap_wf (s : State) : MemoriesWf (s.trimRemap) ↔ MemoriesWf s := by
  simp [State.trimRemap]

@[simp] theorem State.modCopy_wf (s : State) (id : Nat) (f : Copy → Copy) : MemoriesWf (s.modCopy id f) ↔ MemoriesWf s :=
  Iff.rfl

@[simp] theorem State.copyHostErr_wf (s : State) (c : Copy) (hw : MemoriesWf s) : MemoriesWf (s.copyHostErr c) := by
  simp [State.copyHostErr, hw]

/-! ### Functions of `Sys2Proof/Machine/Perform` -/

@[simp] theorem State.modOp_wf (s : State) (id : Nat) (f : Op → Op) : MemoriesWf (s.modOp id f) ↔ MemoriesWf s :=
  Iff.rfl

@[simp] theorem State.modLane_wf (s : State) (id l : Nat) (f : LaneOp → LaneOp) : MemoriesWf (s.modLane id l f) ↔ MemoriesWf s :=
  Iff.rfl

@[simp] theorem State.laneError_wf (s : State) (o : Op) (l : Nat) (hw : MemoriesWf s) : MemoriesWf (s.laneError o l) := by
  unfold State.laneError
  dsimp only
  repeat' split
  all_goals simp [hw]

@[simp] theorem State.markStale_wf (s : State) (o : Op) (x : LaneOp) : MemoriesWf (s.markStale o x) ↔ MemoriesWf s := by
  simp [State.markStale]

@[simp] theorem State.laneDone_wf (s : State) (o : Op) (l : Nat) (v : List Byte) (p : List Bool) :
    MemoriesWf (s.laneDone o l v p) ↔ MemoriesWf s := by
  unfold State.laneDone
  split <;> simp

@[simp] theorem State.localPerform_wf (s : State) (o : Op) (x : LaneOp) (hw : MemoriesWf s) : MemoriesWf (s.localPerform o x) := by
  unfold State.localPerform
  dsimp only
  repeat' split
  case isFalse.isTrue.isTrue => exact memoriesWf_foldl _ (fun s y h => by simp [h]) hw
  all_goals simp [hw]

@[simp] theorem State.leave_wf (s : State) (o : Op) (x : LaneOp) : MemoriesWf (s.leave o x) ↔ MemoriesWf s := by
  simp [State.leave]

@[simp] theorem State.sendPacket_wf (s : State) (p port op : Nat) (hdr : EtselHdr) (data : List Byte) (poi : List Bool) (ctx grid : Nat) :
    MemoriesWf (s.sendPacket p port op hdr data poi ctx grid) ↔ MemoriesWf s :=
  Iff.rfl

@[simp] theorem State.etselSend_wf (s : State) (o : Op) (x : LaneOp) (hw : MemoriesWf s) : MemoriesWf (s.etselSend o x) := by
  unfold State.etselSend
  split <;> simp [hw]

@[simp] theorem State.loseLane_wf (s : State) (o : Op) (x : LaneOp) : MemoriesWf (s.loseLane o x) ↔ MemoriesWf s := by
  simp [State.loseLane]

@[simp] theorem State.answer_wf (s : State) (o : Op) (x : LaneOp) (site : Nat) (v : List Byte) (p : List Bool) :
    MemoriesWf (s.answer o x site v p) ↔ MemoriesWf s := by
  simp [State.answer]

@[simp] theorem State.devPerform_wf (s : State) (o : Op) (x : LaneOp) (hw : MemoriesWf s) : MemoriesWf (s.devPerform o x) := by
  unfold State.devPerform
  dsimp only
  refine memoriesWf_cases (fun _ => ?_) fun _ => memoriesWf_cases (fun _ => ?_) fun _ =>
    memoriesWf_cases (fun _ => ?_) fun _ => memoriesWf_cases (fun _ => ?_) fun _ => hw
  · simp [hw]
  · refine memoriesWf_cases (fun _ => hw) fun _ => memoriesWf_cases (fun _ => ?_) fun _ => ?_
    · simp [hw]
    · split
      next he => simp [memoriesWf_of_fst he (by simp [hw])]
      next he => simp [memoriesWf_of_fst he (by simp [hw])]
  · split
    next he => simp [memoriesWf_of_fst he (by simp [hw])]
    next he => simp [memoriesWf_of_fst he (by simp [hw])]
  · refine memoriesWf_foldl _ (fun s y h => ?_) hw
    split
    next he => simp [memoriesWf_of_fst he (by simp [h])]
    next he => simp [memoriesWf_of_fst he (by simp [h])]

@[simp] theorem State.homeServe_wf (s : State) (p ch : Nat) : MemoriesWf (s.homeServe p ch) ↔ MemoriesWf s := by
  simp [State.homeServe]

@[simp] theorem State.homeAccess_wf (s : State) (o : Op) (x : LaneOp) (hw : MemoriesWf s) : MemoriesWf (s.homeAccess o x) := by
  refine memoriesWf_cases (fun _ => hw) fun _ => ?_
  have h1 : MemoriesWf (if x.l1 || o.kind = .wback || copyOwner 0 0 ≤ o.k then s else s.l1Flush o.core o.part x.ea.toNat o.size) := by
    simp [hw]
  generalize (if x.l1 || o.kind = .wback || copyOwner 0 0 ≤ o.k then s else s.l1Flush o.core o.part x.ea.toNat o.size) = s1 at h1
  dsimp only
  repeat' split
  case isFalse.isFalse.isFalse.isFalse.isFalse.isFalse.isTrue => exact memoriesWf_foldl _ (fun s y h => State.etselSend_wf s o y h) h1
  all_goals simp [h1]

@[simp] theorem State.onLane_wf (s : State) (id l : Nat) (f : Op → LaneOp → State) (hf : ∀ o x, MemoriesWf (f o x)) (hw : MemoriesWf s) :
    MemoriesWf (s.onLane id l f) := by
  unfold State.onLane
  repeat' split
  all_goals simp [hf, hw]

@[simp] theorem State.bredDrop_wf (s : State) (c n : Nat) : MemoriesWf (s.bredDrop c n) ↔ MemoriesWf s := by
  simp [State.bredDrop]

@[simp] theorem State.bredClear_wf (s : State) (p off n : Nat) : MemoriesWf (s.bredClear p off n) ↔ MemoriesWf s := by
  simp [State.bredClear]

@[simp] theorem State.bankAnswer_wf (s : State) (o : Op) (x : LaneOp) (v : List Byte) (p : List Bool) :
    MemoriesWf (s.bankAnswer o x v p) ↔ MemoriesWf s := by
  simp [State.bankAnswer]

@[simp] theorem State.bankAccess_wf (s : State) (o : Op) (x : LaneOp) (hw : MemoriesWf s) : MemoriesWf (s.bankAccess o x) := by
  unfold State.bankAccess
  refine memoriesWf_cases (fun _ => hw) fun _ => memoriesWf_cases (fun _ => by simp [hw]) fun _ =>
    memoriesWf_cases (fun _ => by simp [hw]) fun _ => memoriesWf_cases
        (fun _ => by simp [hw]) fun _ =>
    memoriesWf_foldl _ (fun s y h => ?_) hw
  have h1 (n : List Byte × List Bool) : MemoriesWf ((s.rdStore o.ctx .bank (bankAddr o.part y.pa) o.size).1.wrStore o.ctx .bank
    (wbytes (bankAddr o.part y.pa) n.1 n.2)) := by simp [h]
  dsimp only
  split <;> simp [h1]

@[simp] theorem bredApply_wf (p cell ty c fuel : Nat) (x : Word) (s : State) (hw : MemoriesWf s) :
    MemoriesWf (bredApply p cell ty c fuel x s) := by
  induction fuel generalizing ty c x s with
  | zero => exact hw
  | succ fuel ih =>
    unfold bredApply
    dsimp only
    split
    · simp [hw]
    · exact ih _ _ _ _ (by simp [hw])

@[simp] theorem State.bredArrive_wf (s : State) (o : Op) (x : LaneOp) (hw : MemoriesWf s) : MemoriesWf (s.bredArrive o x) := by
  simp [State.bredArrive, hw]

@[simp] theorem State.memResponse_wf (s : State) (o : Op) (x : LaneOp) (hw : MemoriesWf s) : MemoriesWf (s.memResponse o x) := by
  simp [State.memResponse, hw]

@[simp] theorem State.retire_wf (s : State) (o : Op) : MemoriesWf (s.retire o) ↔ MemoriesWf s := by
  unfold State.retire
  split <;> simp

/-! ### Functions of `Sys2Proof/Machine/Control` -/

@[simp] theorem voteBody_wf (env : Env) (s : State) (_ : MemoriesWf s) : (voteBody env s).Wf := by simp [voteBody]

@[simp] theorem braBody_wf (env : Env) (s : State) (hw : MemoriesWf s) : (braBody env s).Wf := by
  simp [braBody, hw]

@[simp] theorem brpBody_wf (env : Env) (s : State) (hw : MemoriesWf s) : (brpBody env s).Wf := by
  simp [brpBody, hw]

@[simp] theorem brxBody_wf (env : Env) (s : State) (hw : MemoriesWf s) : (brxBody env s).Wf := by
  unfold brxBody
  dsimp only
  split <;> simp [hw]

@[simp] theorem loopBody_wf (env : Env) (s : State) (hw : MemoriesWf s) : (loopBody env s).Wf := by
  simp [loopBody, hw]

@[simp] theorem State.askFills_wf (s : State) (env : Env) (los : List LaneOp) : MemoriesWf (s.askFills env los) ↔ MemoriesWf s := by
  simp [State.askFills]

/-- The states that a call or return of a lane carries have canonical memories. -/
def CallRes.Wf : CallRes → Prop
  | .done s _ => MemoriesWf s
  | .fault s _ _ => MemoriesWf s
  | .wait => True
  | .ask _ => True

@[simp] theorem CallRes.wf_done (s : State) (t : Word) : (CallRes.done s t).Wf ↔ MemoriesWf s := Iff.rfl
@[simp] theorem CallRes.wf_fault (s : State) (c : Nat) (a : Word) : (CallRes.fault s c a).Wf ↔ MemoriesWf s := Iff.rfl
@[simp] theorem CallRes.wf_wait : CallRes.wait.Wf := trivial
@[simp] theorem CallRes.wf_ask (lo : LaneOp) : (CallRes.ask lo).Wf := trivial
@[simp] theorem CallRes.wf_ite (c : Prop) [Decidable c] (o p : CallRes) : (if c then o else p).Wf ↔ if c then o.Wf else p.Wf := by
  split <;> rfl

@[simp] theorem pushCall_wf (env : Env) (s : State) (l : LaneId) (t : Word) (hw : MemoriesWf s) : (pushCall env s l t).Wf := by
  refine iteInduction (motive := CallRes.Wf) (fun _ => by simp [hw]) fun _ => iteInduction (motive := CallRes.Wf) (fun _ => hw) fun _ => ?_
  dsimp only
  split
  next he => exact memoriesWf_of_fst he (by simp [hw])
  next he =>
    have h1 := memoriesWf_of_fst he (by simp [hw])
    refine iteInduction (motive := CallRes.Wf) (fun _ => trivial) fun _ => ?_
    simp only [CallRes.wf_done, State.modGrp_wf]
    refine memoriesWf_cases (fun _ => ?_) fun _ => by simp [h1]
    split
    next he => simp [memoriesWf_of_fst he (by simp [h1])]
    next he => simp [memoriesWf_of_fst he (by simp [h1])]

@[simp] theorem popRet_wf (env : Env) (s : State) (l : LaneId) (hw : MemoriesWf s) : (popRet env s l).Wf := by
  unfold popRet
  dsimp only
  split
  · split <;> simp [hw]
  · refine iteInduction (motive := CallRes.Wf) (fun _ => by simp [hw]) fun _ => ?_
    split
    next he => exact memoriesWf_of_fst he (by simp [hw])
    next he =>
      have h1 := memoriesWf_of_fst he (by simp [hw])
      refine iteInduction (motive := CallRes.Wf) (fun _ => trivial) fun _ => iteInduction (motive := CallRes.Wf)
          (fun _ => trivial) fun _ => ?_
      simp only [CallRes.wf_ite, CallRes.wf_fault, CallRes.wf_done, State.consume_wf, State.modGrp_wf, ite_self]
      split
      · simp [h1]
      · split
        next he => exact memoriesWf_of_fst he (by simp [h1])
        next he => simp [memoriesWf_of_fst he (by simp [h1])]

@[simp] theorem callLanes_wf (one : State → LaneId → CallRes) (ls : List LaneId) (s : State) (ho : ∀ s l, MemoriesWf s → (one s l).Wf)
    (hw : MemoriesWf s) : MemoriesWf (callLanes one ls s).s := by
  refine List.foldlRecOn (motive := fun r : CallAcc => MemoriesWf r.s) _ _ hw fun r hr l _ => ?_
  have h1 := ho r.s l hr
  split
  next he => simpa [he] using h1
  next he => simpa [he] using h1
  all_goals exact hr

@[simp] theorem callOne_wf (env : Env) (s : State) (l : LaneId) (hw : MemoriesWf s) : (callOne env s l).Wf :=
  pushCall_wf _ _ _ _ hw

@[simp] theorem callxOne_wf (env : Env) (s : State) (l : LaneId) (hw : MemoriesWf s) : (callxOne env s l).Wf := by
  unfold callxOne
  dsimp only
  repeat' split
  all_goals simp [hw]

theorem callBody_wf (push : Bool) {one : Env → State → LaneId → CallRes} (ho : ∀ env s l, MemoriesWf s → (one env s l).Wf)
    (env : Env) (s : State) (hw : MemoriesWf s) : (callBody push one env s).Wf := by
  unfold callBody
  refine withWalks_wf _ _ _ _ (fun s h => ?_) hw
  have h1 : MemoriesWf (callLanes (one env) (laneList env.e) s).s := callLanes_wf _ _ _ (ho env) h
  dsimp only
  repeat' split
  all_goals simp [h, h1]

@[simp] theorem State.yieldE_wf (s : State) (env : Env) : MemoriesWf (s.yieldE env) ↔ MemoriesWf s := Iff.rfl

@[simp] theorem yieldBody_wf (env : Env) (s : State) (hw : MemoriesWf s) : (yieldBody env s).Wf := by
  simp [yieldBody, hw]

@[simp] theorem sleepBody_wf (env : Env) (s : State) (hw : MemoriesWf s) : (sleepBody env s).Wf := by
  simp [sleepBody, hw]

@[simp] theorem exitBody_wf (env : Env) (s : State) (hw : MemoriesWf s) : (exitBody env s).Wf := by
  simp [exitBody, hw]

@[simp] theorem nopBody_wf (env : Env) (s : State) (hw : MemoriesWf s) : (nopBody env s).Wf := by
  simp [nopBody, hw]

@[simp] theorem safeptBody_wf (env : Env) (s : State) (hw : MemoriesWf s) : (safeptBody env s).Wf := by
  simp [safeptBody, hw]

@[simp] theorem pinFlagBody_wf (on : Bool) (env : Env) (s : State) (hw : MemoriesWf s) : (pinFlagBody on env s).Wf := by
  simp [pinFlagBody, hw]

@[simp] theorem trapBody_wf (cause : Nat) (env : Env) (s : State) (hw : MemoriesWf s) : (trapBody cause env s).Wf := by
  simp [trapBody, hw]

@[simp] theorem movsrBody_wf (env : Env) (s : State) (_ : MemoriesWf s) : (movsrBody env s).Wf := by simp [movsrBody]

@[simp] theorem movrsBody_wf (env : Env) (s : State) (hw : MemoriesWf s) : (movrsBody env s).Wf := by
  simp [movrsBody, hw]

@[simp] theorem State.trapIssue_wf (s : State) (cause : Nat) (addr : Option Word) : MemoriesWf (s.trapIssue cause addr) ↔ MemoriesWf s := by
  unfold State.trapIssue
  dsimp only
  repeat' split
  all_goals simp

/-! ### Functions of `Sys2Proof/Machine/Float` -/

@[simp] theorem floatBody_wf (srcs : Env → Group → LaneId → List Reg) (pv : Fmt → Nat) (go : Fmt → Nat → List Nat → Nat × BitVec 6)
    (env : Env) (s : State) (hw : MemoriesWf s) : (floatBody srcs pv go env s).Wf := by
  simp [floatBody, hw]

@[simp] theorem addBody_wf (negB : Bool) (env : Env) (s : State) (hw : MemoriesWf s) : (addBody negB env s).Wf := by
  simp [addBody, hw]

@[simp] theorem mulBody_wf  (env : Env) (s : State) (hw : MemoriesWf s) : (mulBody  env s).Wf := by
  simp [mulBody, hw]

@[simp] theorem fmaBody_wf (negP negC : Bool) (env : Env) (s : State) (hw : MemoriesWf s) : (fmaBody negP negC env s).Wf := by
  simp [fmaBody, hw]

@[simp] theorem minNumBody_wf (isMax : Bool) (env : Env) (s : State) (hw : MemoriesWf s) : (minNumBody isMax env s).Wf := by
  simp [minNumBody, hw]

@[simp] theorem minNanBody_wf (isMax : Bool) (env : Env) (s : State) (hw : MemoriesWf s) : (minNanBody isMax env s).Wf := by
  simp [minNanBody, hw]

@[simp] theorem signBody_wf (neg : Bool) (env : Env) (s : State) (hw : MemoriesWf s) : (signBody neg env s).Wf := by
  simp [signBody, hw]

@[simp] theorem cpySgnBody_wf  (env : Env) (s : State) (hw : MemoriesWf s) : (cpySgnBody  env s).Wf := by
  simp [cpySgnBody, hw]

@[simp] theorem classBody_wf  (env : Env) (s : State) (hw : MemoriesWf s) : (classBody  env s).Wf := by
  simp [classBody, hw]

@[simp] theorem rndBody_wf  (env : Env) (s : State) (hw : MemoriesWf s) : (rndBody  env s).Wf := by
  simp [rndBody, hw]

@[simp] theorem scaleBody_wf  (env : Env) (s : State) (hw : MemoriesWf s) : (scaleBody  env s).Wf := by
  simp [scaleBody, hw]

@[simp] theorem dot2Body_wf (env : Env) (s : State) (hw : MemoriesWf s) : (dot2Body env s).Wf := by
  simp [dot2Body, hw]

@[simp] theorem haddBody_wf (env : Env) (s : State) (hw : MemoriesWf s) : (haddBody env s).Wf := by
  simp [haddBody, hw]

@[simp] theorem psetfBody_wf (env : Env) (s : State) (hw : MemoriesWf s) : (psetfBody env s).Wf := by
  simp [psetfBody, hw]

/-! ### Functions of `Sys2Proof/Machine/Convert` -/

@[simp] theorem convBody_wf (ws wd pv : Nat) (one : Nat → Nat → Nat × BitVec 6) (env : Env) (s : State) (hw : MemoriesWf s) :
    (convBody ws wd pv one env s).Wf := by
  simp [convBody, hw]

@[simp] theorem cvtBody_wf (env : Env) (s : State) (hw : MemoriesWf s) : (cvtBody env s).Wf := by
  simp [cvtBody, hw]

@[simp] theorem cvtiBody_wf (env : Env) (s : State) (hw : MemoriesWf s) : (cvtiBody env s).Wf := by
  simp [cvtiBody, hw]

@[simp] theorem cvtf8Body_wf (env : Env) (s : State) (hw : MemoriesWf s) : (cvtf8Body env s).Wf := by
  simp [cvtf8Body, hw]

@[simp] theorem packBody_wf (env : Env) (s : State) (hw : MemoriesWf s) : (packBody env s).Wf := by
  simp [packBody, hw]

@[simp] theorem unpackBody_wf (env : Env) (s : State) (hw : MemoriesWf s) : (unpackBody env s).Wf := by
  simp [unpackBody, hw]

/-! ### Functions of `Sys2Proof/Machine/Block` -/

@[simp] theorem mxscBody_wf (env : Env) (s : State) (hw : MemoriesWf s) : (mxscBody env s).Wf := by
  simp [mxscBody, hw]

@[simp] theorem mxqBody_wf (env : Env) (s : State) (hw : MemoriesWf s) : (mxqBody env s).Wf := by
  simp [mxqBody, hw]

@[simp] theorem mxdqBody_wf (env : Env) (s : State) (hw : MemoriesWf s) : (mxdqBody env s).Wf := by
  simp [mxdqBody, hw]

/-! ### Functions of `Sys2Proof/Machine/Matrix` -/

@[simp] theorem State.modAcc_wf (s : State) (c n : Nat) (f : Acc → Acc) : MemoriesWf (s.modAcc c n f) ↔ MemoriesWf s :=
  Iff.rfl

@[simp] theorem State.endMma_wf (s : State) (c k : Nat) (m : MmaEnt) : MemoriesWf (s.endMma c k m) ↔ MemoriesWf s := by
  unfold State.endMma
  split <;> simp

@[simp] theorem State.releaseAcc_wf (s : State) (c n : Nat) : MemoriesWf (s.releaseAcc c n) ↔ MemoriesWf s := by
  simp [State.releaseAcc]

@[simp] theorem State.releaseAll_wf (s : State) (k : Nat) : MemoriesWf (s.releaseAll k) ↔ MemoriesWf s := by
  refine memoriesWf_foldl_iff _ _ _ fun s i => ?_
  split <;> simp

@[simp] theorem State.lineByte_wf (s : State) (k : Nat) (pair : Option (Word × Word)) (reg n b : Nat) :
    MemoriesWf (s.lineByte k pair reg n b).1 ↔ MemoriesWf s := by
  unfold State.lineByte
  split <;> simp

@[simp] theorem State.lineRead_wf (s : State) (k : Nat) (pair : Option (Word × Word)) (reg n off len : Nat) :
    MemoriesWf (s.lineRead k pair reg n off len).1 ↔ MemoriesWf s := by
  simp [State.lineRead]

@[simp] theorem State.operand_wf (s : State) (k : Nat) (m : MmaEnt) (opB : Bool) (t : Nat) :
    MemoriesWf (s.operand k m opB t).1 ↔ MemoriesWf s := by
  simp [State.operand]

@[simp] theorem State.stopMmas_wf (s : State) (k : Nat) : MemoriesWf (s.stopMmas k) ↔ MemoriesWf s := by
  simp [State.stopMmas]

@[simp] theorem State.modMma_wf (s : State) (c id : Nat) (f : MmaEnt → MmaEnt) : MemoriesWf (s.modMma c id f) ↔ MemoriesWf s :=
  Iff.rfl

@[simp] theorem State.kStep_wf (s : State) (c : Nat) (hw : MemoriesWf s) : MemoriesWf (s.kStep c) := by
  unfold State.kStep
  dsimp only
  repeat' split
  all_goals simp [hw]

@[simp] theorem State.accTrap_wf (s : State) (k : Nat) : MemoriesWf (s.accTrap k) ↔ MemoriesWf s := by
  unfold State.accTrap
  dsimp only
  split <;> simp

@[simp] theorem State.reenter_wf (s : State) (c n : Nat) : MemoriesWf (s.reenter c n) ↔ MemoriesWf s :=
  Iff.rfl

@[simp] theorem State.resumeAccs_wf (s : State) (k : Nat) : MemoriesWf (s.resumeAccs k) ↔ MemoriesWf s := by
  refine memoriesWf_foldl_iff _ _ _ fun s i => ?_
  split <;> simp

@[simp] theorem aallocBody_wf (env : Env) (s : State) (hw : MemoriesWf s) : (aallocBody env s).Wf := by
  unfold aallocBody
  dsimp only
  repeat' split
  all_goals simp [hw]

@[simp] theorem withAcc_wf (env : Env) (s : State) (name : Nat) (body : Nat → Out) (hb : ∀ n, (body n).Wf) (hw : MemoriesWf s) :
    (withAcc env s name body).Wf := by
  unfold withAcc
  split <;> simp [hb, hw]

@[simp] theorem afreeBody_wf (env : Env) (s : State) (hw : MemoriesWf s) : (afreeBody env s).Wf := by
  simp [afreeBody, hw]

@[simp] theorem azeroBody_wf (env : Env) (s : State) (hw : MemoriesWf s) : (azeroBody env s).Wf := by
  simp [azeroBody, hw]

@[simp] theorem ardBody_wf (env : Env) (s : State) (hw : MemoriesWf s) : (ardBody env s).Wf := by
  simp [ardBody, hw]

@[simp] theorem awrBody_wf (env : Env) (s : State) (hw : MemoriesWf s) : (awrBody env s).Wf := by
  simp [awrBody, hw]

@[simp] theorem aksBody_wf (env : Env) (s : State) (hw : MemoriesWf s) : (aksBody env s).Wf := by
  simp [aksBody, hw]

@[simp] theorem State.mmaEnter_wf (s : State) (k : Nat) (m : MmaEnt) : MemoriesWf (s.mmaEnter k m) ↔ MemoriesWf s :=
  Iff.rfl

@[simp] theorem mmaBody_wf (env : Env) (s : State) (hw : MemoriesWf s) : (mmaBody env s).Wf := by
  refine withAcc_wf _ _ _ _ (fun n => ?_) hw
  refine iteInduction (motive := Out.Wf) (fun _ => by simp [hw]) fun _ => ?_
  split
  · exact hw
  · split <;> simp [hw]

/-! ### Functions of `Sys2Proof/Machine/Fetch` -/

@[simp] theorem State.icacheFill_wf (s : State) (c p ctx : Nat) (a : Word) (x : Xlate) :
    MemoriesWf (s.icacheFill c p ctx a x).1 ↔ MemoriesWf s := by
  unfold State.icacheFill
  extract_lets key pa lost r
  rw [State.modCore_wf]
  dsimp only [r]
  split
  · split
    · simp
    · split
      next he => simp [memoriesWf_iff_of_fst he]
      next he => simp [memoriesWf_iff_of_fst he]
  · simp

@[simp] theorem State.icacheWord_wf (s : State) (core p c : Nat) (a : Word) (x : Xlate) :
    MemoriesWf (s.icacheWord core p c a x).1 ↔ MemoriesWf s := by
  unfold State.icacheWord
  split <;> simp

@[simp] theorem State.fetchWord_wf (s : State) (k : Nat) (a : Word) : MemoriesWf (s.fetchWord k a).1 ↔ MemoriesWf s := by
  unfold State.fetchWord
  dsimp only
  split
  next he => simp [memoriesWf_iff_of_fst he]
  next he => simp [memoriesWf_iff_of_fst he]

@[simp] theorem State.fetchWords_wf (s : State) (k n : Nat) (a : Word) : MemoriesWf (s.fetchWords k n a).1 ↔ MemoriesWf s := by
  induction n generalizing s a with
  | zero => rfl
  | succ n ih =>
    have hx := State.fetchWord_wf s k a
    unfold State.fetchWords
    split
    next he => simpa only [he] using hx
    next s1 w he =>
      have h1 := ih s1 (a + 4)
      simp only [he] at hx
      split
      next he => exact (by simpa only [he] using h1 : _ ↔ _).trans hx
      next he => exact (by simpa only [he] using h1 : _ ↔ _).trans hx

@[simp] theorem State.fetch_wf (s : State) (k : Nat) (a : Word) : MemoriesWf (s.fetch k a).1 ↔ MemoriesWf s := by
  have hx := State.fetchWords_wf s k 1 a
  unfold State.fetch
  split
  next s1 w0 he =>
    have h1 := State.fetchWords_wf s1 k (lenWords (w0.extractLsb' 0 2) - 1) (a + 4)
    simp only [he] at hx
    split
    next he => exact (by simpa only [he] using h1 : _ ↔ _).trans hx
    next he => exact (by simpa only [he] using h1 : _ ↔ _).trans hx
  · exact hx

@[simp] theorem State.fetchInstr_wf (s : State) (k : Nat) : MemoriesWf (s.fetchInstr k).1 ↔ MemoriesWf s := by
  unfold State.fetchInstr
  split
  · rfl
  · split
    next he => simp [memoriesWf_iff_of_fst he]
    next he => split <;> simp [memoriesWf_iff_of_fst he]

@[simp] theorem State.fetchIssue_wf (s : State) (k : Nat) : MemoriesWf (s.fetchIssue k).1 ↔ MemoriesWf s := by
  unfold State.fetchIssue
  split
  · rfl
  · split
    · split
      next he => simp [memoriesWf_iff_of_fst he]
      · simp
    · rfl

@[simp] theorem State.fetchWait_wf (s : State) (k : Nat) (ns : List Nat) : MemoriesWf (s.fetchWait k ns) ↔ MemoriesWf s := by
  simp [State.fetchWait]

@[simp] theorem State.readRegs_wf (s : State) (maj : BitVec 7) (f : Fields) : MemoriesWf (s.readRegs maj f) ↔ MemoriesWf s := by
  unfold State.readRegs
  split <;> simp

@[simp] theorem State.passGroup_wf (s : State) (k now dt : Nat) : MemoriesWf (s.passGroup k now dt) ↔ MemoriesWf s := by
  simp [State.passGroup]

@[simp] theorem State.pass_wf (s : State) (dt : Nat) : MemoriesWf (s.pass dt) ↔ MemoriesWf s := by
  simp [State.pass]

@[simp] theorem State.watchdog_wf (s : State) (k : Nat) : MemoriesWf (s.watchdog k) ↔ MemoriesWf s := by
  simp [State.watchdog]

@[simp] theorem State.markOldest_wf (s : State) (c : Nat) : MemoriesWf (s.markOldest c) ↔ MemoriesWf s := by
  simp [State.markOldest]

@[simp] theorem State.choose_wf (s : State) (c : Nat) : MemoriesWf (s.choose c) ↔ MemoriesWf s := by
  unfold State.choose
  dsimp only
  repeat' split
  all_goals simp

@[simp] theorem State.suspendIf_wf (s : State) (k : Nat) : MemoriesWf (s.suspendIf k) ↔ MemoriesWf s := by
  simp [State.suspendIf]

@[simp] theorem State.holdNow_wf (s : State) (k : Nat) : MemoriesWf (s.holdNow k) ↔ MemoriesWf s := by
  unfold State.holdNow
  repeat' split
  all_goals simp

@[simp] theorem State.stopIf_wf (s : State) (k : Nat) : MemoriesWf (s.stopIf k) ↔ MemoriesWf s := by
  simp [State.stopIf]

@[simp] theorem State.boundary_wf (s : State) (k : Nat) : MemoriesWf (s.boundary k).1 ↔ MemoriesWf s := by
  simp [State.boundary]

/-- Every instruction that a held group may go on with keeps memories canonical. -/
def GoWf (go : BitVec 7 → Fields → Option (State → State)) : Prop :=
  ∀ maj f h s, go maj f = some h → MemoriesWf s → MemoriesWf (h s)

@[simp] theorem State.endSync_wf (s : State) (k : Nat) (go : BitVec 7 → Fields → Option (State → State)) (hg : GoWf go)
    (hw : MemoriesWf s) :
    MemoriesWf (s.endSync k go) := by
  refine memoriesWf_cases (fun _ => hw) fun _ => ?_
  dsimp only
  split
  next he =>
    have h1 := memoriesWf_of_fst he (by simp [hw])
    split
    next hgo =>
      have h2 := hg _ _ _ _ hgo h1
      split <;> simp [h2]
    · exact hw
  · exact hw

@[simp] theorem State.resume_wf (s : State) (k : Nat) (hs : List Hold) (go : BitVec 7 → Fields → Option (State → State)) (hg : GoWf go)
    (hw : MemoriesWf s) : MemoriesWf (s.resume k hs go) := by
  refine memoriesWf_cases (fun _ => hw) fun _ => ?_
  split
  next he => exact memoriesWf_of_fst he (by simp [hw])
  next he =>
    have h1 := memoriesWf_of_fst he (by simp [hw])
    dsimp only
    split
    next he =>
      have h2 := memoriesWf_of_fst he (by simp [h1])
      split
      next hgo =>
        have h3 := hg _ _ _ _ hgo h2
        split <;> simp [h3, hw]
      · exact hw
    · exact hw

/-! ### Functions of `Sys2Proof/Machine/Barrier` -/

@[simp] theorem State.modTok_wf (s : State) (k n : Nat) (f : Tok → Tok) : MemoriesWf (s.modTok k n f) ↔ MemoriesWf s :=
  Iff.rfl

@[simp] theorem State.tokDone_wf (s : State) (k n : Nat) : MemoriesWf (s.tokDone k n) ↔ MemoriesWf s := by
  simp [State.tokDone]

@[simp] theorem phaseBody_wf (env : Env) (s : State) (hw : MemoriesWf s) : (phaseBody env s).Wf := by
  simp [phaseBody, hw]

@[simp] theorem pwaitBody_wf (env : Env) (s : State) (hw : MemoriesWf s) : (pwaitBody env s).Wf := by
  simp [pwaitBody, hw]

@[simp] theorem State.setBar_wf (s : State) (tk n : Nat) (b : BarWord) : MemoriesWf (s.setBar tk n b) ↔ MemoriesWf s :=
  Iff.rfl

@[simp] theorem State.arriveAt_wf (s : State) (tk n : Nat) (gid : Option Nat) (err : Bool) :
    MemoriesWf (s.arriveAt tk n gid err) ↔ MemoriesWf s := by
  simp [State.arriveAt]

@[simp] theorem poisonS_wf (env : Env) (s : State) (r : Reg) (bad : State → Out) (go : Out) (hb : ∀ s, MemoriesWf s → (bad s).Wf)
    (hw : MemoriesWf s) (hgo : go.Wf) : (poisonS env s r bad go).Wf := by
  unfold poisonS
  split <;> simp [hw, hgo, hb]

@[simp] theorem binitBody_wf (env : Env) (s : State) (hw : MemoriesWf s) : (binitBody env s).Wf := by
  simp [binitBody, hw]

@[simp] theorem arriveBody_wf (env : Env) (s : State) (hw : MemoriesWf s) : (arriveBody env s).Wf := by
  simp [arriveBody, hw]

@[simp] theorem State.countArrival_wf (s : State) (k : Nat) (a : Arrive) (barv : Bool) :
    MemoriesWf (s.countArrival k a barv) ↔ MemoriesWf s := by
  simp [State.countArrival]

@[simp] theorem barvBody_wf (env : Env) (s : State) (hw : MemoriesWf s) : (barvBody env s).Wf := by
  unfold barvBody
  dsimp only
  repeat' split
  all_goals simp [hw]

@[simp] theorem baraBody_wf (env : Env) (s : State) (hw : MemoriesWf s) : (baraBody env s).Wf := by
  unfold baraBody
  split <;> simp [hw]

@[simp] theorem bwaitBody_wf (env : Env) (s : State) (hw : MemoriesWf s) : (bwaitBody env s).Wf := by
  simp [bwaitBody, hw]

@[simp] theorem btestBody_wf (env : Env) (s : State) (hw : MemoriesWf s) : (btestBody env s).Wf := by
  simp [btestBody, hw]

@[simp] theorem State.advanceBatch_wf (s : State) (k : Nat) : MemoriesWf (s.advanceBatch k) ↔ MemoriesWf s := by
  simp [State.advanceBatch]

@[simp] theorem csealBody_wf (env : Env) (s : State) (hw : MemoriesWf s) : (csealBody env s).Wf := by
  simp [csealBody, hw]

@[simp] theorem cwaitBody_wf (env : Env) (s : State) (hw : MemoriesWf s) : (cwaitBody env s).Wf := by
  simp [cwaitBody, hw]

@[simp] theorem cbindBody_wf (env : Env) (s : State) (hw : MemoriesWf s) : (cbindBody env s).Wf := by
  simp [cbindBody, hw]

@[simp] theorem cstatBody_wf (env : Env) (s : State) (hw : MemoriesWf s) : (cstatBody env s).Wf := by
  simp [cstatBody, hw]

theorem barrierGo_wf : GoWf barrierGo := by
  intro maj f h s hg hw
  unfold barrierGo at hg
  split_ifs at hg <;> cases hg
  · exact issueSync_wf barvBody_wf hw
  · exact issueSync_wf baraBody_wf hw
  · exact issueWith_wf bwaitBody_wf hw

@[simp] theorem State.releaseWaiters_wf (s : State) (hw : MemoriesWf s) : MemoriesWf s.releaseWaiters :=
  memoriesWf_foldl _ (fun s k h => memoriesWf_cases (fun _ => h) fun _ =>
    memoriesWf_cases (fun _ => State.endSync_wf s k _ barrierGo_wf h) fun _ => State.resume_wf s k _ _ barrierGo_wf h) hw

@[simp] theorem State.rewait_wf (s : State) (k : Nat) : MemoriesWf (s.rewait k) ↔ MemoriesWf s := by
  simp [State.rewait]

/-! ### Functions of `Sys2Proof/Machine/Copy` -/

@[simp] theorem State.addCopy_wf (s : State) (env : Env) (c : Copy) (ranges : List RangeEnt) :
    MemoriesWf (s.addCopy env c ranges) ↔ MemoriesWf s :=
  Iff.rfl

@[simp] theorem State.emptyCopy_wf (s : State) (env : Env) : MemoriesWf (s.emptyCopy env) ↔ MemoriesWf s :=
  Iff.rfl

@[simp] theorem State.copyIssue_wf (s : State) (env : Env) (c : Copy) (ranges : List RangeEnt) (hw : MemoriesWf s) :
    (s.copyIssue env c ranges).Wf := by
  simp [State.copyIssue, hw]

@[simp] theorem State.emptyIssue_wf (s : State) (env : Env) (hw : MemoriesWf s) : (s.emptyIssue env).Wf := by
  simp [State.emptyIssue, hw]

@[simp] theorem copyBody_wf (kind : CopyKind) (env : Env) (s : State) (hw : MemoriesWf s) : (copyBody kind env s).Wf := by
  unfold copyBody
  dsimp only
  split
  · simp [hw]
  · simp [hw]
  · refine iteInduction (motive := Out.Wf) (fun _ => hw) fun _ => iteInduction (motive := Out.Wf) (fun _ => hw) fun _ =>
      iteInduction (motive := Out.Wf) (fun _ => hw) fun _ => ?_
    have h1 : MemoriesWf (s.spadRd (s.grp env.k).team (((s.grp env.k).rdS env.f.a.toNat).val + BitVec.ofInt 64 env.f.disp).toNat 256).1
        := by
      simp [hw]
    generalize s.spadRd (s.grp env.k).team (((s.grp env.k).rdS env.f.a.toNat).val + BitVec.ofInt 64 env.f.disp).toNat 256 = r at h1
    refine iteInduction (motive := Out.Wf) (fun _ => by simp [h1]) fun _ => iteInduction (motive := Out.Wf) (fun _ => h1) fun _ =>
      iteInduction (motive := Out.Wf) (fun _ => h1) fun _ => ?_
    split
    · exact h1
    · simp [h1]

@[simp] theorem State.copyCut_wf (s : State) (c : Copy) (hw : MemoriesWf s) : MemoriesWf (s.copyCut c) := by
  simp [State.copyCut, hw]

@[simp] theorem State.copySend_wf (s : State) (c : Copy) (kind : OpKind) (n size : Nat) (x : LaneOp) :
    MemoriesWf (s.copySend c kind n size x) ↔ MemoriesWf s :=
  Iff.rfl

@[simp] theorem State.copyXlate_wf (s : State) (c : Copy) (a : Nat) (k : Acc1) : MemoriesWf (s.copyXlate c a k).1 ↔ MemoriesWf s := by
  unfold State.copyXlate
  split <;> simp

@[simp] theorem State.copyRead_wf (s : State) (c : Copy) (n sa size : Nat) : MemoriesWf (s.copyRead c n sa size).1 ↔ MemoriesWf s := by
  unfold State.copyRead
  split
  · split <;> simp
  · split
    · repeat' split
      all_goals simp
    · split
      · rfl
      · split
        · rfl
        · split
          next he => simp [memoriesWf_iff_of_fst he]
          next he => simp [memoriesWf_iff_of_fst he]
          next he =>
            dsimp only
            split
            · split
              · simp [memoriesWf_iff_of_fst he]
              · split
                next he' => simp [memoriesWf_iff_of_fst he', memoriesWf_iff_of_fst he]
                next he' => simp [memoriesWf_iff_of_fst he', memoriesWf_iff_of_fst he]
            · simp [memoriesWf_iff_of_fst he]

@[simp] theorem State.landBytes_wf (s : State) (tk : Nat) (bs : List WByte) (hw : MemoriesWf s) : MemoriesWf (s.landBytes tk bs) := by
  unfold State.landBytes
  dsimp only
  split
  · refine memoriesWf_cases (fun _ => hw) fun _ => memoriesWf_foldl _ (fun s ln h => State.saveLine_wf s _ _ h) hw
  · split <;> simp [hw]

@[simp] theorem State.copyPut_wf (s : State) (c : Copy) (n da : Nat) (v : List Byte) (ps : List Bool) (hw : MemoriesWf s) :
    MemoriesWf (s.copyPut c n da v ps).1 := by
  unfold State.copyPut
  extract_lets bs
  split
  · simp [hw]
  · split
    · repeat' split
      all_goals simp [hw]
    · split
      · repeat' split
        all_goals simp [hw]
      · split
        next he => simp [memoriesWf_iff_of_fst he, hw]
        next he => simp [memoriesWf_iff_of_fst he, hw]
        next s1 _ he =>
          have h1 : MemoriesWf s1 := memoriesWf_of_fst he (by simp [hw])
          dsimp only
          split
          · split
            · simp [h1]
            · split
              · simp [h1]
              · split
                next he => simp [memoriesWf_of_fst he (by simp [h1])]
                next he => simp [memoriesWf_of_fst he (by simp [h1])]
          · simp [h1]

@[simp] theorem State.copyWrite_wf (s : State) (c : Copy) (n : Nat) (hw : MemoriesWf s) : MemoriesWf (s.copyWrite c n) := by
  unfold State.copyWrite
  extract_lets w e put
  have hput (s : State) (v : List Byte) (ps : List Bool) (h : MemoriesWf s) : MemoriesWf (put s v ps).1 := by
    dsimp only [put]
    split
    next he => exact memoriesWf_of_fst he (by simp [h])
    next he => simp [memoriesWf_of_fst he (by simp [h])]
  refine memoriesWf_cases (fun _ => hw) fun _ => memoriesWf_cases (fun _ => hput _ _ _ hw) fun _ => ?_
  split
  next he => exact memoriesWf_of_fst he (by simp [hw])
  next he => exact hput _ _ _ (memoriesWf_of_fst he (by simp [hw]))
  next he =>
    have h1 := memoriesWf_of_fst he (by simp [hw])
    split
    next he => exact memoriesWf_of_fst he (hput _ _ _ h1)
    · exact hput _ _ _ (by simp [h1])

@[simp] theorem State.landOver_wf (s : State) (x : Landing) (hw : MemoriesWf s) : MemoriesWf (s.landOver x) := by
  simp [State.landOver, hw]

/-- The states that the landing of a packet carries have canonical memories. -/
def Landed.Wf : Landed → Prop
  | .waits => True
  | .takes => True
  | .ends _ s => MemoriesWf s

@[simp] theorem Landed.wf_ends (c : Nat) (s : State) : (Landed.ends c s).Wf ↔ MemoriesWf s := Iff.rfl

theorem State.land_wf (s : State) (x : Landing) (hw : MemoriesWf s) : (s.land x).Wf := by
  have h1 (s : State) (c : Prop) [Decidable c] (e : Bool) (h : MemoriesWf s) :
      MemoriesWf (if c then (s.arriveAt x.team x.rbar none e).updateBars x.team else s) := by
    split <;> simp [h]
  refine iteInduction (motive := Landed.Wf) (fun _ => trivial) fun _ => iteInduction (motive := Landed.Wf) (fun _ => hw) fun _ =>
    iteInduction (motive := Landed.Wf) (fun _ => ?_) fun _ => iteInduction (motive := Landed.Wf) (fun _ => ?_) fun _ =>
    iteInduction (motive := Landed.Wf) (fun _ => trivial) fun _ => ?_
  · exact State.landOver_wf _ x (h1 s _ true hw)
  · split <;> trivial
  · have h2 := h1 ((s.landBytes x.team x.bytes).landOver x)
    refine memoriesWf_cases (fun _ => ?_) fun _ => ?_
    · exact h2 _ false (by simp [hw])
    · exact h2 _ false (by simp [hw])

@[simp] theorem State.landTake_wf (s : State) (x : Landing) : MemoriesWf (s.landTake x) ↔ MemoriesWf s := Iff.rfl

@[simp] theorem State.modRecv_wf (s : State) (id team : Nat) (f : Recv → Recv) : MemoriesWf (s.modRecv id team f) ↔ MemoriesWf s :=
  Iff.rfl

@[simp] theorem State.deliverTo_wf (s : State) (c : Copy) (r : Recv) (hw : MemoriesWf s) : MemoriesWf (s.deliverTo c r) := by
  have hl := State.land_wf s (landingOf c.id (c.recvKey r) c.bytes c.rben c.rbar) hw
  refine memoriesWf_cases (fun _ => hw) fun _ => ?_
  split
  · exact hw
  · repeat' split
    all_goals simp [hw]
  next code s' he =>
    rw [he] at hl
    have h1 : MemoriesWf s' := hl
    repeat' split
    all_goals simp [hw, h1]

@[simp] theorem State.followOn_wf (s : State) (c : Copy) (hw : MemoriesWf s) : MemoriesWf (s.followOn c) := by
  unfold State.followOn
  dsimp only
  repeat' split
  all_goals simp [hw]

@[simp] theorem State.imageArrivals_wf (s : State) (tk gid : Nat) (hw : MemoriesWf s) : MemoriesWf (s.imageArrivals tk gid) := by
  refine memoriesWf_cases (fun _ => hw) fun _ => memoriesWf_foldl _ (fun s j h => ?_) hw
  split
  · exact h
  · split
    · exact h
    · simp [h]

@[simp] theorem State.copyDone_wf (s : State) (c : Copy) (hw : MemoriesWf s) : MemoriesWf (s.copyDone c) := by
  have h1 : MemoriesWf (({ s with copies := s.copies.filter fun x => x.id != c.id } : State).clearEntry c.team c.id false) := by simp [hw]
  unfold State.copyDone
  generalize ({ s with copies := s.copies.filter fun x => x.id != c.id } : State).clearEntry c.team c.id false = s1 at h1
  have h2 : MemoriesWf
      (((s1.tiles.foldl (fun s e => s.modTile e.1 fun t =>
          { t with range := t.range.filter fun r => r.copy != some c.id }) s1).trimRemap).modMember c.team c.gid fun g =>
        { g.lowerSb c.sbs with batch := g.batch.modSlot c.batch.toNat fun x => { x with out := x.out - 1 } }) := by
    simp [h1]
  dsimp only
  split
  · exact h2
  · split <;> simp [h2]

@[simp] theorem xsendBody_wf (env : Env) (s : State) (hw : MemoriesWf s) : (xsendBody env s).Wf := by
  simp [xsendBody, hw]

/-! ### Functions of `Sys2Proof/Machine/Launch` -/

@[simp] theorem State.setCtxSt_wf (s : State) (c : Nat) (st : CtxState) : MemoriesWf (s.setCtxSt c st) ↔ MemoriesWf s :=
  Iff.rfl

@[simp] theorem State.askStop_wf (s : State) (tk : Nat) (r : StopReason) (force : Bool) :
    MemoriesWf (s.askStop tk r force) ↔ MemoriesWf s := by
  simp [State.askStop]

@[simp] theorem State.preempt_wf (s : State) (c : Nat) : MemoriesWf (s.preempt c) ↔ MemoriesWf s := by
  simp [State.preempt]

@[simp] theorem State.quiesceImage_wf (s : State) (tk : Nat) (hw : MemoriesWf s) : MemoriesWf (s.quiesceImage tk) := by
  simp [State.quiesceImage, hw]

@[simp] theorem State.quiesceImages_wf (s : State) (c : Nat) (hw : MemoriesWf s) : MemoriesWf (s.quiesceImages c) :=
  memoriesWf_foldl _ (fun s tk h => State.quiesceImage_wf s tk h) hw

@[simp] theorem State.preemptDone_wf (s : State) (c : Nat) (hw : MemoriesWf s) : MemoriesWf (s.preemptDone c) := by
  simp [State.preemptDone, hw]

@[simp] theorem State.enterFault_wf (s : State) (c : Nat) (hw : MemoriesWf s) : MemoriesWf (s.enterFault c) := by
  simp [State.enterFault, hw]

@[simp] theorem State.ctxSettle_wf (s : State) (c : Nat) (hw : MemoriesWf s) : MemoriesWf (s.ctxSettle c) := by
  simp [State.ctxSettle, hw]

@[simp] theorem State.wakeTeam_wf (s : State) (tk : Nat) : MemoriesWf (s.wakeTeam tk) ↔ MemoriesWf s := by
  simp [State.wakeTeam]

@[simp] theorem State.startTeam_wf (s : State) (c kn node : Nat) (r : Run) (set : Nat × List Nat × Nat) (teamid : Nat) (s2 depth : Nat)
    (hw : MemoriesWf s) : MemoriesWf (s.startTeam c kn node r set teamid s2 depth) := by
  simp [State.startTeam, hw]

@[simp] theorem State.modRun_wf (s : State) (c : Nat) (grid : BitVec 32) (f : Run → Run) : MemoriesWf (s.modRun c grid f) ↔ MemoriesWf s :=
  Iff.rfl

@[simp] theorem State.unlock_wf (s : State) (id : Nat) : MemoriesWf (s.unlock id) ↔ MemoriesWf s := by
  unfold State.unlock
  split <;> simp

@[simp] theorem State.killGroup_wf (s : State) (k : Nat) : MemoriesWf (s.killGroup k) ↔ MemoriesWf s := by
  simp [State.killGroup]

/-! ### Functions of `Sys2Proof/Machine/Queue` -/

@[simp] theorem State.modQueue_wf (s : State) (c kn node : Nat) (f : Queue → Queue) : MemoriesWf (s.modQueue c kn node f) ↔ MemoriesWf s :=
  Iff.rfl

@[simp] theorem State.freeRec_wf (s : State) (c kn node key : Nat) : MemoriesWf (s.freeRec c kn node key) ↔ MemoriesWf s := by
  unfold State.freeRec
  split <;> simp

@[simp] theorem State.makeElig_wf (s : State) (c kn node key : Nat) (hw : MemoriesWf s) : MemoriesWf (s.makeElig c kn node key) := by
  simp [State.makeElig, hw]

@[simp] theorem withNode_wf (env : Env) (s : State) (n : Nat) (body : Nat → Nat → Kern → Out) (hb : ∀ c kn k, (body c kn k).Wf)
    (hw : MemoriesWf s) : (withNode env s n body).Wf := by
  unfold withNode
  dsimp only
  split <;> simp [hw, hb]

@[simp] theorem allocOne_wf (c kn node team depth pri join : Nat) (s : State) :
    MemoriesWf (allocOne c kn node team depth pri join s).1 ↔ MemoriesWf s := by
  unfold allocOne
  dsimp only
  repeat' split
  all_goals simp

@[simp] theorem allocLanes_wf (one : Nat → State → State × Except Nat Word) (ls : List (LaneId × Nat))
    (r : State × List (LaneId × Except Nat Word) × Option Nat) (ho : ∀ j s, MemoriesWf (one j s).1 ↔ MemoriesWf s) :
    MemoriesWf (allocLanes one ls r).1 ↔ MemoriesWf r.1 := by
  induction ls generalizing r with
  | nil => rfl
  | cons e ls ih =>
    obtain ⟨s, out, _ | c⟩ := r
    · have h1 := ho e.2 s
      unfold allocLanes
      dsimp only
      split
      next he => rw [ih]; simpa only [he] using h1
      next he => rw [ih]; simpa only [he] using h1
    · unfold allocLanes
      rw [ih]

@[simp] theorem rallocBody_wf (env : Env) (s : State) (hw : MemoriesWf s) : (rallocBody env s).Wf := by
  unfold rallocBody
  refine withNode_wf _ _ _ _ (fun c kn k => ?_) hw
  dsimp only
  refine poisonGate_wf _ _ _ _ hw ?_
  refine iteInduction (motive := Out.Wf) (fun _ => ?_) fun _ => iteInduction (motive := Out.Wf) (fun _ => trivial) fun _ => ?_
  · split <;> simp [hw]
  · split <;> simp [hw]

@[simp] theorem queueBody_wf (q : QKind) (env : Env) (s : State) (hw : MemoriesWf s) : (queueBody q env s).Wf := by
  simp [queueBody, hw]

@[simp] theorem State.applyLanes_wf (s : State) (o : Op) (kind : QKind) (hw : MemoriesWf s) : MemoriesWf (s.applyLanes o kind) := by
  refine memoriesWf_foldl _ (fun s x h => ?_) (memoriesWf_foldl _ (fun s x h => ?_) hw)
  · split
    · split <;> simp [h]
    · exact h
  · dsimp only
    split <;> simp [h]

@[simp] theorem applyBody_wf (o : Op) (kind : QKind) (env : Env) (s : State) (hw : MemoriesWf s) : (applyBody o kind env s).Wf := by
  simp [applyBody, hw]

@[simp] theorem State.unwait_wf (s : State) (k : Nat) : MemoriesWf (s.unwait k) ↔ MemoriesWf s := by
  simp [State.unwait]

@[simp] theorem State.popRec_wf (s : State) (k c kn node : Nat) (dst : Nat) (e : Nat × Rec) (hw : MemoriesWf s) :
    MemoriesWf (s.popRec k c kn node dst e) := by
  unfold State.popRec
  apply State.ctxSettle_wf
  simp [hw]

@[simp] theorem rpopBody_wf (env : Env) (s : State) (hw : MemoriesWf s) : (rpopBody env s).Wf := by
  unfold rpopBody
  refine withNode_wf _ _ _ _ (fun c kn k => ?_) hw
  dsimp only
  split
  · simp [hw]
  · split
    · exact hw
    · split
      · exact hw
      · have h1 (f : Team → Team) (c : Prop) [Decidable c] :
          MemoriesWf (if c then s.modTeam (s.grp env.k).team f else (s.modTeam (s.grp env.k).team f).unwait env.k) := by
          split <;> simp [hw]
        split
        · rw [Out.wf_start, State.modGrp_wf]; exact State.popRec_wf _ _ _ _ _ _ _ (h1 _ _)
        · split
          · rw [Out.wf_start, State.modGrp_wf]; exact h1 _ _
          · rw [Out.wf_wait, State.modQueue_wf]; exact h1 _ _

@[simp] theorem qstatBody_wf (env : Env) (s : State) (hw : MemoriesWf s) : (qstatBody env s).Wf := by
  simp [qstatBody, hw]

@[simp] theorem spawnBody_wf (env : Env) (s : State) (hw : MemoriesWf s) : (spawnBody env s).Wf := by
  unfold spawnBody
  dsimp only
  split <;> simp [hw]

/-! ### Functions of `Sys2Proof/Machine/Roith` -/

@[simp] theorem State.cmdEnd_wf (s : State) (op code value : Nat) : MemoriesWf (s.cmdEnd op code value) ↔ MemoriesWf s := by
  unfold State.cmdEnd
  split <;> simp

@[simp] theorem roithForce_wf (op : Nat) (force : Option Bool) (args : List Nat) (s : State) (f : State → State × Nat × Nat)
    (hf : MemoriesWf s → MemoriesWf (f s).1) : KeptBy s (roithForce op force args s f) := by
  refine ⟨_, rfl, fun hw => ?_⟩
  have h1 : MemoriesWf (if (f s).2.1 = 0 then (f s).1 else s) := memoriesWf_cases (fun _ => hf hw) fun _ => hw
  dsimp only
  repeat' rw [memoriesWf_ite]
  simp only [State.cmdEnd_wf, hw, h1, ite_self]

@[simp] theorem roith_wf (op : Nat) (args : List Nat) (s : State) (f : State → State × Nat × Nat) (hf : MemoriesWf s → MemoriesWf (f s).1) :
    KeptBy s (roith op args s f) := roithForce_wf op none args s f hf

@[simp] theorem cmdOk_wf (s : State) : MemoriesWf (cmdOk s).1 ↔ MemoriesWf s := Iff.rfl

@[simp] theorem cmdNo_wf (s : State) (code : Nat) : MemoriesWf (cmdNo s code).1 ↔ MemoriesWf s := Iff.rfl

/-! ### Functions of `Sys2Proof/Machine/Kernel` -/

@[simp] theorem State.storeEntry_wf (s : State) (a e : Nat) (hw : MemoriesWf s) : MemoriesWf (s.storeEntry a e) := by
  obtain ⟨h1, h2, h3⟩ := hw
  exact (State.noteLines_wf _ _).2 ⟨memWf_memStore _ _ _ h1, h2, h3⟩

theorem State.takeFrames_wf {s : State} {p n : Nat} {r : State × List Nat} (he : s.takeFrames p n = some r) (hw : MemoriesWf s) :
    MemoriesWf r.1 := by
  unfold State.takeFrames at he
  dsimp only at he
  split_ifs at he
  cases he
  exact memoriesWf_foldl _ (fun s f h => State.zeroFrame_wf s f h) hw

theorem mapFrom_wf (p va leaf : Nat) (ls : List (Nat × Nat × Nat)) (t : Nat) (s : State) (hw : MemoriesWf s) :
    OptWf (mapFrom p va leaf ls t s) := by
  induction ls generalizing t s with
  | nil => trivial
  | cons l ls ih =>
    cases ls with
    | nil => exact State.storeEntry_wf _ _ _ hw
    | cons l' ls =>
      unfold mapFrom
      refine iteInduction (motive := OptWf) (fun _ => ?_) fun _ => ?_
      · exact iteInduction (motive := OptWf) (fun _ => trivial) fun _ => ih _ _ hw
      · split
        next hf => exact ih _ _ (State.storeEntry_wf _ _ _ (State.takeFrames_wf hf hw))
        · trivial

theorem State.mapPages_wf (s : State) (p va attrs : Nat) (fs : List Nat) (hw : MemoriesWf s) : OptWf (s.mapPages p va attrs fs) := by
  induction fs generalizing s va with
  | nil => exact hw
  | cons f fs ih =>
    have hm := mapFrom_wf p va (attrs + f * 65536) levels (s.part p).root s hw
    unfold State.mapPages
    split
    next he => exact ih _ _ (hm.of_eq he)
    · trivial

@[simp] theorem State.tlbDrop_wf (s : State) (p a n : Nat) : MemoriesWf (s.tlbDrop p a n) ↔ MemoriesWf s :=
  Iff.rfl

@[simp] theorem State.unmapPages_wf (s : State) (p va n : Nat) (hw : MemoriesWf s) : MemoriesWf (s.unmapPages p va n) := by
  unfold State.unmapPages
  rw [State.tlbDrop_wf]
  refine memoriesWf_foldl _ (fun s i h => ?_) hw
  dsimp only
  split <;> simp [h]

@[simp] theorem State.fillFrames_wf (s : State) (fs : List Nat) (bs : List Byte) (hw : MemoriesWf s) : MemoriesWf (s.fillFrames fs bs) := by
  induction fs generalizing s bs with
  | nil => exact hw
  | cons f fs ih =>
    obtain ⟨h1, h2, h3⟩ := hw
    exact ih _ _ ((State.noteLines_wf _ _).2 ⟨memWf_memWrite _ _ h1, h2, h3⟩)

theorem State.mapKernel_wf (s : State) (c kn : Nat) (im : Image1) (sizes : List (Nat × Nat)) (pl : Plan) (hw : MemoriesWf s) :
    OptWf (s.mapKernel c kn im sizes pl) := by
  unfold State.mapKernel
  dsimp only
  split
  · trivial
  next hf =>
    have h1 := State.takeFrames_wf hf hw
    split
    · trivial
    next ht =>
      have h2 := (State.mapPages_wf _ _ _ _ _ (by simp [h1])).of_eq ht
      split
      · trivial
      next hd => simp [(State.mapPages_wf _ _ _ _ _ h2).of_eq hd]

@[simp] theorem State.dropKernel_wf (s : State) (c kn : Nat) (hw : MemoriesWf s) : MemoriesWf (s.dropKernel c kn) := by
  have h1 (p a b x y : Nat) := State.unmapPages_wf _ p a b (State.unmapPages_wf s p x y hw)
  simp [State.dropKernel, h1]

@[simp] theorem State.kernIdle_wf (s : State) (c kn : Nat) (hw : MemoriesWf s) : MemoriesWf (s.kernIdle c kn) := by
  unfold State.kernIdle
  repeat' split
  all_goals simp [hw]

/-! ### Functions of `Sys2Proof/Machine/Lines` -/

@[simp] theorem State.readVa_wf (s : State) (site p c fuel : Nat) (va : Word) (n : Nat) :
    MemoriesWf (s.readVa site p c fuel va n).1 ↔ MemoriesWf s := by
  induction fuel generalizing s va n with
  | zero => rfl
  | succ fuel ih =>
    unfold State.readVa
    have hx := State.globalCheck_wf s site p va .load
    split
    · rfl
    · extract_lets m
      split
      next he => simpa only [he] using hx
      next s1 x he =>
        simp only [he] at hx
        rw [← hx]
        extract_lets y r
        have hr : MemoriesWf r.1 ↔ MemoriesWf s1 := by simp [r, y]
        clear_value r
        obtain ⟨s2, _ | v⟩ := r
        · exact hr
        · rw [← hr]
          have hi := ih s2 (va + BitVec.ofNat 64 m) (n - m)
          dsimp only
          split
          next hn => simpa only [hn] using hi
          next hn => simpa only [hn] using hi

@[simp] theorem State.lineEnd_wf (s : State) (vf n code value : Nat) : MemoriesWf (s.lineEnd vf n code value) ↔ MemoriesWf s :=
  Iff.rfl

@[simp] theorem State.handleLine_wf (s : State) (vf n ty : Nat) (go : Nat → Nat → Line → State → State × Nat × Nat)
    (hg : ∀ c kn l, MemoriesWf (go c kn l s).1) (hw : MemoriesWf s) : MemoriesWf (s.handleLine vf n ty go) := by
  unfold State.handleLine
  dsimp only
  repeat' split
  all_goals simp [hw, hg]

@[simp] theorem State.doneStore_wf (s : State) (c : Nat) (r : Run) : MemoriesWf (s.doneStore c r) ↔ MemoriesWf s := by
  unfold State.doneStore
  extract_lets p bs put x
  have hx : MemoriesWf x.1 ↔ MemoriesWf s := memoriesWf_foldl_fst_iff _ _ _ fun y d => by
    have hg := State.globalCheck_wf y.1 r.home p d.2.1 .store
    split
    next he => simpa only [he] using hg
    next he _ => simpa only [he] using hg
  clear_value x
  obtain ⟨s1, _ | ls⟩ := x
  · simpa [put] using hx
  · simpa [put] using hx

/-! ### Functions of `Sys2Proof/Machine/Context` -/

@[simp] theorem State.resumeGroup_wf (s : State) (k : Nat) : MemoriesWf (s.resumeGroup k) ↔ MemoriesWf s := by
  simp [State.resumeGroup]

@[simp] theorem State.faultCtx_wf (s : State) (c : Nat) (hw : MemoriesWf s) : MemoriesWf (s.faultCtx c).1 := by
  unfold State.faultCtx
  split <;> simp [hw]

@[simp] theorem State.mustFault_wf (s : State) (c : Nat) (hw : MemoriesWf s) : MemoriesWf (s.mustFault c) := by
  unfold State.mustFault
  split <;> simp [hw]

@[simp] theorem State.sendFault_wf (s : State) (c : Nat) (hw : MemoriesWf s) : MemoriesWf (s.sendFault c) := by
  simp [State.sendFault, hw]

@[simp] theorem State.requestPreempt_wf (s : State) (c : Nat) (r : StopReason) (after : CtxState) (hw : MemoriesWf s) :
    OptWf (s.requestPreempt c r after) := by
  unfold State.requestPreempt
  dsimp only
  repeat' split
  all_goals simp [hw]

@[simp] theorem State.leaveFault_wf (s : State) (c : Nat) (hw : MemoriesWf s) : MemoriesWf (s.leaveFault c) := by
  unfold State.leaveFault
  refine State.ctxSettle_wf _ _ (memoriesWf_foldl _ (fun s e h => memoriesWf_foldl _ (fun s k h => ?_) h) hw)
  split <;> simp [h]

@[simp] theorem State.killKernels_wf (s : State) (c : Nat) (hw : MemoriesWf s) : MemoriesWf (s.killKernels c) :=
  memoriesWf_foldl _ (fun s e h => by simp [h]) hw

@[simp] theorem State.killCtx_wf (s : State) (c : Nat) (hw : MemoriesWf s) : MemoriesWf (s.killCtx c) := by
  unfold State.killCtx
  refine memoriesWf_foldl _ (fun s e h => ?_) (by simp [hw])
  repeat' split
  all_goals simp [h]

@[simp] theorem State.zeroRange_wf (s : State) (p n va : Nat) (hw : MemoriesWf s) : MemoriesWf (s.zeroRange p n va) := by
  induction n generalizing s va with
  | zero => exact hw
  | succ n ih =>
    refine ih _ _ ?_
    repeat' split
    all_goals simp [hw]

@[simp] theorem State.scrubCtx_wf (s : State) (c : Nat) (hw : MemoriesWf s) : MemoriesWf (s.scrubCtx c) := by
  refine memoriesWf_foldl _ (fun s e h => by simp [h]) (memoriesWf_foldl _ (fun s f h => State.zeroFrame_wf s f h) ?_)
  simp [hw]

@[simp] theorem State.dropCtx_wf (s : State) (c : Nat) : MemoriesWf (s.dropCtx c) ↔ MemoriesWf s := by
  simp [State.dropCtx]

@[simp] theorem State.takeEvents_wf (s : State) (c : Nat) : MemoriesWf (s.takeEvents c) ↔ MemoriesWf s :=
  Iff.rfl

@[simp] theorem State.readEvents_wf (s : State) (c : Nat) : MemoriesWf (s.readEvents c) ↔ MemoriesWf s :=
  Iff.rfl

theorem memWf_cellsMoved {m : Memory} (fs gs : List Nat) (mv : Nat → Nat) (u : Nat) (h : Memory.wf m = true) :
    Memory.wf (cellsMoved memDefault fs gs mv u m) = true :=
  smWf_foldl _ _ _ _ (smWf_filter _ h)

/-! ### Functions of `Sys2Proof/Machine/Frames` -/

@[simp] theorem State.moveFrames_wf (s : State) (p : Nat) (ps : List (Nat × Nat)) (ch : Nat → Nat) (hw : MemoriesWf s) :
    MemoriesWf (s.moveFrames p ps ch) := by
  unfold State.moveFrames
  extract_lets fs gs mv am hbm edits mem s1 s2
  have hm : Memory.wf mem = true := memWf_foldl_memStore _ _ _ _ hw.1
  obtain ⟨-, h2, h3⟩ := (State.noteLines_wf s (edits.map fun e => e.1 / 64)).2 hw
  rw [State.noteLines_wf, State.modPart_wf]
  exact ⟨memWf_cellsMoved _ _ _ _ hm, h2, h3⟩

@[simp] theorem State.setTable_wf (s : State) (p : Nat) (tb : List RouterEntry) : MemoriesWf (s.setTable p tb) ↔ MemoriesWf s := by
  simp [State.setTable]

@[simp] theorem State.tlbClear_wf (s : State) (p : Nat) : MemoriesWf (s.tlbClear p) ↔ MemoriesWf s := Iff.rfl

@[simp] theorem State.migrate_wf (s : State) (p : Nat) (fs : List Nat) (hw : MemoriesWf s) : MemoriesWf (s.migrate p fs) := by
  obtain ⟨h1, h2, h3⟩ := hw
  unfold State.migrate
  rw [State.modPart_wf, State.tlbClear_wf]
  exact ⟨memWf_foldl_memStore _ _ _ _ h1, h2, h3⟩

@[simp] theorem State.migrated_wf (s : State) (p : Nat) (hw : MemoriesWf s) : MemoriesWf (s.migrated p) := by
  obtain ⟨h1, h2, h3⟩ := State.moveFrames_wf s p (s.part p).cframes (siteMoved (s.part p).cchans) hw
  exact ⟨memWf_foldl_memStore _ _ _ _ h1, h2, h3⟩

@[simp] theorem State.endCompact_wf (s : State) (p : Nat) (hw : MemoriesWf s) : MemoriesWf (s.endCompact p) := by
  simp [State.endCompact, hw]

@[simp] theorem State.exportEnd_wf (s : State) (p op code value : Nat) : MemoriesWf (s.exportEnd p op code value) ↔ MemoriesWf s := by
  unfold State.exportEnd
  repeat' split
  all_goals simp

@[simp] theorem State.unquiesce_wf (s : State) (p : Nat) : MemoriesWf (s.unquiesce p) ↔ MemoriesWf s :=
  Iff.rfl

@[simp] theorem State.scrubSite_wf (s : State) (t : Nat) (prot : Bool) (hw : MemoriesWf s) : MemoriesWf (s.scrubSite t prot) := by
  simp [State.scrubSite, hw]

@[simp] theorem State.scrubFrame_wf (s : State) (f : Nat) (hw : MemoriesWf s) : MemoriesWf (s.scrubFrame f) := by
  simp [State.scrubFrame, hw]

@[simp] theorem State.scrubBank_wf (s : State) (p : Nat) (hw : MemoriesWf s) : MemoriesWf (s.scrubBank p) := by
  simp [State.scrubBank, hw]

/-! ### Functions of `Sys2Proof/Machine/Castle` -/

@[simp] theorem State.setRemap_wf (s : State) (tk loc site : Nat) (base : Word) :
    MemoriesWf (s.setRemap tk loc site base) ↔ MemoriesWf s := by
  simp [State.setRemap]

@[simp] theorem State.dropAccs_wf (s : State) (k : Nat) : MemoriesWf (s.dropAccs k) ↔ MemoriesWf s := by
  refine memoriesWf_foldl_iff _ _ _ fun s i => ?_
  split <;> simp

@[simp] theorem State.readWindow_wf (s : State) (t : Team) : MemoriesWf (s.readWindow t).1 ↔ MemoriesWf s := by
  simp [State.readWindow]

@[simp] theorem State.takeImage_wf (s : State) (tk : Nat) (hw : MemoriesWf s) : MemoriesWf (s.takeImage tk) := by
  unfold State.takeImage
  extract_lets t r ks site
  split
  next s1 w wp he =>
  have h1 : MemoriesWf s1 := memoriesWf_of_fst he (by simp [hw])
  extract_lets x im s2 s3 s4 s5 s6 s7 s8 s9
  have h3 : MemoriesWf s3 := by simp [s3, s2, h1]
  have h6 : MemoriesWf s6 := memoriesWf_foldl _ (fun s e h => State.imageArrivals_wf s _ _ h) (by simp [s5, s4, h3])
  refine memoriesWf_cases (fun _ => by simp [h6]) fun _ => ?_
  have h9 : MemoriesWf s9 := by simp [s9, s8, s7, h6]
  exact State.ctxSettle_wf _ _ (by simp [h9])

@[simp] theorem State.putAcc_wf (s : State) (ks : List (Nat × Group)) (a : SavedAcc) : MemoriesWf (s.putAcc ks a) ↔ MemoriesWf s := by
  unfold State.putAcc
  repeat' split
  all_goals simp

@[simp] theorem State.putMma_wf (s : State) (ks : List (Nat × Group)) (a : SavedAcc) (m : MmaEnt) :
    MemoriesWf (s.putMma ks a m) ↔ MemoriesWf s := by
  unfold State.putMma
  repeat' split
  all_goals simp

@[simp] theorem State.writeWindow_wf (s : State) (tk : Nat) (im : Image) (hw : MemoriesWf s) : MemoriesWf (s.writeWindow tk im) := by
  obtain ⟨h1, h2, h3⟩ := zeroBytes_wf s .spad ((s.team tk).spadAddr 0) (s.team tk).wsize hw
  exact ⟨h1, memWf_foldl_memSet _ _ _ h2, h3⟩

@[simp] theorem State.placeTeam_wf (s : State) (tk : Nat) (im : Image) (ks : List (Nat × Group)) (hw : MemoriesWf s) :
    MemoriesWf (s.placeTeam tk im ks) := by
  unfold State.placeTeam
  extract_lets t s1 s2 s3 s4 s5 s6 s7 s8 s9 s10 s11 s12
  have h2 : MemoriesWf s2 := State.writeWindow_wf _ _ _ hw
  have h9 : MemoriesWf s9 := by simp [s9, s8, s7, s6, s5, s4, s3, h2]
  have h10 : MemoriesWf s10 := memoriesWf_foldl _ (fun s c h => by split <;> simp [h]) h9
  have h11 : MemoriesWf s11 := by simp [s11, h10]
  refine State.ctxSettle_wf _ _ ?_
  dsimp only [s12]
  split <;> simp [h11]

@[simp] theorem State.stopSites_wf (s : State) (m : RingMove) : MemoriesWf (s.stopSites m) ↔ MemoriesWf s := by
  simp [State.stopSites]

@[simp] theorem State.dropImages_wf (s : State) (m : RingMove) (part : Nat) (hw : MemoriesWf s) : MemoriesWf (s.dropImages m part) :=
  memoriesWf_foldl _ (fun s e h => by simp [h]) hw

@[simp] theorem State.endMoves_wf (s : State) (p : Nat) (hw : MemoriesWf s) : MemoriesWf (s.endMoves p) := by
  simp [State.endMoves, hw]

/-! ### Functions of `Sys2Proof/Machine/CrossLane` -/

@[simp] theorem shflBody_wf (env : Env) (s : State) (hw : MemoriesWf s) : (shflBody env s).Wf := by
  simp [shflBody, hw]

@[simp] theorem shflxBody_wf (env : Env) (s : State) (hw : MemoriesWf s) : (shflxBody env s).Wf := by
  simp [shflxBody, hw]

@[simp] theorem bcastBody_wf (env : Env) (s : State) (hw : MemoriesWf s) : (bcastBody env s).Wf := by
  simp [bcastBody, hw]

@[simp] theorem rredBody_wf (env : Env) (s : State) (hw : MemoriesWf s) : (rredBody env s).Wf := by
  simp [rredBody, hw]

@[simp] theorem rscanBody_wf (env : Env) (s : State) (hw : MemoriesWf s) : (rscanBody env s).Wf := by
  simp [rscanBody, hw]

@[simp] theorem permBody_wf (env : Env) (s : State) (hw : MemoriesWf s) : (permBody env s).Wf := by
  simp [permBody, hw]

/-! ### Functions of `Sys2Proof/Machine/Link` -/

@[simp] theorem State.loseFlit_wf (s : State) (x : Flit) (hw : MemoriesWf s) : MemoriesWf (s.loseFlit x) := by
  unfold State.loseFlit
  split <;> simp [hw]

@[simp] theorem State.dropTagged_wf (s : State) (x : Flit) (hw : MemoriesWf s) : MemoriesWf (s.dropTagged x) := by
  simp [State.dropTagged, hw]

@[simp] theorem State.dropRouted_wf (s : State) (x : Flit) (hw : MemoriesWf s) : MemoriesWf (s.dropRouted x) := by
  simp [State.dropRouted, hw]

@[simp] theorem State.failPort_wf (s : State) (n : Nat) (hw : MemoriesWf s) : MemoriesWf (s.failPort n) := by
  refine memoriesWf_foldl _ (fun s c h => ?_) (memoriesWf_foldl _ (fun s o h => memoriesWf_foldl _ (fun s x h => ?_) h) hw)
  · split <;> simp [h]
  · split <;> simp [h]

@[simp] theorem State.isolate_wf (s : State) (n : Nat) (hw : MemoriesWf s) : MemoriesWf (s.isolate n) := by
  simp [State.isolate, hw]

@[simp] theorem State.freeze_wf (s : State) (n : Nat) : MemoriesWf (s.freeze n) ↔ MemoriesWf s := Iff.rfl

@[simp] theorem State.modServed_wf (s : State) (n : Nat) (f : Port → Port) : MemoriesWf (s.modServed n f) ↔ MemoriesWf s :=
  Iff.rfl

@[simp] theorem State.linksDown_wf (s : State) (t : Nat) : MemoriesWf (s.linksDown t) ↔ MemoriesWf s := by
  simp [State.linksDown]

@[simp] theorem State.portsDown_wf (s : State) (t : Nat) : MemoriesWf (s.portsDown t) ↔ MemoriesWf s := by
  simp [State.portsDown]

@[simp] theorem State.siteLost_wf (s : State) (p t : Nat) (hw : MemoriesWf s) : MemoriesWf (s.siteLost p t) := by
  unfold State.siteLost
  refine memoriesWf_foldl _ (fun s c h => by simp [h]) ?_
  simp [hw]

@[simp] theorem State.mapOut_wf (s : State) (site : Nat) (routerOk : Bool) : MemoriesWf (s.mapOut site routerOk) ↔ MemoriesWf s := by
  unfold State.mapOut
  dsimp only
  repeat' split
  all_goals simp

@[simp] theorem State.setRoutes_wf (s : State) (p : Nat) (rs : List Route) : MemoriesWf (s.setRoutes p rs) ↔ MemoriesWf s := by
  simp [State.setRoutes]

/-! ### Functions of `Sys2Proof/Machine/Etsel` -/

@[simp] theorem State.answered_wf (s : State) (port : Nat) (o : Op) (x : LaneOp) (go : State → State) (hg : MemoriesWf (go s))
    (hw : MemoriesWf s) :
    MemoriesWf (s.answered port o x go) := by
  unfold State.answered
  split <;> simp [hg, hw]

@[simp] theorem State.endMessage_wf (s : State) (c : Copy) (hw : MemoriesWf s) : MemoriesWf (s.endMessage c) := by
  simp [State.endMessage, hw]

@[simp] theorem State.askFailed_wf (s : State) (h : EtselHdr) (hw : MemoriesWf s) : MemoriesWf (s.askFailed h) := by
  unfold State.askFailed
  split <;> simp [hw]

@[simp] theorem State.credit_wf (s : State) (n vl : Nat) : MemoriesWf (s.credit n vl) ↔ MemoriesWf s := by
  unfold State.credit
  dsimp only
  split <;> simp

@[simp] theorem State.buffer_wf (s : State) (op : Nat) (p : Etsel) : MemoriesWf (s.buffer op p) ↔ MemoriesWf s := by
  simp [State.buffer]

@[simp] theorem State.tagFailed_wf (s : State) (p : Etsel) (hw : MemoriesWf s) : MemoriesWf (s.tagFailed p) := by
  unfold State.tagFailed
  dsimp only
  repeat' split
  all_goals simp [hw]

@[simp] theorem State.receive_wf (s : State) (op : Nat) (p : Etsel) (go : State → Option State) (hg : OptWf (go s)) (hw : MemoriesWf s) :
    MemoriesWf (s.receive op p go) := by
  unfold State.receive
  extract_lets h
  repeat' split
  all_goals simp [hw, hg]

@[simp] theorem State.reply_wf (s : State) (p : Etsel) (op : Nat) (hdr : EtselHdr) (data : List Byte) (poi : List Bool) :
    MemoriesWf (s.reply p op hdr data poi) ↔ MemoriesWf s :=
  Iff.rfl

@[simp] theorem State.refuse_wf (s : State) (p : Etsel) : MemoriesWf (s.refuse p) ↔ MemoriesWf s := Iff.rfl

@[simp] theorem State.peerAddr_wf (s : State) (p : Etsel) (a : Acc1) : MemoriesWf (s.peerAddr p a).1 ↔ MemoriesWf s := by
  unfold State.peerAddr
  split
  · rfl
  · split
    next he => simp [memoriesWf_iff_of_fst he]
    next he => simp [memoriesWf_iff_of_fst he]

@[simp] theorem State.replyFrom_wf (s : State) (pa : Nat) (p : Etsel) (op : Nat) (hdr : EtselHdr) (data : List Byte) (poi : List Bool) :
    MemoriesWf (s.replyFrom pa p op hdr data poi) ↔ MemoriesWf s := by
  simp [State.replyFrom]

theorem State.peerRead_wf (s : State) (p : Etsel) (hw : MemoriesWf s) : OptWf (s.peerRead p) := by
  refine iteInduction (motive := OptWf) (fun _ => trivial) fun _ => ?_
  split
  next he => simp [memoriesWf_of_fst he (by simp [hw])]
  next he =>
    have h1 := memoriesWf_of_fst he (by simp [hw])
    refine iteInduction (motive := OptWf) (fun _ => by simp [h1]) fun _ => ?_
    split
    next he => simp [memoriesWf_of_fst he (by simp [h1])]
    next he => simp [memoriesWf_of_fst he (by simp [h1])]

@[simp] theorem State.peerStore_wf (s : State) (p : Etsel) (x : Xlate) (bs : List Byte) (poi : List Bool) (hw : MemoriesWf s) :
    MemoriesWf (s.peerStore p x bs poi).1 := by
  unfold State.peerStore
  dsimp only
  split
  next he => simp [memoriesWf_of_fst he (by simp [hw])]
  next he => exact memoriesWf_of_fst he (by simp [hw])

theorem State.peerWrite_wf (s : State) (p : Etsel) (hw : MemoriesWf s) : OptWf (s.peerWrite p) := by
  refine iteInduction (motive := OptWf) (fun _ => trivial) fun _ => ?_
  split
  next he => simp [memoriesWf_of_fst he (by simp [hw])]
  next he =>
    have h1 := memoriesWf_of_fst he (by simp [hw])
    refine iteInduction (motive := OptWf) (fun _ => by simp [h1]) fun _ => iteInduction (motive := OptWf) (fun _ => trivial) fun _ => ?_
    split
    next he => simp [memoriesWf_of_fst he (by simp [h1])]
    next he => simp [memoriesWf_of_fst he (by simp [h1])]

theorem State.peerAtomic_wf (s : State) (p : Etsel) (hw : MemoriesWf s) : OptWf (s.peerAtomic p) := by
  refine iteInduction (motive := OptWf) (fun _ => trivial) fun _ => iteInduction (motive := OptWf) (fun _ => by simp [hw]) fun _ => ?_
  split
  next he => simp [memoriesWf_of_fst he (by simp [hw])]
  next he =>
    have h1 := memoriesWf_of_fst he (by simp [hw])
    refine iteInduction (motive := OptWf) (fun _ => by simp [h1]) fun _ => iteInduction (motive := OptWf) (fun _ => trivial) fun _ =>
      iteInduction (motive := OptWf) (fun _ => by simp [h1]) fun _ => ?_
    split
    next he => simp [memoriesWf_of_fst he (by simp [h1])]
    next he => simp [memoriesWf_of_fst he (by simp [h1])]

@[simp] theorem State.peerMessage_wf (s : State) (n : Nat) (ps : List Inbound) (z : Inbound) (hw : MemoriesWf s) :
    MemoriesWf (s.peerMessage n ps z) := by
  unfold State.peerMessage
  extract_lets x t gone close
  have hc (s : State) (code : Nat) : MemoriesWf (close s code) ↔ MemoriesWf s := by simp [close, gone]
  have hl := State.land_wf s x hw
  refine memoriesWf_cases (fun _ => hw) fun _ => memoriesWf_cases
      (fun _ => by simp [gone, hw]) fun _ =>
    memoriesWf_cases (fun _ => (hc _ _).2 hw) fun _ => ?_
  split
  · exact hw
  · repeat' split
    all_goals simp [hw]
  next he =>
    rw [he] at hl
    simpa [hc] using hl

theorem State.again_wf (s : State) (x : Inbound) (hw : MemoriesWf s) : OptWf (s.again x) :=
  iteInduction (motive := OptWf) (fun _ => State.peerRead_wf s x.pkt hw) fun _ =>
    iteInduction (motive := OptWf) (fun _ => State.peerWrite_wf s x.pkt hw) fun _ => State.peerAtomic_wf s x.pkt hw

@[simp] theorem State.drainLane_wf (s : State) (n vl : Nat) (hw : MemoriesWf s) : MemoriesWf (s.drainLane n vl) := by
  unfold State.drainLane
  split
  · exact hw
  next x _ =>
    have hx := State.again_wf s x hw
    refine memoriesWf_cases (fun _ => ?_) fun _ => ?_
    · repeat' split
      all_goals simp [hw]
    · split
      next he => simp [hx.of_eq he]
      · exact hw

@[simp] theorem State.drainPorts_wf (s : State) (hw : MemoriesWf s) : MemoriesWf s.drainPorts :=
  memoriesWf_foldl _ (fun s e h => memoriesWf_cases (fun _ => h) fun _ =>
    memoriesWf_foldl _ (fun s vl h => by simp [h]) h) hw

/-! ### Functions of `Sys2Proof/Machine/Integer` -/

@[simp] theorem scalarInt_wf (op : IOp) (uns : Bool) (env : Env) (s : State) (hw : MemoriesWf s) : (scalarInt op uns env s).Wf := by
  simp [scalarInt, hw]

@[simp] theorem laneInt_wf (op : IOp) (uns : Bool) (env : Env) (s : State) (hw : MemoriesWf s) : (laneInt op uns env s).Wf := by
  simp [laneInt, hw]

@[simp] theorem intForm_wf (op : IOp) (env : Env) (s : State) (hw : MemoriesWf s) : (intForm op env s).Wf := by
  simp [intForm, hw]

@[simp] theorem fieldForm_wf (op : Word → IOp) (env : Env) (s : State) (hw : MemoriesWf s) : (fieldForm op env s).Wf := by
  simp [fieldForm, hw]

@[simp] theorem selScalar_wf (env : Env) (s : State) (hw : MemoriesWf s) : (selScalar env s).Wf := by
  simp [selScalar, hw]

@[simp] theorem selLane_wf (env : Env) (s : State) (hw : MemoriesWf s) : (selLane env s).Wf := by
  simp [selLane, hw]

@[simp] theorem dotBody_wf (env : Env) (s : State) (hw : MemoriesWf s) : (dotBody env s).Wf := by
  simp [dotBody, hw]

@[simp] theorem psetiBody_wf (env : Env) (s : State) (hw : MemoriesWf s) : (psetiBody env s).Wf := by
  simp [psetiBody, hw]

@[simp] theorem plopBody_wf (env : Env) (s : State) (hw : MemoriesWf s) : (plopBody env s).Wf := by
  simp [plopBody, hw]

@[simp] theorem pmovBody_wf (env : Env) (s : State) (hw : MemoriesWf s) : (pmovBody env s).Wf := by
  simp [pmovBody, hw]

@[simp] theorem pmovMaskBody_wf (env : Env) (s : State) (hw : MemoriesWf s) : (pmovMaskBody env s).Wf := by
  simp [pmovMaskBody, hw]

/-! ### Functions of `Sys2Proof/Machine/Partition` -/

@[simp] theorem State.tdispForce_wf (s : State) (p : Nat) (hw : MemoriesWf s) : MemoriesWf (s.tdispForce p) :=
  hw

@[simp] theorem State.giveFrames_wf (s : State) (p : Nat) (fs : List Nat) : MemoriesWf (s.giveFrames p fs) ↔ MemoriesWf s := by
  simp [State.giveFrames]

@[simp] theorem State.installPart_wf (s : State) (p : Nat) (st : PartState) (sites chans : List Nat) (desc : PartDesc)
    (table : List RouterEntry) (root port : Nat) : MemoriesWf (s.installPart p st sites chans desc table root port) ↔ MemoriesWf s := by
  simp [State.installPart]

@[simp] theorem State.carveFail_wf (s : State) (p op code : Nat) : MemoriesWf (s.carveFail p op code) ↔ MemoriesWf s := by
  simp [State.carveFail]

@[simp] theorem State.deferLine_wf (s : State) (p op : Nat) : MemoriesWf (s.deferLine p op) ↔ MemoriesWf s :=
  Iff.rfl

@[simp] theorem State.growDone_wf (s : State) (part : Nat) : MemoriesWf (s.growDone part) ↔ MemoriesWf s := by
  unfold State.growDone
  split <;> simp

@[simp] theorem State.growAll_wf (s : State) : MemoriesWf (s.growAll) ↔ MemoriesWf s := by
  simp [State.growAll]

@[simp] theorem State.unpinChans_wf (s : State) (p : Nat) (chans : List Nat) : MemoriesWf (s.unpinChans p chans) ↔ MemoriesWf s := by
  simp [State.unpinChans]

theorem State.requota_wf (s : State) (p n : Nat) (hw : MemoriesWf s) : OptWf (s.requota p n) := by
  refine iteInduction (motive := OptWf) (fun _ => trivial) fun _ => ?_
  rw [optWf_some, State.giveFrames_wf, State.modPart_wf]
  exact memoriesWf_foldl _ (fun s f h => State.scrubFrame_wf s f h) hw

@[simp] theorem State.quiesceCtx_wf (s : State) (c : Nat) (hw : MemoriesWf s) : MemoriesWf (s.quiesceCtx c) := by
  unfold State.quiesceCtx
  extract_lets s1 s2 stop s3
  have h2 : MemoriesWf s2 := State.writeIndices_wf _ _ hw
  have h3 : MemoriesWf (s2.quiesceImages c) := State.quiesceImages_wf _ _ h2
  clear_value s2
  split
  · exact h3
  · exact h3
  · split <;> simp [h2]
  · simp [h2, h3]
  · simp [h2, h3]
  · simp [s3, h2]
  · exact h2

@[simp] theorem State.quiescePart_wf (s : State) (p : Nat) (hw : MemoriesWf s) : MemoriesWf (s.quiescePart p) :=
  memoriesWf_foldl _ (fun s c h => State.quiesceCtx_wf s c h) hw

@[simp] theorem State.sendLines_wf (s : State) (p : Nat) (order lns : List Nat) : MemoriesWf (s.sendLines p order lns) ↔ MemoriesWf s := by
  simp [State.sendLines]

@[simp] theorem State.resendLines_wf (s : State) (p : Nat) (order : List Nat) : MemoriesWf (s.resendLines p order) ↔ MemoriesWf s := by
  simp [State.resendLines]

@[simp] theorem State.sendSaved_wf (s : State) (p : Nat) : MemoriesWf (s.sendSaved p) ↔ MemoriesWf s := by
  simp [State.sendSaved]

@[simp] theorem State.writePage_wf (s : State) (p : Nat) (fs : List Nat) (r : PageRecord) (hw : MemoriesWf s) :
    MemoriesWf (s.writePage p fs r) := by
  refine memoriesWf_foldl _ (fun s e h => memoriesWf_cases (fun _ => ?_) fun _ => h) hw
  obtain ⟨h1, h2, h3⟩ := h
  exact ⟨memWf_memWrite _ _ h1, h2, h3⟩

@[simp] theorem State.importFail_wf (s : State) (p : Nat) : MemoriesWf (s.importFail p) ↔ MemoriesWf s := by
  simp [State.importFail]

@[simp] theorem State.install_wf (s : State) (p : Nat) (x : SavedPart) (hw : MemoriesWf s) : MemoriesWf (s.install p x) := by
  obtain ⟨h1, h2, h3⟩ := hw
  exact ⟨memWf_foldl_memStore _ _ _ _ h1, h2, h3⟩

@[simp] theorem State.importDone_wf (s : State) (p : Nat) (x : SavedPart) (hw : MemoriesWf s) : MemoriesWf (s.importDone p x) := by
  have h1 : OptWf (if s.installOk p x then (s.install p x).requota p x.desc.hbmq else none) :=
    iteInduction (motive := OptWf) (fun _ => State.requota_wf _ _ _ (by simp [hw])) fun _ => trivial
  unfold State.importDone
  split
  · simp [hw]
  next he => simp [h1.of_eq he]

@[simp] theorem State.scrubFail_wf (s : State) (p t : Nat) (hw : MemoriesWf s) : MemoriesWf (s.scrubFail p t) := by
  unfold State.scrubFail
  repeat' split
  all_goals simp [hw]

@[simp] theorem State.scrubUnits_wf (s : State) (p : Nat) (sites frames failed : List Nat) (hw : MemoriesWf s) :
    MemoriesWf (s.scrubUnits p sites frames failed) :=
  memoriesWf_foldl _ (fun s t h => State.scrubFail_wf s p t h) (memoriesWf_foldl _ (fun s f h => State.scrubFrame_wf s f h)
    (memoriesWf_foldl _ (fun s t h => State.scrubSite_wf s t _ h) hw))

/-! ### Functions of `Sys2Proof/Machine/Manage` -/

@[simp] theorem State.copyPage_wf (s : State) (a b n : Nat) (hw : MemoriesWf s) : MemoriesWf (s.copyPage a b n) := by
  refine memoriesWf_cases (fun _ => hw) fun _ => ?_
  obtain ⟨h1, h2, h3⟩ := (State.noteLines_wf _ ((List.range (n / 64)).map fun i => b / 64 + i)).2 (zeroBytes_wf s .hbm b n hw)
  exact ⟨memWf_foldl_memSet _ _ _ h1, h2, h3⟩

@[simp] theorem State.shapeReport_wf (s : State) (p : Option Nat) : MemoriesWf (s.shapeReport p).1 ↔ MemoriesWf s := by
  unfold State.shapeReport
  repeat' split
  all_goals simp

@[simp] theorem State.measure_wf (s : State) (block : List Byte) : MemoriesWf (s.measure block) ↔ MemoriesWf s :=
  Iff.rfl

/-! ### Functions of `Sys2Proof/Machine/Power` -/

@[simp] theorem State.everyTile_wf (s : State) (f : Nat → Tile → Tile) : MemoriesWf (s.everyTile f) ↔ MemoriesWf s := by
  simp [State.everyTile]

@[simp] theorem State.account_wf (s : State) (m : EnergySample) : MemoriesWf (s.account m) ↔ MemoriesWf s := by
  simp [State.account]

/-! ### Functions of `Sys2Proof/Machine/Resume` -/

theorem syncGo_wf : GoWf syncGo := by
  intro maj f h s hg hw
  unfold syncGo at hg
  split_ifs at hg <;> cases hg
  · exact issueSync_wf voteBody_wf hw
  · exact issueSync_wf bcastBody_wf hw
  · exact issueSync_wf rscanBody_wf hw
  · exact issueSync_wf rredBody_wf hw
  · exact issueSync_wf mmaBody_wf hw
  · exact issueSync_wf barvBody_wf hw
  · exact issueSync_wf baraBody_wf hw

theorem copyGo_wf : GoWf copyGo := by
  intro maj f h s hg hw
  unfold copyGo at hg
  split_ifs at hg <;> cases hg
  · exact issueWith_wf (copyBody_wf .plain) hw
  · exact issueWith_wf (copyBody_wf .multicast) hw
  · exact issueWith_wf (copyBody_wf .follow) hw
  · exact issueWith_wf xsendBody_wf hw

/-! ### Functions of `Sys2Proof/Machine/Special` -/

@[simp] theorem specialBody_wf (fn : Fmt → Nat → Nat × BitVec 6) (env : Env) (s : State) (hw : MemoriesWf s) :
    (specialBody fn env s).Wf := by
  simp [specialBody, hw]

/-! ### Functions of `Sys2Proof/Machine/Supervisor` -/

@[simp] theorem State.endTeam_wf (s : State) (tk : Nat) : MemoriesWf (s.endTeam tk) ↔ MemoriesWf s := by
  simp [State.endTeam]

@[simp] theorem State.drainNow_wf (s : State) (k : Nat) : MemoriesWf (s.drainNow k) ↔ MemoriesWf s := by
  simp [State.drainNow]

@[simp] theorem State.slotCmd_wf (s : State) (k : Nat) (ok : GState → Bool) (go : State → State) (hg : MemoriesWf (go s) ↔ MemoriesWf s) :
    MemoriesWf (s.slotCmd k ok go) ↔ MemoriesWf s := by
  unfold State.slotCmd
  split <;> simp [hg]

@[simp] theorem State.slotResume_wf (s : State) (k : Nat) : MemoriesWf (s.slotResume k) ↔ MemoriesWf s := by
  simp [State.slotResume]

@[simp] theorem State.slotKill_wf (s : State) (k : Nat) : MemoriesWf (s.slotKill k) ↔ MemoriesWf s := by
  simp [State.slotKill]

@[simp] theorem State.slotHold_wf (s : State) (k : Nat) : MemoriesWf (s.slotHold k) ↔ MemoriesWf s := by
  simp [State.slotHold]

@[simp] theorem State.slotWithdraw_wf (s : State) (k : Nat) : MemoriesWf (s.slotWithdraw k) ↔ MemoriesWf s := by
  simp [State.slotWithdraw]

/-! ### Functions of `Sys2Proof/Machine/Windows` -/

@[simp] theorem State.svcLoad_wf (s : State) (core a : Nat) (hw : MemoriesWf s) : MemoriesWf (s.svcLoad core a).1 := by
  unfold State.svcLoad
  split
  · exact hw
  · split
    next he => exact memoriesWf_of_fst he (by simp [hw])
    next he =>
      have h1 := memoriesWf_of_fst he (by simp [hw])
      dsimp only
      split
      · split
        next he => exact memoriesWf_of_fst he (by simp [h1])
        next he => exact memoriesWf_of_fst he (by simp [h1])
      · split <;> simp [h1]

@[simp] theorem State.svcStore_wf (s : State) (core a : Nat) (data : Word) (hw : MemoriesWf s) : MemoriesWf (s.svcStore core a data) := by
  unfold State.svcStore
  split
  · simp [hw]
  · split
    next he => simp [memoriesWf_of_fst he (by simp [hw])]
    next he =>
      have h1 := memoriesWf_of_fst he (by simp [hw])
      dsimp only
      repeat' split
      all_goals simp [h1]

@[simp] theorem State.svcFetch_wf (s : State) (core a : Nat) : MemoriesWf (s.svcFetch core a) ↔ MemoriesWf s := by
  unfold State.svcFetch
  split
  · simp
  · split
    next he => simp [memoriesWf_iff_of_fst he]
    next he => simp [memoriesWf_iff_of_fst he]

@[simp] theorem State.svcLoads_wf (s : State) (core a n : Nat) (hw : MemoriesWf s) : MemoriesWf (s.svcLoads core a n).1 := by
  refine List.foldlRecOn (motive := fun r : State × Option (List Byte) => MemoriesWf r.1) _ _ hw fun r hr i _ => ?_
  split
  · exact hr
  · simp_all

@[simp] theorem State.svcRead_wf (s : State) (core addr n : Nat) (hw : MemoriesWf s) : MemoriesWf (s.svcRead core addr n) := by
  unfold State.svcRead
  split
  · simp [hw]
  · split
    · split
      next he => simp [memoriesWf_of_fst he (by simp [hw])]
      next he => simp [memoriesWf_of_fst he (by simp [hw])]
    · dsimp only
      split <;> simp [hw]

@[simp] theorem State.pluginRead_wf (s : State) (c core addr n : Nat) (hw : MemoriesWf s) : MemoriesWf (s.pluginRead c core addr n) := by
  unfold State.pluginRead
  split
  · split
    next he => simp [memoriesWf_of_fst he (by simp [hw])]
    next he => simp [memoriesWf_of_fst he (by simp [hw])]
  · simp [hw]

@[simp] theorem State.mgxWrite_wf (s : State) (addr : Nat) (data : Word) : MemoriesWf (s.mgxWrite addr data) ↔ MemoriesWf s := by
  simp [State.mgxWrite]

@[simp] theorem State.barRead_wf (s : State) (vf off n : Nat) : MemoriesWf (s.barRead vf off n) ↔ MemoriesWf s := by
  simp [State.barRead]

/-! ### Events and commands of `Sys2Proof/Machine/Perform` -/

theorem execHomeAccess_kept (id lane : Nat) (s : State) : KeptBy s (execHomeAccess id lane s) :=
  ⟨_, rfl, fun hw => by simp [hw]⟩

theorem execPageWalk_kept (site part : Nat) (va : Word) (s : State) : KeptBy s (execPageWalk site part va s) := by
  refine ⟨_, rfl, fun hw => ?_⟩
  dsimp only
  split
  · exact hw
  · refine memoriesWf_cases (fun _ => hw) fun _ => ?_
    split
    · split <;> simp [hw]
    · split
      next he => simp [memoriesWf_of_fst he (by simp [hw])]
      next he =>
        have h1 := memoriesWf_of_fst he (by simp [hw])
        repeat' split
        all_goals simp [h1]

theorem execWritebackPerform_kept (core line : Nat) (s : State) : KeptBy s (execWritebackPerform core line s) :=
  ⟨_, rfl, fun hw => by simp [hw]⟩

theorem execReplicaApply_kept (part idx rep : Nat) (s : State) : KeptBy s (execReplicaApply part idx rep s) := by
  refine ⟨_, rfl, fun hw => ?_⟩
  split <;> simp [hw]

theorem execMigrationReplay_kept (id lane : Nat) (s : State) : KeptBy s (execMigrationReplay id lane s) := by
  refine ⟨_, rfl, fun hw => State.onLane_wf _ _ _ _ (fun o x => ?_) hw⟩
  split
  · refine memoriesWf_cases (fun _ => ?_) fun _ => hw
    extract_lets x' s1 s2
    have h2 : MemoriesWf s2 := by
      dsimp only [s2]
      split <;> simp [s1, hw]
    exact memoriesWf_cases (fun _ => h2) fun _ => by simp [h2]
  · exact hw

theorem execHostPortCompletion_kept (id lane : Nat) (s : State) : KeptBy s (execHostPortCompletion id lane s) :=
  ⟨_, rfl, fun hw => by simp [hw]⟩

theorem execHostAccessError_kept (id lane : Nat) (s : State) : KeptBy s (execHostAccessError id lane s) :=
  ⟨_, rfl, fun hw => by simp [hw]⟩

theorem execLostAccessTimeout_kept (id lane : Nat) (s : State) : KeptBy s (execLostAccessTimeout id lane s) :=
  ⟨_, rfl, fun hw => by simp [hw]⟩

theorem execBankAccess_kept (id lane : Nat) (s : State) : KeptBy s (execBankAccess id lane s) :=
  ⟨_, rfl, fun hw => by simp [hw]⟩

theorem execBredContribution_kept (id lane : Nat) (s : State) : KeptBy s (execBredContribution id lane s) :=
  ⟨_, rfl, fun hw => by simp [hw]⟩

theorem execBredResend_kept (id lane : Nat) (s : State) : KeptBy s (execBredResend id lane s) :=
  ⟨_, rfl, fun hw => by simp [hw]⟩

theorem execMemoryResponse_kept (id lane : Nat) (s : State) : KeptBy s (execMemoryResponse id lane s) :=
  ⟨_, rfl, fun hw => by simp [hw]⟩

theorem execReleaseAtomicPerform_kept (id : Nat) (s : State) : KeptBy s (execReleaseAtomicPerform id s) := by
  refine ⟨_, rfl, fun hw => ?_⟩
  repeat' split
  all_goals simp [hw]

theorem execScoreboardCompletion_kept (id : Nat) (s : State) : KeptBy s (execScoreboardCompletion id s) := by
  refine ⟨_, rfl, fun hw => ?_⟩
  split
  · exact hw
  next o _ =>
    refine memoriesWf_cases (fun _ => hw) fun _ => ?_
    extract_lets s1
    have h1 : MemoriesWf s1 := memoriesWf_cases
      (fun _ => memoriesWf_foldl _ (fun s x h => by split <;> simp [h]) hw) fun _ => hw
    clear_value s1
    split <;> simp [h1]

theorem execResultLanding_kept (k : Nat) (s : State) : KeptBy s (execResultLanding k s) :=
  ⟨_, rfl, fun hw => hw⟩

theorem execHostWrite_kept (tag pa : Nat) (data : List Byte) (s : State) : KeptBy s (execHostWrite tag pa data s) :=
  ⟨_, rfl, fun hw => by simp [hw]⟩

theorem execHostRead_kept (tag pa n : Nat) (s : State) : KeptBy s (execHostRead tag pa n s) := by
  refine ⟨_, rfl, fun hw => ?_⟩
  refine memoriesWf_cases (fun _ => hw) fun _ => memoriesWf_cases (fun _ => by simp [hw]) fun _ => ?_
  split
  next he => exact memoriesWf_of_fst he (by simp [hw])
  next he => simp [memoriesWf_of_fst he (by simp [hw])]

/-! ### Events and commands of `Sys2Proof/Machine/Control` -/

theorem execReservedMajorOpcode_kept (w : Word32) (s : State) : KeptBy s (execReservedMajorOpcode w s) :=
  ⟨_, rfl, fun hw => by simp [hw]⟩

/-! ### Events and commands of `Sys2Proof/Machine/Matrix` -/

theorem execKStep_kept (c : Nat) (s : State) : KeptBy s (execKStep c s) := ⟨_, rfl, fun hw => by simp [hw]⟩

theorem execMmaComplete_kept (c : Nat) (s : State) : KeptBy s (execMmaComplete c s) := by
  refine ⟨_, rfl, fun hw => ?_⟩
  split <;> simp [hw]

theorem execAccPoisonTrap_kept (k : Nat) (s : State) : KeptBy s (execAccPoisonTrap k s) :=
  ⟨_, rfl, fun hw => by simp [hw]⟩

theorem execAccDrainComplete_kept (c n : Nat) (s : State) : KeptBy s (execAccDrainComplete c n s) :=
  ⟨_, rfl, fun hw => by simp [hw]⟩

theorem execReadGrant_kept (c : Nat) (s : State) : KeptBy s (execReadGrant c s) :=
  ⟨_, rfl, fun hw => by simp [hw]⟩

/-! ### Events and commands of `Sys2Proof/Machine/Fetch` -/

theorem execWatchdogExpiry_kept (k : Nat) (s : State) : KeptBy s (execWatchdogExpiry k s) :=
  ⟨_, rfl, fun hw => by simp [hw]⟩

theorem execGroupSuspend_kept (k : Nat) (s : State) : KeptBy s (execGroupSuspend k s) :=
  ⟨_, rfl, fun hw => by simp [hw]⟩

theorem execStallCountExpiry_kept (k : Nat) (s : State) : KeptBy s (execStallCountExpiry k s) :=
  ⟨_, rfl, fun hw => by simp [hw]⟩

theorem execSleepTimeout_kept (k : Nat) (s : State) : KeptBy s (execSleepTimeout k s) := by
  refine ⟨_, rfl, fun hw => ?_⟩
  split <;> simp [hw]

theorem execTrapEntry_kept (k : Nat) (s : State) : KeptBy s (execTrapEntry k s) := by
  refine ⟨_, rfl, fun hw => ?_⟩
  split <;> simp [hw]

theorem execGroupOverdue_kept (k : Nat) (s : State) : KeptBy s (execGroupOverdue k s) :=
  ⟨_, rfl, fun hw => by simp [hw]⟩

/-! ### Events and commands of `Sys2Proof/Machine/Barrier` -/

theorem execPhaseReleaseComplete_kept (k tok : Nat) (s : State) : KeptBy s (execPhaseReleaseComplete k tok s) :=
  ⟨_, rfl, fun hw => by simp [hw]⟩

theorem execBarrierArrival_kept (k : Nat) (s : State) : KeptBy s (execBarrierArrival k s) := by
  refine ⟨_, rfl, fun hw => ?_⟩
  split
  · refine memoriesWf_cases (fun _ => hw) fun _ => memoriesWf_cases (fun _ => ?_) fun _ => ?_
    · simp [hw]
    · exact State.endSync_wf _ _ _ barrierGo_wf (by simp [hw])
  · exact hw

theorem execBarrierWaiterRelease_kept (k : Nat) (s : State) : KeptBy s (execBarrierWaiterRelease k s) :=
  ⟨_, rfl, fun hw => memoriesWf_cases (fun _ => hw) fun _ => memoriesWf_cases
    (fun _ => State.endSync_wf _ _ _ barrierGo_wf hw) fun _ => State.resume_wf _ _ _ _ barrierGo_wf hw⟩

theorem pwaitGo_wf : GoWf fun maj f => if maj = 0x68 && f.fn = 1 then some fun s => issueWith 0x68 f s pwaitBody else none := by
  intro maj f h s hg hw
  dsimp only at hg
  split_ifs at hg
  cases hg
  exact issueWith_wf pwaitBody_wf hw

theorem execPwaitResume_kept (k : Nat) (s : State) : KeptBy s (execPwaitResume k s) :=
  ⟨_, rfl, fun hw => State.resume_wf _ _ _ _ pwaitGo_wf hw⟩

theorem cwaitGo_wf : GoWf fun maj f =>
    if maj = 0x6C && f.fn = 1 then some fun s => issueWith 0x6C f s cwaitBody
    else if maj = 0x6C && f.fn = 0 then some fun s => issueWith 0x6C f s csealBody
    else none := by
  intro maj f h s hg hw
  dsimp only at hg
  split_ifs at hg <;> cases hg
  · exact issueWith_wf cwaitBody_wf hw
  · exact issueWith_wf csealBody_wf hw

theorem execCwaitResume_kept (k : Nat) (s : State) : KeptBy s (execCwaitResume k s) :=
  ⟨_, rfl, fun hw => State.resume_wf _ _ _ _ cwaitGo_wf hw⟩

theorem execBatchArrival_kept (k j : Nat) (s : State) : KeptBy s (execBatchArrival k j s) := by
  refine ⟨_, rfl, fun hw => ?_⟩
  split <;> simp [hw]

/-! ### Events and commands of `Sys2Proof/Machine/Copy` -/

theorem execCopyStart_kept (id : Nat) (s : State) : KeptBy s (execCopyStart id s) := by
  refine ⟨_, rfl, fun hw => ?_⟩
  dsimp only
  repeat' split
  all_goals simp [hw]

theorem execCopyWrite_kept (id n : Nat) (s : State) : KeptBy s (execCopyWrite id n s) := by
  refine ⟨_, rfl, fun hw => ?_⟩
  split <;> simp [hw]

theorem execTeamLocationLookup_kept (id : Nat) (s : State) : KeptBy s (execTeamLocationLookup id s) := by
  refine ⟨_, rfl, fun hw => ?_⟩
  split
  · exact hw
  · refine memoriesWf_cases (fun _ => hw) fun _ => memoriesWf_foldl _ (fun s r h => ?_) hw
    dsimp only
    repeat' split
    all_goals simp [h]

theorem execMulticastShare_kept (id r : Nat) (s : State) : KeptBy s (execMulticastShare id r s) := by
  refine ⟨_, rfl, fun hw => ?_⟩
  repeat' split
  all_goals simp [hw]

theorem execXsendDelivery_kept (id : Nat) (s : State) : KeptBy s (execXsendDelivery id s) := by
  refine ⟨_, rfl, fun hw => ?_⟩
  dsimp only
  repeat' split
  all_goals simp [hw]

theorem execFollowOnMma_kept (id : Nat) (s : State) : KeptBy s (execFollowOnMma id s) := by
  refine ⟨_, rfl, fun hw => ?_⟩
  split <;> simp [hw]

theorem execCopyComplete_kept (id : Nat) (s : State) : KeptBy s (execCopyComplete id s) := by
  refine ⟨_, rfl, fun hw => ?_⟩
  split <;> simp [hw]

theorem execXsendAcknowledgement_kept (id : Nat) (s : State) : KeptBy s (execXsendAcknowledgement id s) := by
  refine ⟨_, rfl, fun hw => ?_⟩
  split <;> simp [hw]

/-! ### Events and commands of `Sys2Proof/Machine/Launch` -/

theorem execWakeEvent_kept (team : Nat) (s : State) : KeptBy s (execWakeEvent team s) :=
  ⟨_, rfl, fun hw => by simp [hw]⟩

theorem execTeamStart_kept (team : Nat) (s : State) : KeptBy s (execTeamStart team s) :=
  ⟨_, rfl, fun hw => by simp [hw]⟩

theorem execGridCounterFetch_kept (ctx grid site : Nat) (s : State) : KeptBy s (execGridCounterFetch ctx grid site s) := by
  refine ⟨_, rfl, fun hw => ?_⟩
  split <;> simp [hw]

theorem execGridTeamLaunch_kept (ctx grid site : Nat) (s : State) : KeptBy s (execGridTeamLaunch ctx grid site s) := by
  refine ⟨_, rfl, fun hw => ?_⟩
  repeat' split
  all_goals simp [hw]

/-! ### Events and commands of `Sys2Proof/Machine/Queue` -/

theorem execQueueHomeCheck_kept (id home : Nat) (s : State) : KeptBy s (execQueueHomeCheck id home s) := by
  refine ⟨_, rfl, fun hw => ?_⟩
  repeat' split
  all_goals simp [hw]

theorem execQueueApply_kept (id : Nat) (s : State) : KeptBy s (execQueueApply id s) := by
  refine ⟨_, rfl, fun hw => ?_⟩
  dsimp only
  repeat' split
  all_goals simp [hw]

theorem rpopGo_wf (k : Nat) : GoWf fun maj f =>
    if maj = 0x6F && f.fn = 0 then some fun s => issueWith 0x6F f (s.modGrp k fun g => { g with hold := .rpop }) rpopBody else none := by
  intro maj f h s hg hw
  dsimp only at hg
  split_ifs at hg
  cases hg
  exact issueWith_wf rpopBody_wf (by simp [hw])

theorem execRpopDelivery_kept (k : Nat) (s : State) : KeptBy s (execRpopDelivery k s) :=
  ⟨_, rfl, fun hw => memoriesWf_cases (fun _ => hw) fun _ => State.resume_wf _ _ _ _ (rpopGo_wf k) hw⟩

theorem execQueueTimerExpiry_kept (ctx kern node : Nat) (s : State) : KeptBy s (execQueueTimerExpiry ctx kern node s) :=
  ⟨_, rfl, fun hw => by simp [hw]⟩

theorem execTeamLaunch_kept (ctx kern node : Nat) (s : State) : KeptBy s (execTeamLaunch ctx kern node s) := by
  refine ⟨_, rfl, fun hw => memoriesWf_cases (fun _ => hw) fun _ => ?_⟩
  split
  · refine memoriesWf_foldl _ (fun s e h => by simp [h]) ?_
    simp [hw]
  · exact hw

theorem execQueueReopen_kept (ctx kern node : Nat) (s : State) : KeptBy s (execQueueReopen ctx kern node s) :=
  ⟨_, rfl, fun hw => by simp [hw]⟩

/-! ### Events and commands of `Sys2Proof/Machine/Roith` -/

theorem execCommandLineWrite_kept (port off : Nat) (data : List Byte) (s : State) : KeptBy s (execCommandLineWrite port off data s) := by
  refine ⟨_, rfl, fun hw => ?_⟩
  dsimp only
  repeat' split
  all_goals simp [hw]

/-! ### Events and commands of `Sys2Proof/Machine/Kernel` -/

theorem execKernLoad_kept (ctx : Nat) (image : List Byte) (sizes : List (Nat × Nat)) (plan : Plan) (s : State) :
    KeptBy s (execKernLoad ctx image sizes plan s) := by
  refine roith_wf _ _ _ _ fun hw => ?_
  dsimp only
  split
  · simp [hw]
  · split
    · simp [hw]
    · split
      · simp [hw]
      · split
        · simp [hw]
        · split
          · simp [hw]
          next he => exact (State.mapKernel_wf _ _ _ _ _ _ hw).of_eq he

theorem execKernUnload_kept (ctx kern : Nat) (s : State) : KeptBy s (execKernUnload ctx kern s) :=
  roith_wf _ _ _ _ fun hw => by simp [hw]

theorem execPlanSet_kept (ctx kern : Nat) (plan : Plan) (s : State) : KeptBy s (execPlanSet ctx kern plan s) :=
  roith_wf _ _ _ _ fun hw => by simp [hw]

/-! ### Events and commands of `Sys2Proof/Machine/Lines` -/

theorem execLaunchLineWrite_kept (vf off : Nat) (data : List Byte) (s : State) : KeptBy s (execLaunchLineWrite vf off data s) :=
  ⟨_, rfl, fun hw => by simp [hw]⟩

theorem execRun_kept (vf line : Nat) (s : State) : KeptBy s (execRun vf line s) :=
  ⟨_, rfl, fun hw => by simp [hw]⟩

theorem execAppend_kept (vf line : Nat) (s : State) : KeptBy s (execAppend vf line s) := by
  refine ⟨_, rfl, fun hw => State.handleLine_wf _ _ _ _ _ (fun c kn l => ?_) hw⟩
  extract_lets k node d q w inline_ pay
  refine iteInduction (motive := fun r : State × Nat × Nat => MemoriesWf r.1) (fun _ => hw) fun _ =>
    iteInduction (motive := fun r : State × Nat × Nat => MemoriesWf r.1) (fun _ => hw) fun _ =>
    iteInduction (motive := fun r : State × Nat × Nat => MemoriesWf r.1) (fun _ => hw) fun _ =>
    iteInduction (motive := fun r : State × Nat × Nat => MemoriesWf r.1) (fun _ => hw) fun _ => ?_
  split
  · exact hw
  · have hp : MemoriesWf pay.1 := iteInduction (motive := fun r : State × Option (List Byte × List Bool) => MemoriesWf r.1)
      (fun _ => hw) fun _ => by simp [hw]
    clear_value pay
    split
    · exact hp
    next s1 v =>
      have h1 : MemoriesWf s1 := hp
      simp [h1]

theorem execEndRun_kept (vf line : Nat) (s : State) : KeptBy s (execEndRun vf line s) := by
  refine ⟨_, rfl, fun hw => State.handleLine_wf _ _ _ _ _ (fun c kn l => ?_) hw⟩
  dsimp only
  split
  · exact hw
  · split
    · exact hw
    · repeat' split
      all_goals simp [hw]

theorem execRunEnd_kept (ctx grid : Nat) (s : State) : KeptBy s (execRunEnd ctx grid s) := by
  refine ⟨_, rfl, fun hw => ?_⟩
  split
  · exact hw
  next r _ =>
    refine memoriesWf_cases (fun _ => hw) fun _ => ?_
    split
    · have h1 : MemoriesWf ((s.runLines r).foldl (fun s e => s.writeback e.1 e.2) s) := memoriesWf_foldl _ (fun s e h => by simp [h]) hw
      dsimp only
      repeat' split
      all_goals simp [h1]
    · dsimp only
      repeat' split
      all_goals simp [hw]

/-! ### Events and commands of `Sys2Proof/Machine/Context` -/

theorem execCtxCreate_kept (part : Nat) (desc : CtxDescr) (s : State) : KeptBy s (execCtxCreate part desc s) := by
  refine roith_wf _ _ _ _ fun hw => ?_
  repeat' split
  all_goals simp [hw]

theorem execCtxDesc_kept (ctx : Nat) (desc : CtxDescr) (s : State) : KeptBy s (execCtxDesc ctx desc s) :=
  roith_wf _ _ _ _ fun hw => by simp [hw]

theorem execCtxFault_kept (ctx : Nat) (s : State) : KeptBy s (execCtxFault ctx s) :=
  roith_wf _ _ _ _ fun hw => by simp [hw]

theorem execPluginAccessFault_kept (ctx : Nat) (s : State) : KeptBy s (execPluginAccessFault ctx s) :=
  ⟨_, rfl, fun hw => by simp [hw]⟩

theorem execCtxPreempt_kept (ctx : Nat) (s : State) : KeptBy s (execCtxPreempt ctx s) := by
  refine roith_wf _ _ _ _ fun hw => ?_
  split
  next he => exact (cmdOk_wf _).2 ((State.requestPreempt_wf _ _ _ _ hw).of_eq he)
  · simp [hw]

theorem execPreemptBudgetExpiry_kept (ctx : Nat) (s : State) : KeptBy s (execPreemptBudgetExpiry ctx s) := by
  refine ⟨_, rfl, fun hw => ?_⟩
  split <;> simp [hw]

theorem execCtxResume_kept (ctx : Nat) (s : State) : KeptBy s (execCtxResume ctx s) := by
  refine roith_wf _ _ _ _ fun hw => ?_
  split <;> simp [hw]

theorem execCtxKill_kept (ctx : Nat) (s : State) : KeptBy s (execCtxKill ctx s) :=
  roith_wf _ _ _ _ fun hw => by simp [hw]

theorem execContextKillComplete_kept (ctx : Nat) (s : State) : KeptBy s (execContextKillComplete ctx s) :=
  ⟨_, rfl, fun hw => by simp [hw]⟩

theorem execContextScrubComplete_kept (ctx : Nat) (s : State) : KeptBy s (execContextScrubComplete ctx s) :=
  ⟨_, rfl, fun hw => by simp [hw]⟩

theorem execClear_kept (ctx : Nat) (mask : Word) (s : State) : KeptBy s (execClear ctx mask s) :=
  ⟨_, rfl, fun hw => by simp [hw]⟩

theorem execEventsRead_kept (ctx : Nat) (s : State) : KeptBy s (execEventsRead ctx s) :=
  ⟨_, rfl, fun hw => by simp [hw]⟩

/-! ### Events and commands of `Sys2Proof/Machine/Castle` -/

theorem execTeamStop_kept (team : Nat) (s : State) : KeptBy s (execTeamStop team s) := by
  refine ⟨_, rfl, fun hw => ?_⟩
  dsimp only
  repeat' split
  all_goals simp [hw]

theorem execCastlingInterval_kept (part : Nat) (s : State) : KeptBy s (execCastlingInterval part s) :=
  ⟨_, rfl, fun hw => by simp [hw]⟩

theorem execPinLimit_kept (team : Nat) (s : State) : KeptBy s (execPinLimit team s) := by
  refine ⟨_, rfl, fun hw => ?_⟩
  split <;> simp [hw]

theorem execCastlingMove_kept (part ring : Nat) (s : State) : KeptBy s (execCastlingMove part ring s) := by
  refine ⟨_, rfl, fun hw => ?_⟩
  split <;> simp [hw]

theorem execCastlingResume_kept (team : Nat) (s : State) : KeptBy s (execCastlingResume team s) := by
  refine ⟨_, rfl, fun hw => ?_⟩
  dsimp only
  split <;> simp [hw]

theorem execTeamRestore_kept (ctx slot : Nat) (s : State) : KeptBy s (execTeamRestore ctx slot s) := by
  refine ⟨_, rfl, fun hw => ?_⟩
  extract_lets saved x open_
  split
  · exact hw
  · refine memoriesWf_cases (fun _ => hw) fun _ => memoriesWf_cases
      (fun _ => by simp [hw]) fun _ => ?_
    split
    · exact hw
    · split
      · exact hw
      · extract_lets site
        refine memoriesWf_cases (fun _ => hw) fun _ => ?_
        split
        next he =>
          have h1 := memoriesWf_of_fst he (by simp [hw])
          split
          next he =>
            have h2 := memoriesWf_of_fst he (by simp [h1])
            split
            next he =>
              have h3 := memoriesWf_of_fst he (by simp [h2])
              split
              next he =>
                have h4 := memoriesWf_of_fst he (by simp [h3])
                refine State.placeTeam_wf _ _ _ _ ?_
                rw [State.modTeam_wf]
                exact (memoriesWf_foldl_iff _ _ _ State.leaveSlot_wf).2 (by simp [h4])

/-! ### Events and commands of `Sys2Proof/Machine/Link` -/

theorem execFlitArrival_kept (flit : Flit) (s : State) : KeptBy s (execFlitArrival flit s) := by
  refine ⟨_, rfl, fun hw => ?_⟩
  repeat' split
  all_goals simp [hw]

theorem execLossOfSignal_kept (port : Nat) (s : State) : KeptBy s (execLossOfSignal port s) :=
  ⟨_, rfl, fun hw => hw⟩

theorem execLaneFailure_kept (port : Nat) (s : State) : KeptBy s (execLaneFailure port s) :=
  ⟨_, rfl, fun hw => by simp [hw]⟩

theorem execTrainingComplete_kept (port width : Nat) (full : Bool) (found : Trained) (s : State) :
    KeptBy s (execTrainingComplete port width full found s) :=
  ⟨_, rfl, fun hw => by simp [hw]⟩

theorem execTrainingTimeout_kept (port : Nat) (s : State) : KeptBy s (execTrainingTimeout port s) :=
  ⟨_, rfl, fun hw => hw⟩

theorem execPortIsolate_kept (port : Nat) (s : State) : KeptBy s (execPortIsolate port s) :=
  ⟨_, rfl, fun hw => by simp [hw]⟩

theorem execPortFreeze_kept (port : Nat) (s : State) : KeptBy s (execPortFreeze port s) :=
  ⟨_, rfl, fun hw => hw⟩

theorem execEn_kept (port : Nat) (on : Bool) (s : State) : KeptBy s (execEn port on s) :=
  ⟨_, rfl, fun hw => hw⟩

theorem execRetrain_kept (port : Nat) (s : State) : KeptBy s (execRetrain port s) := ⟨_, rfl, fun hw => hw⟩

theorem execUnfreeze_kept (port : Nat) (s : State) : KeptBy s (execUnfreeze port s) := ⟨_, rfl, fun hw => hw⟩

theorem execPortCtl_kept (port : Nat) (value : Word) (s : State) : KeptBy s (execPortCtl port value s) :=
  roith_wf _ _ _ _ fun hw => by simp [hw]

theorem execXoff_kept (port vl : Nat) (s : State) : KeptBy s (execXoff port vl s) :=
  ⟨_, rfl, fun hw => by simp [hw]⟩

theorem execXon_kept (port vl : Nat) (s : State) : KeptBy s (execXon port vl s) :=
  ⟨_, rfl, fun hw => by simp [hw]⟩

theorem execFlitCrcFailure_kept (port : Nat) (s : State) : KeptBy s (execFlitCrcFailure port s) :=
  ⟨_, rfl, fun hw => by simp [hw]⟩

theorem execCompletionTimeout_kept (id lane : Nat) (s : State) : KeptBy s (execCompletionTimeout id lane s) := by
  refine ⟨_, rfl, fun hw => ?_⟩
  repeat' split
  all_goals simp [hw]

theorem execHostCompletionTimeout_kept (port vf : Nat) (s : State) : KeptBy s (execHostCompletionTimeout port vf s) := by
  refine ⟨_, rfl, fun hw => ?_⟩
  dsimp only
  repeat' split
  all_goals simp [hw]

theorem execFunctionLevelReset_kept (vf : Nat) (s : State) : KeptBy s (execFunctionLevelReset vf s) :=
  ⟨_, rfl, fun hw => hw⟩

theorem execSiteFailure_kept (site : Nat) (routerOk : Bool) (s : State) : KeptBy s (execSiteFailure site routerOk s) := by
  refine ⟨_, rfl, fun hw => ?_⟩
  dsimp only
  repeat' split
  all_goals simp [hw]

theorem execRouteRepair_kept (part : Nat) (table : List RouterEntry) (routes : List Route) (plan : CastlePlan) (s : State) :
    KeptBy s (execRouteRepair part table routes plan s) :=
  ⟨_, rfl, fun hw => by simp [hw]⟩

/-! ### Events and commands of `Sys2Proof/Machine/Etsel` -/

theorem execEtselRead_kept (p : Etsel) (s : State) : KeptBy s (execEtselRead p s) :=
  ⟨_, rfl, fun hw => State.receive_wf _ _ _ _ (State.peerRead_wf s p hw) hw⟩

theorem execEtselWrite_kept (p : Etsel) (s : State) : KeptBy s (execEtselWrite p s) :=
  ⟨_, rfl, fun hw => State.receive_wf _ _ _ _ (State.peerWrite_wf s p hw) hw⟩

theorem execEtselAtomic_kept (p : Etsel) (s : State) : KeptBy s (execEtselAtomic p s) :=
  ⟨_, rfl, fun hw => State.receive_wf _ _ _ _ (State.peerAtomic_wf s p hw) hw⟩

theorem execEtselXsend_kept (p : Etsel) (s : State) : KeptBy s (execEtselXsend p s) :=
  ⟨_, rfl, fun hw => by simp [hw]⟩

theorem execEtselReadData_kept (p : Etsel) (s : State) : KeptBy s (execEtselReadData p s) := by
  refine ⟨_, rfl, fun hw => State.receive_wf _ _ _ _ ?_ hw⟩
  split
  · exact hw
  · refine iteInduction (motive := OptWf) (fun _ => hw) fun _ => State.answered_wf _ _ _ _ _ ?_ hw
    dsimp only
    split <;> simp [hw]

theorem execEtselWriteAcknowledgement_kept (p : Etsel) (s : State) : KeptBy s (execEtselWriteAcknowledgement p s) := by
  refine ⟨_, rfl, fun hw => State.receive_wf _ _ _ _ ?_ hw⟩
  split
  · exact hw
  · exact memoriesWf_cases (fun _ => hw) fun _ => State.answered_wf _ _ _ _ _ (by simp [hw]) hw

theorem execEtselError_kept (p : Etsel) (s : State) : KeptBy s (execEtselError p s) :=
  ⟨_, rfl, fun hw => by simp [hw]⟩

theorem execEtselXsendAcknowledgement_kept (p : Etsel) (s : State) : KeptBy s (execEtselXsendAcknowledgement p s) := by
  refine ⟨_, rfl, fun hw => State.receive_wf _ _ _ _ ?_ hw⟩
  split
  · exact hw
  · dsimp only
    repeat' split
    all_goals simp [hw]

theorem execEtselManagement_kept (p : Etsel) (s : State) : KeptBy s (execEtselManagement p s) :=
  ⟨_, rfl, fun hw => by simp [hw]⟩

/-! ### Events and commands of `Sys2Proof/Machine/Partition` -/

theorem execPartCarve_kept (sites chans : List Nat) (desc : PartDesc) (table : List RouterEntry) (port root : Nat) (s : State) :
    KeptBy s (execPartCarve sites chans desc table port root s) := by
  refine ⟨_, rfl, fun hw => ?_⟩
  repeat' split
  all_goals simp [hw]

theorem execPartGrow_kept (part : Nat) (sites chans : List Nat) (tables : GrowTables) (force : Bool) (s : State) :
    KeptBy s (execPartGrow part sites chans tables force s) :=
  ⟨_, rfl, fun hw => by simp [hw]⟩

theorem execPartShrink_kept (part : Nat) (sites chans : List Nat) (force : Bool) (s : State) :
    KeptBy s (execPartShrink part sites chans force s) :=
  roithForce_wf _ _ _ _ _ fun hw => by simp [hw]

theorem execPartCompact_kept (part : Nat) (map : List (Nat × Nat)) (table : List RouterEntry) (plan : CastlePlan) (force : Bool)
    (s : State) :
    KeptBy s (execPartCompact part map table plan force s) := by
  refine iteInduction (motive := KeptBy s) (fun _ => ⟨s, rfl, id⟩) fun _ => roithForce_wf _ _ _ _ _ fun hw => ?_
  have h1 (fs : List Nat) := State.migrate_wf _ part fs (State.tdispForce_wf s part hw)
  dsimp only
  repeat' split
  all_goals simp [hw, h1]

theorem execPartQuota_kept (part : Nat) (desc : PartDesc) (force : Bool) (s : State) : KeptBy s (execPartQuota part desc force s) := by
  refine roithForce_wf _ _ _ _ _ fun hw => ?_
  dsimp only
  repeat' split
  case h_2 he => simp [(State.requota_wf _ _ _ hw).of_eq he]
  all_goals simp [hw]

theorem execPartQuiesce_kept (part : Nat) (s : State) : KeptBy s (execPartQuiesce part s) :=
  roith_wf _ _ _ _ fun hw => by simp [hw]

theorem execQuiesceComplete_kept (part : Nat) (s : State) : KeptBy s (execQuiesceComplete part s) :=
  ⟨_, rfl, fun hw => by simp [hw]⟩

theorem execPartExport_kept (part : Nat) (dest : StreamDest) (threshold : Nat) (force : Bool) (s : State) :
    KeptBy s (execPartExport part dest threshold force s) :=
  ⟨_, rfl, fun hw => by simp [hw]⟩

theorem execPrecopyRound_kept (part : Nat) (order : List Nat) (s : State) : KeptBy s (execPrecopyRound part order s) :=
  ⟨_, rfl, fun hw => by simp [hw]⟩

theorem execPartImport_kept (sites chans : List Nat) (desc : PartDesc) (source : StreamHead) (s : State) :
    KeptBy s (execPartImport sites chans desc source s) := by
  refine ⟨_, rfl, fun hw => ?_⟩
  repeat' split
  all_goals simp [hw]

theorem execExportRecord_kept (part : Nat) (r : StreamRec) (s : State) : KeptBy s (execExportRecord part r s) := by
  refine ⟨_, rfl, fun hw => ?_⟩
  split <;> simp [hw]

theorem execPartExportDone_kept (part : Nat) (s : State) : KeptBy s (execPartExportDone part s) :=
  roith_wf _ _ _ _ fun hw => by simp [hw]

theorem execPartAbort_kept (part : Nat) (s : State) : KeptBy s (execPartAbort part s) :=
  roith_wf _ _ _ _ fun hw => by simp [hw]

theorem execPartDestroy_kept (part : Nat) (s : State) : KeptBy s (execPartDestroy part s) := by
  refine roith_wf _ _ _ _ fun hw => ?_
  dsimp only
  split
  · simp [hw]
  · have h1 := memoriesWf_foldl ((s.ctxsOf part).filter fun c => (s.ctx c).st != .killed && (s.ctx c).st != .scrubbing)
      State.killCtx_wf hw
    simp [h1]

theorem execPartitionScrubComplete_kept (part : Nat) (failed : List Nat) (s : State) :
    KeptBy s (execPartitionScrubComplete part failed s) :=
  ⟨_, rfl, fun hw => by simp [hw]⟩

/-! ### Events and commands of `Sys2Proof/Machine/Manage` -/

theorem execRoutesSet_kept (part : Nat) (routes : List Route) (s : State) : KeptBy s (execRoutesSet part routes s) :=
  roith_wf _ _ _ _ fun hw => by simp [hw]

theorem execCastleSet_kept (part : Nat) (plan : CastlePlan) (s : State) : KeptBy s (execCastleSet part plan s) :=
  roith_wf _ _ _ _ fun hw => by simp [hw]

theorem execPtInval_kept (part addr len : Nat) (s : State) : KeptBy s (execPtInval part addr len s) :=
  roith_wf _ _ _ _ fun hw => by simp [hw]

theorem execReplicaSet_kept (part idx : Nat) (chans : List Nat) (s : State) : KeptBy s (execReplicaSet part idx chans s) := by
  refine roith_wf _ _ _ _ fun hw => ?_
  dsimp only
  repeat' split
  case isFalse.isFalse.isFalse =>
    rw [cmdOk_wf, State.modPart_wf, memoriesWf_mk, memoriesWf_fold]
    exact memoriesWf_foldl _ (fun t c h => memoriesWf_foldl _ (fun t x h => State.copyPage_wf t _ _ _ h) h) hw
  all_goals simp [hw]

theorem execPinRelease_kept (part addr len : Nat) (s : State) : KeptBy s (execPinRelease part addr len s) :=
  roith_wf _ _ _ _ fun hw => by simp [hw]

theorem execPageRetire_kept (part frame into : Nat) (s : State) : KeptBy s (execPageRetire part frame into s) :=
  roith_wf _ _ _ _ fun hw => by simp [hw]

theorem execPeerSet_kept (part entry : Nat) (peer : PeerRec) (s : State) : KeptBy s (execPeerSet part entry peer s) :=
  roith_wf _ _ _ _ fun hw => by simp [hw]

theorem execKeySet_kept (part peer port : Nat) (key : Word) (s : State) : KeptBy s (execKeySet part peer port key s) :=
  roith_wf _ _ _ _ fun hw => by simp [hw]

theorem execVfBind_kept (part port ctx : Nat) (force : Bool) (s : State) : KeptBy s (execVfBind part port ctx force s) :=
  roithForce_wf _ _ _ _ _ fun hw => by simp [hw]

theorem execLockInterface_kept (vf : Nat) (s : State) : KeptBy s (execLockInterface vf s) :=
  ⟨_, rfl, fun hw => hw⟩

theorem execStartInterface_kept (vf : Nat) (s : State) : KeptBy s (execStartInterface vf s) :=
  ⟨_, rfl, fun hw => hw⟩

theorem execStopInterface_kept (vf : Nat) (s : State) : KeptBy s (execStopInterface vf s) :=
  ⟨_, rfl, fun hw => hw⟩

theorem execWrecRead_kept (s : State) : KeptBy s (execWrecRead s) := roith_wf _ _ _ _ fun hw => hw

theorem execStatus_kept (part : Nat) (s : State) : KeptBy s (execStatus part s) :=
  roith_wf _ _ _ _ fun hw => by simp [hw]

theorem execLogRead_kept (site : Nat) (s : State) : KeptBy s (execLogRead site s) :=
  roith_wf _ _ _ _ fun hw => by simp [hw]

theorem execSpdmRequest_kept (req : SpdmReq) (s : State) : KeptBy s (execSpdmRequest req s) := by
  refine ⟨_, rfl, fun hw => ?_⟩
  repeat' split
  all_goals simp [hw]

theorem memoriesWf_reset : MemoriesWf State.reset := ⟨rfl, rfl, rfl⟩

theorem execModuleReset_kept (s : State) : KeptBy s (execModuleReset s) := by
  refine ⟨_, rfl, fun _ => ?_⟩
  dsimp only
  split
  · exact memoriesWf_reset
  · exact memoriesWf_foldl _ (fun r t h => by simp [h]) memoriesWf_reset

/-! ### Events and commands of `Sys2Proof/Machine/Power` -/

theorem execControlInterval_kept (pnow avg : Nat) (samples : List PowerSample) (s : State) :
    KeptBy s (execControlInterval pnow avg samples s) :=
  ⟨_, rfl, fun hw => by simp [hw]⟩

theorem execFastLimiterSample_kept (watts : Nat) (s : State) : KeptBy s (execFastLimiterSample watts s) :=
  ⟨_, rfl, fun hw => by simp [hw]⟩

theorem execPowerControlWrite_kept (site : Nat) (value : Word) (s : State) : KeptBy s (execPowerControlWrite site value s) :=
  ⟨_, rfl, fun hw => by simp [hw]⟩

theorem execEnergyAccounting_kept (samples : List EnergySample) (s : State) : KeptBy s (execEnergyAccounting samples s) :=
  ⟨_, rfl, fun hw => by simp [hw]⟩

/-! ### Events and commands of `Sys2Proof/Machine/Resume` -/

theorem execGroupSyncExecute_kept (k : Nat) (s : State) : KeptBy s (execGroupSyncExecute k s) := by
  refine ⟨_, rfl, fun hw => ?_⟩
  extract_lets g s0
  refine memoriesWf_cases (fun _ => hw) fun _ => ?_
  have h0 : MemoriesWf s0 := hw
  split
  next he => exact memoriesWf_of_fst he (by simp [h0])
  next s1 he =>
    have h1 : MemoriesWf s1 := memoriesWf_of_fst he (by simp [h0])
    have h2 : MemoriesWf (({ s1 with cur := k } : State).fetchIssue k).1 := by simp [h1]
    split
    next he =>
      rw [he] at h2
      split
      next hg => exact syncGo_wf _ _ _ _ hg (by simp [h2])
      · exact h0
    next he =>
      rw [he] at h2
      simp [h2]
    · exact h0

theorem execCopyAdmit_kept (k : Nat) (s : State) : KeptBy s (execCopyAdmit k s) :=
  ⟨_, rfl, fun hw => memoriesWf_cases (fun _ => hw) fun _ => State.resume_wf _ _ _ _ copyGo_wf hw⟩

theorem rangeGo_wf : GoWf fun maj f =>
    if maj = 0x61 && f.fn = 0 then some fun s => issueWith 0x61 f s (moveBody .lds)
    else if maj = 0x61 && f.fn = 1 then some fun s => issueWith 0x61 f s (moveBody .sts)
    else if maj = 0x66 then some fun s => issueWith 0x66 f s (atomBody .atoms)
    else copyGo maj f := by
  intro maj f h s hg hw
  dsimp only at hg
  split_ifs at hg
  · cases hg; exact issueWith_wf (moveBody_wf .lds) hw
  · cases hg; exact issueWith_wf (moveBody_wf .sts) hw
  · cases hg; exact issueWith_wf (atomBody_wf .atoms) hw
  · exact copyGo_wf maj f h s hg hw

theorem execRangeHoldRelease_kept (k : Nat) (s : State) : KeptBy s (execRangeHoldRelease k s) :=
  ⟨_, rfl, fun hw => memoriesWf_cases (fun _ => hw) fun _ => State.resume_wf _ _ _ _ rangeGo_wf hw⟩

theorem aallocGo_wf : GoWf fun maj f => if maj = 0x58 && f.fn = 0 then some fun s => issueWith 0x58 f s aallocBody else none := by
  intro maj f h s hg hw
  dsimp only at hg
  split_ifs at hg
  cases hg
  exact issueWith_wf aallocBody_wf hw

theorem execAccAllocGrant_kept (k : Nat) (s : State) : KeptBy s (execAccAllocGrant k s) :=
  ⟨_, rfl, fun hw => memoriesWf_cases (fun _ => hw) fun _ => State.resume_wf _ _ _ _ aallocGo_wf hw⟩

theorem accHoldGo_wf : GoWf fun maj f =>
    if maj = 0x58 && f.fn = 1 then some fun s => issueWith 0x58 f s afreeBody
    else if maj = 0x58 && f.fn = 2 then some fun s => issueWith 0x58 f s azeroBody
    else if maj = 0x5A && f.fn = 0 then some fun s => issueWith 0x5A f s ardBody
    else if maj = 0x5A && f.fn = 1 then some fun s => issueWith 0x5A f s awrBody
    else if maj = 0x5A && f.fn = 2 then some fun s => issueWith 0x5A f s aksBody
    else none := by
  intro maj f h s hg hw
  dsimp only at hg
  split_ifs at hg <;> cases hg
  · exact issueWith_wf afreeBody_wf hw
  · exact issueWith_wf azeroBody_wf hw
  · exact issueWith_wf ardBody_wf hw
  · exact issueWith_wf awrBody_wf hw
  · exact issueWith_wf aksBody_wf hw

theorem execAccHoldRelease_kept (k : Nat) (s : State) : KeptBy s (execAccHoldRelease k s) :=
  ⟨_, rfl, fun hw => State.resume_wf _ _ _ _ accHoldGo_wf hw⟩

/-! ### Events and commands of `Sys2Proof/Machine/Supervisor` -/

theorem execDrainComplete_kept (k : Nat) (s : State) : KeptBy s (execDrainComplete k s) :=
  ⟨_, rfl, fun hw => by simp [hw]⟩

theorem execBindRecordWrite_kept (k : Nat) (r : BindRec) (s : State) : KeptBy s (execBindRecordWrite k r s) :=
  ⟨_, rfl, fun hw => by simp [hw]⟩

theorem execSlotResume_kept (k : Nat) (s : State) : KeptBy s (execSlotResume k s) :=
  ⟨_, rfl, fun hw => by simp [hw]⟩

theorem execSlotKill_kept (k : Nat) (s : State) : KeptBy s (execSlotKill k s) :=
  ⟨_, rfl, fun hw => by simp [hw]⟩

theorem execSlotHold_kept (k : Nat) (s : State) : KeptBy s (execSlotHold k s) :=
  ⟨_, rfl, fun hw => by simp [hw]⟩

theorem execSlotWithdraw_kept (k : Nat) (s : State) : KeptBy s (execSlotWithdraw k s) :=
  ⟨_, rfl, fun hw => by simp [hw]⟩

theorem execStateWindowWrite_kept (k off : Nat) (data : List Byte) (s : State) : KeptBy s (execStateWindowWrite k off data s) := by
  refine ⟨_, rfl, fun hw => ?_⟩
  repeat' split
  all_goals simp [hw]

theorem execAccRecordWrite_kept (core n off : Nat) (data : List Byte) (s : State) : KeptBy s (execAccRecordWrite core n off data s) :=
  ⟨_, rfl, fun hw => by simp [hw]⟩

/-! ### Events and commands of `Sys2Proof/Machine/Windows` -/

@[simp] theorem State.slotTableWrite_wf (s : State) (core addr : Nat) (data : Word) :
    MemoriesWf (s.slotTableWrite core addr data) ↔ MemoriesWf s := by
  unfold State.slotTableWrite
  dsimp only
  split
  · unfold execBindRecordWrite
    dsimp only
    repeat' split
    all_goals simp
  all_goals (repeat' split) <;> simp

theorem execRegisterWrite_kept (core addr : Nat) (data : Word) (s : State) : KeptBy s (execRegisterWrite core addr data s) := by
  refine ⟨_, rfl, fun hw => ?_⟩
  repeat' split
  all_goals simp [hw]

/-! ### Every instruction and event -/

theorem issueWith_kept {maj : BitVec 7} {f : Fields} {s : State} {body : Env → State → Out} (hb : ∀ env s, MemoriesWf s → (body env s).Wf) :
    KeptBy s (.next (issueWith maj f s body)) :=
  ⟨_, rfl, issueWith_wf hb⟩

theorem issueSync_kept {maj : BitVec 7} {f : Fields} {s : State} {body : Env → State → Out} (hb : ∀ env s, MemoriesWf s → (body env s).Wf) :
    KeptBy s (.next (issueSync maj f s body)) :=
  ⟨_, rfl, issueSync_wf hb⟩

theorem exec_kept (i : Instr) (s : State) : KeptBy s (exec i s) := by
  cases i
  case sadd f | saddExt f | iadd f | iaddExt f | ssub f | ssubExt f | isub f | isubExt f | smul f | smulExt f | imul f | imulExt f
      | smulh f | smulhExt f | imulh f | imulhExt f | sdiv f | sdivExt f | idiv f | idivExt f | srem f | sremExt f | irem f | iremExt f
      | sand f | sandExt f | iand f | iandExt f | sor f | sorExt f | ior f | iorExt f | sxor f | sxorExt f | ixor f | ixorExt f | sshl f
      | sshlExt f | ishl f | ishlExt f | sshr f | sshrExt f | ishr f | ishrExt f | ssar f | ssarExt f | isar f | isarExt f | smin f
      | sminExt f | imin f | iminExt f | smax f | smaxExt f | imax f | imaxExt f | sclz f | sclzExt f | iclz f | iclzExt f | spopc f
      | spopcExt f | ipopc f | ipopcExt f | smov f | smovExt f | imov f | imovExt f => exact issueWith_kept (intForm_wf _)
  case sbfx f | sbfxExt f | ibfx f | ibfxExt f | sbfi f | sbfiExt f | ibfi f | ibfiExt f => exact issueWith_kept (fieldForm_wf _)
  case ssel f | sselExt f => exact issueWith_kept selScalar_wf
  case isel f | iselExt f => exact issueWith_kept selLane_wf
  case sandn f | sandnExt f | srot f | srotExt f | slea f | sleaExt f | scmp f | scmpExt f => exact issueWith_kept (scalarInt_wf _ _)
  case imad f | imadExt f | iabs f | iabsExt f | ineg f | inegExt f | inot f | inotExt f | isad f | isadExt f =>
    exact issueWith_kept (laneInt_wf _ _)
  case idot4 f | idot4Ext f => exact issueWith_kept dotBody_wf
  case pseti f | psetiExt f => exact issueWith_kept psetiBody_wf
  case plop f | plopExt f => exact issueWith_kept plopBody_wf
  case pmov f | pmovExt f => exact issueWith_kept pmovBody_wf
  case pmovMask f | pmovMaskExt f => exact issueWith_kept pmovMaskBody_wf
  case vote f => exact issueSync_kept voteBody_wf
  case bra f | braExt f => exact issueWith_kept braBody_wf
  case brp f | brpExt f => exact issueWith_kept brpBody_wf
  case brx f | brxExt f => exact issueWith_kept brxBody_wf
  case call f | callExt f => exact issueWith_kept (callBody_wf _ callOne_wf)
  case callx f | callxExt f => exact issueWith_kept (callBody_wf _ callxOne_wf)
  case ret f | retExt f => exact issueWith_kept (callBody_wf _ popRet_wf)
  case loop f | loopExt f => exact issueWith_kept loopBody_wf
  case yield f | yieldExt f => exact issueWith_kept yieldBody_wf
  case sleep f | sleepExt f => exact issueWith_kept sleepBody_wf
  case exit f | exitExt f => exact issueWith_kept exitBody_wf
  case nop f | nopExt f => exact issueWith_kept nopBody_wf
  case safept f | safeptExt f => exact issueWith_kept safeptBody_wf
  case pin f | pinExt f | unpin f | unpinExt f => exact issueWith_kept (pinFlagBody_wf _)
  case trap f | trapExt f | bkpt f | bkptExt f => exact issueWith_kept (trapBody_wf _)
  case movsr f | movsrExt f => exact issueWith_kept movsrBody_wf
  case movrs f | movrsExt f => exact issueWith_kept movrsBody_wf
  case fadd f | faddExt f | fsub f | fsubExt f => exact issueWith_kept (addBody_wf _)
  case fmul f | fmulExt f => exact issueWith_kept mulBody_wf
  case ffma f | ffmaExt f | ffms f | ffmsExt f | fnfma f | fnfmaExt f | fnfms f | fnfmsExt f => exact issueWith_kept (fmaBody_wf _ _)
  case fminnum f | fminnumExt f | fmaxnum f | fmaxnumExt f => exact issueWith_kept (minNumBody_wf _)
  case fminnan f | fminnanExt f | fmaxnan f | fmaxnanExt f => exact issueWith_kept (minNanBody_wf _)
  case fabs f | fabsExt f | fneg f | fnegExt f => exact issueWith_kept (signBody_wf _)
  case fcpysgn f | fcpysgnExt f => exact issueWith_kept cpySgnBody_wf
  case fclass f | fclassExt f => exact issueWith_kept classBody_wf
  case frnd f | frndExt f => exact issueWith_kept rndBody_wf
  case fscale f | fscaleExt f => exact issueWith_kept scaleBody_wf
  case fdot2 f | fdot2Ext f => exact issueWith_kept dot2Body_wf
  case fhadd f | fhaddExt f => exact issueWith_kept haddBody_wf
  case psetf f | psetfExt f => exact issueWith_kept psetfBody_wf
  case frcp f | frsq f | fsqrt f | fexp2 f | flog2 f | fsin f | fcos f | ftanh f | fsigm f => exact issueWith_kept (specialBody_wf _)
  case cvt f | cvtExt f => exact issueWith_kept cvtBody_wf
  case cvti f | cvtiExt f => exact issueWith_kept cvtiBody_wf
  case cvtf8 f | cvtf8Ext f => exact issueWith_kept cvtf8Body_wf
  case pack f | packExt f => exact issueWith_kept packBody_wf
  case unpack f | unpackExt f => exact issueWith_kept unpackBody_wf
  case mxsc f => exact issueWith_kept mxscBody_wf
  case mxq f => exact issueWith_kept mxqBody_wf
  case mxdq f => exact issueWith_kept mxdqBody_wf
  case shfl f => exact issueWith_kept shflBody_wf
  case shflx f => exact issueWith_kept shflxBody_wf
  case bcast f => exact issueSync_kept bcastBody_wf
  case rscan f => exact issueSync_kept rscanBody_wf
  case rred f => exact issueSync_kept rredBody_wf
  case perm f => exact issueWith_kept permBody_wf
  case aalloc f => exact issueWith_kept aallocBody_wf
  case afree f => exact issueWith_kept afreeBody_wf
  case azero f => exact issueWith_kept azeroBody_wf
  case mma f | mmax f => exact issueSync_kept mmaBody_wf
  case ard f => exact issueWith_kept ardBody_wf
  case awr f => exact issueWith_kept awrBody_wf
  case aks f => exact issueWith_kept aksBody_wf
  case ld f | st f | lds f | sts f | ldb f | stb f | ldc f | ldp f => exact issueWith_kept (moveBody_wf _)
  case pref f => exact issueWith_kept prefBody_wf
  case cflush f | cinv f => exact issueWith_kept flushBody_wf
  case cpin f | cunpin f => exact issueWith_kept pinBody_wf
  case atom f | acas f | atoms f | atomb f | bvec f => exact issueWith_kept (atomBody_wf _)
  case bred f => exact issueWith_kept bredBody_wf
  case phase f => exact issueWith_kept phaseBody_wf
  case pwait f => exact issueWith_kept pwaitBody_wf
  case binit f => exact issueWith_kept binitBody_wf
  case barv f => exact issueSync_kept barvBody_wf
  case bara f => exact issueSync_kept baraBody_wf
  case bwait f => exact issueWith_kept bwaitBody_wf
  case btest f => exact issueWith_kept btestBody_wf
  case cpy f | cpym f | cpyf f => exact issueWith_kept (copyBody_wf _)
  case cseal f => exact issueWith_kept csealBody_wf
  case cwait f => exact issueWith_kept cwaitBody_wf
  case cbind f => exact issueWith_kept cbindBody_wf
  case cstat f => exact issueWith_kept cstatBody_wf
  case ralloc f => exact issueWith_kept rallocBody_wf
  case rcommit f | rfree f | rjoin f => exact issueWith_kept (queueBody_wf _)
  case rpop f => exact issueWith_kept rpopBody_wf
  case spawn f => exact issueWith_kept spawnBody_wf
  case qstat f => exact issueWith_kept qstatBody_wf
  case xsend f => exact issueWith_kept xsendBody_wf
  case resultLanding k => exact execResultLanding_kept k s
  case scoreboardCompletion id => exact execScoreboardCompletion_kept id s
  case trapEntry k => exact execTrapEntry_kept k s
  case groupSyncExecute k => exact execGroupSyncExecute_kept k s
  case watchdogExpiry k => exact execWatchdogExpiry_kept k s
  case groupOverdue k => exact execGroupOverdue_kept k s
  case drainComplete k => exact execDrainComplete_kept k s
  case bindRecordWrite k r => exact execBindRecordWrite_kept k r s
  case slotResume k => exact execSlotResume_kept k s
  case slotKill k => exact execSlotKill_kept k s
  case slotHold k => exact execSlotHold_kept k s
  case slotWithdraw k => exact execSlotWithdraw_kept k s
  case groupSuspend k => exact execGroupSuspend_kept k s
  case stateWindowWrite k off data => exact execStateWindowWrite_kept k off data s
  case accRecordWrite core n off data => exact execAccRecordWrite_kept core n off data s
  case pluginAccessFault ctx => exact execPluginAccessFault_kept ctx s
  case registerWrite core addr data => exact execRegisterWrite_kept core addr data s
  case kStep core => exact execKStep_kept core s
  case mmaComplete core => exact execMmaComplete_kept core s
  case accPoisonTrap k => exact execAccPoisonTrap_kept k s
  case accDrainComplete core n => exact execAccDrainComplete_kept core n s
  case accAllocGrant k => exact execAccAllocGrant_kept k s
  case accHoldRelease k => exact execAccHoldRelease_kept k s
  case followOnMma id => exact execFollowOnMma_kept id s
  case pageWalk site part va => exact execPageWalk_kept site part va s
  case homeAccess id lane => exact execHomeAccess_kept id lane s
  case memoryResponse id lane => exact execMemoryResponse_kept id lane s
  case writebackPerform core line => exact execWritebackPerform_kept core line s
  case bankAccess id lane => exact execBankAccess_kept id lane s
  case replicaApply part idx rep => exact execReplicaApply_kept part idx rep s
  case migrationReplay id lane => exact execMigrationReplay_kept id lane s
  case hostAccessError id lane => exact execHostAccessError_kept id lane s
  case completionTimeout id lane => exact execCompletionTimeout_kept id lane s
  case bredContribution id lane => exact execBredContribution_kept id lane s
  case bredResend id lane => exact execBredResend_kept id lane s
  case phaseReleaseComplete k tok => exact execPhaseReleaseComplete_kept k tok s
  case pwaitResume k => exact execPwaitResume_kept k s
  case releaseAtomicPerform id => exact execReleaseAtomicPerform_kept id s
  case hostWrite tag pa data => exact execHostWrite_kept tag pa data s
  case hostRead tag pa n => exact execHostRead_kept tag pa n s
  case barrierArrival k => exact execBarrierArrival_kept k s
  case batchArrival k j => exact execBatchArrival_kept k j s
  case barrierWaiterRelease k => exact execBarrierWaiterRelease_kept k s
  case copyAdmit k => exact execCopyAdmit_kept k s
  case copyStart id => exact execCopyStart_kept id s
  case copyWrite id n => exact execCopyWrite_kept id n s
  case copyComplete id => exact execCopyComplete_kept id s
  case cwaitResume k => exact execCwaitResume_kept k s
  case multicastShare id r => exact execMulticastShare_kept id r s
  case rangeHoldRelease k => exact execRangeHoldRelease_kept k s
  case queueHomeCheck id home => exact execQueueHomeCheck_kept id home s
  case queueApply id => exact execQueueApply_kept id s
  case queueTimerExpiry ctx kern node => exact execQueueTimerExpiry_kept ctx kern node s
  case teamLaunch ctx kern node => exact execTeamLaunch_kept ctx kern node s
  case rpopDelivery k => exact execRpopDelivery_kept k s
  case queueReopen ctx kern node => exact execQueueReopen_kept ctx kern node s
  case wakeEvent team => exact execWakeEvent_kept team s
  case sleepTimeout k => exact execSleepTimeout_kept k s
  case teamStart team => exact execTeamStart_kept team s
  case gridCounterFetch ctx grid site => exact execGridCounterFetch_kept ctx grid site s
  case gridTeamLaunch ctx grid site => exact execGridTeamLaunch_kept ctx grid site s
  case run vf line => exact execRun_kept vf line s
  case append vf line => exact execAppend_kept vf line s
  case endRun vf line => exact execEndRun_kept vf line s
  case runEnd ctx grid => exact execRunEnd_kept ctx grid s
  case castlingInterval part => exact execCastlingInterval_kept part s
  case teamStop team => exact execTeamStop_kept team s
  case castlingMove part ring => exact execCastlingMove_kept part ring s
  case castlingResume team => exact execCastlingResume_kept team s
  case pinLimit team => exact execPinLimit_kept team s
  case preemptBudgetExpiry ctx => exact execPreemptBudgetExpiry_kept ctx s
  case teamRestore ctx slot => exact execTeamRestore_kept ctx slot s
  case contextKillComplete ctx => exact execContextKillComplete_kept ctx s
  case contextScrubComplete ctx => exact execContextScrubComplete_kept ctx s
  case clear ctx mask => exact execClear_kept ctx mask s
  case eventsRead ctx => exact execEventsRead_kept ctx s
  case energyAccounting samples => exact execEnergyAccounting_kept samples s
  case flitArrival flit => exact execFlitArrival_kept flit s
  case siteFailure site routerOk => exact execSiteFailure_kept site routerOk s
  case routeRepair part table routes plan => exact execRouteRepair_kept part table routes plan s
  case lostAccessTimeout id lane => exact execLostAccessTimeout_kept id lane s
  case teamLocationLookup id => exact execTeamLocationLookup_kept id s
  case xsendDelivery id => exact execXsendDelivery_kept id s
  case xsendAcknowledgement id => exact execXsendAcknowledgement_kept id s
  case etselRead p => exact execEtselRead_kept p s
  case etselWrite p => exact execEtselWrite_kept p s
  case etselAtomic p => exact execEtselAtomic_kept p s
  case etselReadData p => exact execEtselReadData_kept p s
  case etselWriteAcknowledgement p => exact execEtselWriteAcknowledgement_kept p s
  case etselXsend p => exact execEtselXsend_kept p s
  case etselError p => exact execEtselError_kept p s
  case etselXsendAcknowledgement p => exact execEtselXsendAcknowledgement_kept p s
  case etselManagement p => exact execEtselManagement_kept p s
  case flitCrcFailure port => exact execFlitCrcFailure_kept port s
  case xoff port vl => exact execXoff_kept port vl s
  case xon port vl => exact execXon_kept port vl s
  case lossOfSignal port => exact execLossOfSignal_kept port s
  case laneFailure port => exact execLaneFailure_kept port s
  case trainingComplete port width full found => exact execTrainingComplete_kept port width full found s
  case trainingTimeout port => exact execTrainingTimeout_kept port s
  case hostCompletionTimeout port vf => exact execHostCompletionTimeout_kept port vf s
  case portIsolate port => exact execPortIsolate_kept port s
  case portFreeze port => exact execPortFreeze_kept port s
  case en port on => exact execEn_kept port on s
  case retrain port => exact execRetrain_kept port s
  case unfreeze port => exact execUnfreeze_kept port s
  case functionLevelReset vf => exact execFunctionLevelReset_kept vf s
  case spdmRequest req => exact execSpdmRequest_kept req s
  case lockInterface vf => exact execLockInterface_kept vf s
  case partCarve sites chans desc table port root => exact execPartCarve_kept sites chans desc table port root s
  case partGrow part sites chans table force => exact execPartGrow_kept part sites chans table force s
  case partShrink part sites chans force => exact execPartShrink_kept part sites chans force s
  case partCompact part map table plan force => exact execPartCompact_kept part map table plan force s
  case partQuota part desc force => exact execPartQuota_kept part desc force s
  case partQuiesce part => exact execPartQuiesce_kept part s
  case quiesceComplete part => exact execQuiesceComplete_kept part s
  case partExport part dest threshold force => exact execPartExport_kept part dest threshold force s
  case precopyRound part order => exact execPrecopyRound_kept part order s
  case partImport sites chans desc table => exact execPartImport_kept sites chans desc table s
  case exportRecord part r => exact execExportRecord_kept part r s
  case partExportDone part => exact execPartExportDone_kept part s
  case partAbort part => exact execPartAbort_kept part s
  case partDestroy part => exact execPartDestroy_kept part s
  case partitionScrubComplete part failed => exact execPartitionScrubComplete_kept part failed s
  case routesSet part routes => exact execRoutesSet_kept part routes s
  case castleSet part plan => exact execCastleSet_kept part plan s
  case ptInval part addr len => exact execPtInval_kept part addr len s
  case replicaSet part idx chans => exact execReplicaSet_kept part idx chans s
  case pinRelease part addr len => exact execPinRelease_kept part addr len s
  case pageRetire part frame into => exact execPageRetire_kept part frame into s
  case peerSet part entry peer => exact execPeerSet_kept part entry peer s
  case keySet part peer port key => exact execKeySet_kept part peer port key s
  case vfBind part port ctx force => exact execVfBind_kept part port ctx force s
  case ctxCreate part desc => exact execCtxCreate_kept part desc s
  case ctxDesc ctx desc => exact execCtxDesc_kept ctx desc s
  case ctxKill ctx => exact execCtxKill_kept ctx s
  case ctxPreempt ctx => exact execCtxPreempt_kept ctx s
  case ctxResume ctx => exact execCtxResume_kept ctx s
  case ctxFault ctx => exact execCtxFault_kept ctx s
  case kernLoad ctx image sizes plan => exact execKernLoad_kept ctx image sizes plan s
  case kernUnload ctx kern => exact execKernUnload_kept ctx kern s
  case planSet ctx kern plan => exact execPlanSet_kept ctx kern plan s
  case portCtl port value => exact execPortCtl_kept port value s
  case status part => exact execStatus_kept part s
  case logRead site => exact execLogRead_kept site s
  case wrecRead => exact execWrecRead_kept s
  case moduleReset => exact execModuleReset_kept s
  case controlInterval pnow avg samples => exact execControlInterval_kept pnow avg samples s
  case fastLimiterSample watts => exact execFastLimiterSample_kept watts s
  case powerControlWrite site value => exact execPowerControlWrite_kept site value s
  case readGrant core => exact execReadGrant_kept core s
  case stallCountExpiry k => exact execStallCountExpiry_kept k s
  case reservedMajorOpcode w => exact execReservedMajorOpcode_kept w s
  case launchLineWrite vf off data => exact execLaunchLineWrite_kept vf off data s
  case commandLineWrite port off data => exact execCommandLineWrite_kept port off data s
  case hostPortCompletion id lane => exact execHostPortCompletion_kept id lane s
  case startInterface vf => exact execStartInterface_kept vf s
  case stopInterface vf => exact execStopInterface_kept vf s

/-! ### The schedule and the step -/

theorem KeptBy.of_imp {s u : State} {r : Res} (hr : KeptBy s r) (h : MemoriesWf u → MemoriesWf s) : KeptBy u r := by
  obtain ⟨t, he, ht⟩ := hr
  exact ⟨t, he, ht ∘ h⟩

theorem KeptBy.getD_wf {s u : State} {r : Res} (hr : KeptBy s r) (hw : MemoriesWf s) : MemoriesWf (Res.getD r u) := by
  obtain ⟨t, rfl, ht⟩ := hr
  exact ht hw

theorem issueFetched_kept (s : State) : KeptBy s (issueFetched s) := by
  have hf := (State.fetchIssue_wf s s.cur).2
  unfold issueFetched
  split
  next he => exact ⟨_, rfl, by simpa [he] using hf⟩
  next he => exact ⟨_, rfl, by simpa [he] using hf⟩
  next he => exact ⟨_, rfl, by simpa [he] using hf⟩
  next he => exact (exec_kept _ _).of_imp (by simpa [he] using hf)
  next he =>
    split
    · exact (exec_kept _ _).of_imp (by simpa [he] using hf)
    · exact ⟨_, rfl, by simpa [he] using hf⟩

theorem issueTurn_kept (k : Nat) (s : State) : KeptBy s (issueTurn k s) := by
  have hb := (State.boundary_wf s k).2
  unfold issueTurn
  split
  next he => exact ⟨_, rfl, by simpa [he] using hb⟩
  next he => exact (issueFetched_kept _).of_imp (by simpa [he] using hb)

theorem State.tried_wf (s : State) (k : Nat) (hw : MemoriesWf s) : MemoriesWf (s.tried k) :=
  (issueTurn_kept _ _).getD_wf (by simp [hw])

theorem State.gate_wf (s : State) (k : Nat) (hw : MemoriesWf s) : MemoriesWf (s.gate k) := by
  have hb := (State.boundary_wf s k).2 hw
  unfold State.gate
  extract_lets g
  refine memoriesWf_cases (fun _ => hw) fun _ => ?_
  split
  next he => simpa [he] using hb
  next s1 he =>
    have h1 : MemoriesWf s1 := by simpa [he] using hb
    have h2 := State.tried_wf s1 k h1
    dsimp only
    repeat' split
    all_goals simp [h1, h2]

theorem State.openIssues_wf (s : State) (hw : MemoriesWf s) : MemoriesWf s.openIssues :=
  memoriesWf_foldl _ (fun s c h => by simp [memoriesWf_foldl _ State.gate_wf h]) (by simp [hw])

theorem runTurn_kept (t : Turn) (s : State) : KeptBy s (runTurn t s) := by
  cases t with
  | event _ e => exact iteInduction (motive := KeptBy s) (fun _ => exec_kept e s) fun _ => ⟨s, rfl, id⟩
  | evict _ c n => exact ⟨_, rfl, fun hw => by simp [hw]⟩
  | svcRead _ c a n => exact ⟨_, rfl, fun hw => by simp [hw]⟩
  | svcFetch _ c a => exact ⟨_, rfl, fun hw => by simp [hw]⟩
  | plugin _ x c a n => exact ⟨_, rfl, fun hw => by simp [hw]⟩
  | barRead _ v o n => exact ⟨_, rfl, fun hw => by simp [hw]⟩

theorem State.close_wf (s : State) (hw : MemoriesWf s) : MemoriesWf s.close := by
  simp [State.close, hw]

theorem State.tick_wf (s : State) : MemoriesWf s.tick ↔ MemoriesWf s := by
  unfold State.tick
  extract_lets s1 timed
  have h1 : MemoriesWf s1 ↔ MemoriesWf s := State.pass_wf s.snapshot 1
  rw [← h1]
  split <;> rfl

theorem issueNext_kept (s : State) : KeptBy s (issueNext s) := by
  unfold issueNext
  split
  · exact ⟨_, rfl, State.close_wf s⟩
  · exact iteInduction (motive := KeptBy s) (fun _ => exec_kept _ s) fun _ => (issueTurn_kept _ _).of_imp id

theorem step_kept (s : State) : KeptBy s (step s) := by
  unfold step
  split
  · exact (runTurn_kept _ _).of_imp id
  · split
    · exact (issueNext_kept _).of_imp (State.openIssues_wf s)
    · exact issueNext_kept s
    · exact ⟨_, rfl, (State.tick_wf s).2⟩


/-! ### The obligations -/

/-- Settles O40: each arm of `exec` and each turn of the schedule answers a next state (R2). -/
theorem everyStepGoesOn : Obligations.EveryStepGoesOn :=
  ⟨fun i s => (exec_kept i s).imp fun _ => And.left, fun s => (step_kept s).imp fun _ => And.left⟩

/-- Settles O39: canonical memories are kept by every function that a step is made of, up to `step_kept`. -/
theorem memoriesKept : Obligations.MemoriesKept := by
  intro s t hw hs
  obtain ⟨t', hs', ht⟩ := step_kept s
  cases hs.symm.trans hs'
  exact ht hw

end Sys2Proof.Machine
end

section
/-!
PROOF of O60: power (R381 to R384, R386). What `State.everyTile` leaves in a tile, one equation per row of the table of R381, and the sums
of the energy account.
-/

namespace Sys2Proof.Machine

/-! ### Reading a rebuilt map -/

section
variable {α : Type} (d : α)

theorem smGet_eq_default {m : SMap α} {k : Nat} (h : ∀ e ∈ m, e.1 ≠ k) : smGet d m k = d := by
  induction m with
  | nil => rfl
  | cons e r ih =>
    obtain ⟨he, hr⟩ := List.forall_mem_cons.1 h
    rw [smGet, if_neg he, ih hr]

theorem smGet_filterMap [DecidableEq α] (l : List Nat) (F : Nat → α) (k : Nat) :
    smGet d (l.filterMap fun t => if F t = d then none else some (t, F t)) k = if k ∈ l then F k else d := by
  induction l with
  | nil => rfl
  | cons t l ih =>
    by_cases hF : F t = d
    · by_cases hk : k = t
      · subst hk
        simp [hF, ih]
      · simp [hF, ih, hk]
    · by_cases hk : k = t
      · subst hk
        simp [hF, smGet]
      · simp [hF, smGet, ih, hk, Ne.symm hk]

theorem smGet_map_snd (g : α → α) (hg : g d = d) (m : SMap α) (k : Nat) :
    smGet d (m.map fun e => (e.1, g e.2)) k = g (smGet d m k) := by
  induction m with
  | nil => exact hg.symm
  | cons e r ih =>
    by_cases he : e.1 = k
    · simp [smGet, he]
    · simp [smGet, he, ih]

/-- In a sorted map no second entry of the key shows when an entry that holds the default goes. -/
theorem smGet_filter_default [DecidableEq α] {m : SMap α} (hm : smSorted m = true) (k : Nat) :
    smGet d (m.filter fun e => e.2 != d) k = smGet d m k := by
  rw [smSorted_iff] at hm
  induction hm with
  | nil => rfl
  | @cons e r hlt _ ih =>
    by_cases hd : e.2 = d
    · rw [List.filter_cons_of_neg (by simp [hd]), ih, smGet]
      split
      next he => rw [smGet_eq_default d fun x hx => by have := hlt x hx; omega, hd]
      · rfl
    · rw [List.filter_cons_of_pos (by simp [hd]), smGet, smGet, ih]

theorem smSorted_smSet [DecidableEq α] {m : SMap α} (k : Nat) (v : α) (h : smSorted m = true) : smSorted (smSet d m k v) = true := by
  unfold smSet
  split
  · exact (smSorted_iff _).2 (((smSorted_iff m).1 h).filter _)
  · exact smSorted_smPut k v h

theorem smSorted_map_snd (g : α → α) {m : SMap α} (h : smSorted m = true) : smSorted (m.map fun e => (e.1, g e.2)) = true :=
  (smSorted_iff _).2 (List.pairwise_map.2 ((smSorted_iff m).1 h))

end

/-! ### Tiles at a control interval -/

/-- What `State.everyTile` makes of a tile. -/
def State.changedTile (s : State) (f : Nat → Tile → Tile) (t : Nat) : Tile :=
  if s.site t = .good || s.site t = .spare then f t (s.tile t) else s.tile t

theorem State.everyTile_tiles (s : State) (f : Nat → Tile → Tile) :
    (s.everyTile f).tiles
      = (List.range 4608).filterMap fun t => if s.changedTile f t = {} then none else some (t, s.changedTile f t) := by
  unfold State.everyTile
  generalize List.range 4608 = l
  rfl

theorem State.tile_everyTile {s : State} {n : Nat} (f : Nat → Tile → Tile) (hn : n < 4608) (hs : s.site n = .good ∨ s.site n = .spare) :
    (s.everyTile f).tile n = f n (s.tile n) := by
  rw [State.tile, State.everyTile_tiles, smGet_filterMap, if_pos (List.mem_range.2 hn), State.changedTile, if_pos (by simpa using hs)]

theorem State.sameMemory_everyTile (s : State) (f : Nat → Tile → Tile) : SameMemory s (s.everyTile f) := by
  unfold State.everyTile
  exact ⟨fun _ => rfl, fun _ => rfl, fun _ => rfl, rfl, rfl, rfl⟩

section
variable (x : Tile) {now avg plim temp : Nat}

theorem Tile.govern_gmax : (x.govern now avg plim temp).gmax = x.gmax := by
  unfold Tile.govern
  repeat' split
  all_goals rfl

theorem Tile.govern_ctl : (x.govern now avg plim temp).ctl = x.ctl := by
  unfold Tile.govern
  repeat' split
  all_goals rfl

theorem Tile.govern_of_overload (h : 2950 ≤ now) :
    x.govern now avg plim temp = { x.setRation (x.ration - 2) with lclk := max x.lmin (x.lclk - 1) } :=
  if_pos h

theorem Tile.govern_of_over_limit (h : now < 2950) (ha : plim < avg) (hr : x.ration ≠ 1) :
    x.govern now avg plim temp = x.setRation (x.ration - 1) := by
  simp [Tile.govern, Nat.not_le.2 h, ha, hr]

theorem Tile.govern_of_over_limit_one (h : now < 2950) (ha : plim < avg) (hr : x.ration = 1) :
    x.govern now avg plim temp = { x with lclk := max x.lmin (x.lclk - 1) } := by
  simp [Tile.govern, Nat.not_le.2 h, ha, hr]

theorem Tile.govern_of_hot (h : now < 2950) (ha : avg ≤ plim) (ht : 95 ≤ temp) :
    x.govern now avg plim temp = { x.setRation x.ration with lclk := max x.lmin (x.lclk - 1) } := by
  simp only [Tile.govern, Nat.not_le.2 h, Nat.not_lt.2 ha, ht, if_true, if_false]
  rfl

theorem Tile.govern_of_room (h : now < 2950) (ht : temp ≤ 85) (ha : 20 * avg ≤ 19 * plim) :
    x.govern now avg plim temp
      = if x.gmax ≤ x.ration then { x.setRation x.ration with lclk := min x.lmax (x.lclk + 1) } else x.setRation (x.ration + 1) := by
  have h1 : ¬plim < avg := by omega
  have h2 : ¬95 ≤ temp := by omega
  simp [Tile.govern, Nat.not_le.2 h, h1, h2, ht, ha]

theorem Tile.govern_of_steady (h : now < 2950) (ha : avg ≤ plim) (ht : temp < 95) (hn : ¬(temp ≤ 85 ∧ 20 * avg ≤ 19 * plim)) :
    x.govern now avg plim temp = x.setRation x.ration := by
  simp [Tile.govern, Nat.not_le.2 h, Nat.not_lt.2 ha, Nat.not_le.2 ht, hn]

end

section
variable {s : State} {n pnow early : Nat} {ps : List PowerSample}

theorem execControlInterval_idle (h : ¬18000 ∣ s.time.toNat ∨ s.ctlAt = s.time.toNat + 1) :
    execControlInterval pnow early ps s = .next s := by
  rw [Nat.dvd_iff_mod_eq_zero] at h
  simp [execControlInterval, h]

/-- At its interval a good or spare tile takes the row of the table that `govern` picks, and its tempo. -/
theorem controlInterval_tile (hd : 18000 ∣ s.time.toNat) (ha : s.ctlAt ≠ s.time.toNat + 1) (hn : n < 4608)
    (hs : s.site n = .good ∨ s.site n = .spare) {m : PowerSample}
    (hm : (ps.find? fun y => y.site = n).getD { site := n, temp := (s.tile n).temp, power := (s.tile n).power } = m)
    {past : List Nat} (hp : (s.nextPnow pnow :: s.pnows).take 10000 = past) {avg : Nat}
    (hv : (if past.length < 10000 then early else past.sum / 10000) = avg) {y : Tile}
    (hy : (s.tile n).control.govern (s.nextPnow pnow) avg s.limit m.temp = y) :
    Completes (.controlInterval pnow early ps) s fun t =>
      t.pnow = s.nextPnow pnow ∧ t.tile n = { y with
        temp := min 255 m.temp, tempo := m.power < floorOf (s.tile n).power s.pnow s.limit
        power := max m.power (floorOf (s.tile n).power s.pnow s.limit) } := by
  subst hy hv hp hm
  refine ⟨_, congrArg Host.Outcome.next (if_neg (by simp [Nat.mod_eq_zero_of_dvd hd, ha])), rfl, ?_⟩
  exact State.tile_everyTile _ hn hs

end

theorem fastLimiterSample_completes {s : State} {n : Nat} (hn : n < 4608) (hs : s.site n = .good ∨ s.site n = .spare) :
    Completes (.fastLimiterSample 29500) s fun t => t.tile n = (s.tile n).setRation 1 ∧ SameMemory s t := by
  have h := State.tile_everyTile (fun _ x => x.setRation 1) hn hs
  -- the map is named, so that no unification evaluates its 4,608 entries
  generalize hu : (s.everyTile fun _ x => x.setRation 1) = u at h
  have hm : SameMemory s u := by
    rw [← hu]
    exact State.sameMemory_everyTile s _
  refine ⟨{ u with limited := true }, ?_, h, hm⟩
  rw [← hu]
  exact congrArg Host.Outcome.next (if_neg (lt_irrefl _))

/-! ### The energy account -/

theorem foldl_modCtx_eq (F : Nat × Nat → Ctx → Ctx) (l : List (Nat × Nat)) (s : State) :
    l.foldl (fun s e => s.modCtx e.1 (F e)) s = { s with ctxs := (l.foldl (fun s e => s.modCtx e.1 (F e)) s).ctxs } := by
  induction l generalizing s with
  | nil => rfl
  | cons e l ih => exact ih (s.modCtx e.1 (F e))

theorem ctx_foldl_modCtx_of_notMem (F : Nat × Nat → Ctx → Ctx) {l : List (Nat × Nat)} (s : State) {c : Nat} (hc : c ∉ l.map Prod.fst) :
    (l.foldl (fun s e => s.modCtx e.1 (F e)) s).ctx c = s.ctx c := by
  induction l generalizing s with
  | nil => rfl
  | cons e l ih =>
    obtain ⟨h1, h2⟩ := not_or.1 (List.mem_cons.not.1 hc)
    rw [List.foldl_cons, ih _ h2, State.ctx_modCtx, if_neg h1]

theorem ctx_foldl_modCtx_of_mem (F : Nat × Nat → Ctx → Ctx) {l : List (Nat × Nat)} (hl : (l.map Prod.fst).Nodup) (s : State)
    {e : Nat × Nat} (he : e ∈ l) : (l.foldl (fun s e => s.modCtx e.1 (F e)) s).ctx e.1 = F e (s.ctx e.1) := by
  induction l generalizing s with
  | nil => cases he
  | cons a l ih =>
    obtain ⟨ha, hl⟩ := List.nodup_cons.1 hl
    rw [List.foldl_cons]
    rcases List.mem_cons.1 he with rfl | he
    · rw [ctx_foldl_modCtx_of_notMem F _ ha, State.ctx_modCtx, if_pos rfl]
    · have hne : e.1 ≠ a.1 := fun h => ha (h ▸ List.mem_map_of_mem he)
      rw [ih hl _ he, State.ctx_modCtx, if_neg hne]

/-- The part of a sample that falls to a context with `n` slot-FCLK (R386). -/
def State.share (s : State) (m : EnergySample) (n : Nat) : Nat :=
  if ((s.tile m.site).occ.map Prod.snd).sum = 0 then 0 else (m.energy - m.ballast) * n / ((s.tile m.site).occ.map Prod.snd).sum

/-- The shares of a sample credited to the contexts of its tile. -/
def State.credited (s : State) (m : EnergySample) : State :=
  (s.tile m.site).occ.foldl (fun t e => t.modCtx e.1 fun x => { x with energy := x.energy + BitVec.ofNat 64 (s.share m e.2) }) s

/-- A sample charged to its tile, and what its contexts were not given of it to OVHD. -/
def State.charged (s : State) (m : EnergySample) (given : Nat) : State :=
  { s.modTile m.site fun x => { x with energy := x.energy + BitVec.ofNat 64 m.energy } with
    ovhd := s.ovhd + BitVec.ofNat 64 (m.energy - given) }

theorem State.energy_tile_charged (s : State) (m : EnergySample) (given : Nat) :
    ((s.charged m given).tile m.site).energy = (s.tile m.site).energy + BitVec.ofNat 64 m.energy := by
  have h := State.tile_modTile s m.site m.site fun x => { x with energy := x.energy + BitVec.ofNat 64 m.energy }
  rw [if_pos rfl] at h
  exact congrArg Tile.energy h

theorem State.account_eq_charged {s : State} {m : EnergySample} (h : ∀ e ∈ (s.tile m.site).occ, (s.ctx e.1).st ≠ .destroyed) :
    s.account m = (s.credited m).charged m ((s.tile m.site).occ.map fun e => s.share m e.2).sum := by
  unfold State.account
  rw [List.filter_eq_self.2 fun e he => by simpa using h e he]
  rfl

theorem State.credited_eq (s : State) (m : EnergySample) : s.credited m = { s with ctxs := (s.credited m).ctxs } :=
  foldl_modCtx_eq _ _ s

theorem tiles_energyAccounting {tiles : SMap Tile} (h : smSorted tiles = true) (k : Nat) :
    smGet {} ((tiles.map fun e => (e.1, ({ e.2 with occ := [] } : Tile))).filter fun e => e.2 != {}) k
      = { smGet {} tiles k with occ := [] } :=
  (smGet_filter_default {} (smSorted_map_snd (fun x : Tile => { x with occ := [] }) h) k).trans
    (smGet_map_snd {} (fun x : Tile => { x with occ := [] }) rfl tiles k)

theorem execEnergyAccounting_eq {s : State} (h : 1800000 ∣ s.time.toNat) (m : EnergySample) :
    execEnergyAccounting [m] s = .next { s.account m with
      tiles := ((s.account m).tiles.map fun e => (e.1, { e.2 with occ := [] })).filter fun e => e.2 != {} } :=
  congrArg Host.Outcome.next (if_neg (by simp [Nat.mod_eq_zero_of_dvd h]))

theorem energyAccounting_completes {s : State} {m : EnergySample} (ht : 1800000 ∣ s.time.toNat) (hm : smSorted s.tiles = true)
    (hnd : ((s.tile m.site).occ.map Prod.fst).Nodup) (hlive : ∀ e ∈ (s.tile m.site).occ, (s.ctx e.1).st ≠ .destroyed) :
    Completes (.energyAccounting [m]) s fun t =>
      (∀ e ∈ (s.tile m.site).occ, (t.ctx e.1).energy = (s.ctx e.1).energy + BitVec.ofNat 64 (s.share m e.2))
        ∧ t.ovhd = s.ovhd + BitVec.ofNat 64 (m.energy - ((s.tile m.site).occ.map fun e => s.share m e.2).sum)
        ∧ (t.tile m.site).energy = (s.tile m.site).energy + BitVec.ofNat 64 m.energy ∧ (t.tile m.site).occ = [] ∧ SameMemory s t := by
  have htile : ((s.account m).tile m.site).energy = (s.tile m.site).energy + BitVec.ofNat 64 m.energy := by
    rw [State.account_eq_charged hlive, State.energy_tile_charged, State.credited_eq]
    rfl
  have hsorted : smSorted (s.account m).tiles = true := by
    rw [State.account_eq_charged hlive, State.credited_eq]
    exact smSorted_smSet {} _ _ hm
  have hread := tiles_energyAccounting hsorted m.site
  refine ⟨_, execEnergyAccounting_eq ht m, ?_, ?_, (congrArg Tile.energy hread).trans htile, congrArg Tile.occ hread, ?_⟩
  · intro e he
    rw [State.account_eq_charged hlive]
    exact congrArg Ctx.energy (ctx_foldl_modCtx_of_mem
      (fun e x => { x with energy := x.energy + BitVec.ofNat 64 (s.share m e.2) }) hnd s he)
  · rw [State.account_eq_charged hlive, State.credited_eq]
    rfl
  · rw [State.account_eq_charged hlive, State.credited_eq]
    exact ⟨fun _ => rfl, fun _ => rfl, fun _ => rfl, rfl, rfl, rfl⟩

/-- Settles O60: each row of the table is a case of `Tile.govern`, and the account is a fold over the contexts of the tile. -/
theorem powerEvents : Obligations.PowerEvents := by
  intro s
  refine ⟨fun pnow early ps => ⟨fun h => ⟨s, execControlInterval_idle h, rfl⟩, ?_⟩, fun n hn hs => fastLimiterSample_completes hn hs,
    fun n w hn => ?_, fun m ht hm => energyAccounting_completes ht hm⟩
  · intro n hd ha hn hs x plim now past avg gmax lmax lmin r l m temp floor within next
    have row {ration lclk : Nat} {y : Tile} (hy : x.control.govern now avg plim temp = y) (hr : y.ration = within ration)
        (hl : y.lclk = lclk) : next ration lclk := by
      obtain ⟨t, he, hp, ht⟩ := controlInterval_tile (ps := ps) (early := early) (pnow := pnow) hd ha hn hs rfl rfl rfl hy
      refine ⟨t, he, ?_⟩
      dsimp only
      rw [ht]
      refine ⟨hr, hl, ?_, ?_, rfl, decide_eq_true_iff, hp⟩
      · rw [← hy]; exact Tile.govern_gmax _
      · rw [← hy]; exact Tile.govern_ctl _
    refine ⟨fun h => ?_, fun h h1 h2 => ?_, fun h h1 h2 => ?_, fun h h1 h2 => ?_, fun h h1 h2 h3 => ?_, fun h h1 h2 h3 => ?_,
      fun h h1 h2 h3 => ?_⟩
    · exact row (Tile.govern_of_overload _ h) rfl rfl
    · exact row (Tile.govern_of_over_limit _ h h1 h2) rfl rfl
    · refine row (Tile.govern_of_over_limit_one _ h h1 h2) ?_ rfl
      show r = if gmax = 0 then 0 else max 1 (min gmax r)
      split <;> omega
    · exact row (Tile.govern_of_hot _ h h1 h2) rfl rfl
    · exact row ((Tile.govern_of_room _ h h1 h2).trans (if_neg (Nat.not_le.2 h3))) rfl rfl
    · exact row ((Tile.govern_of_room _ h h1 h2).trans (if_pos h3)) rfl rfl
    · exact row (Tile.govern_of_steady _ h h1 h2 h3) rfl rfl
  · refine ⟨_, congrArg Host.Outcome.next (if_neg (Nat.not_le.2 hn)), ?_, fun k hk => ?_⟩
    · rw [State.tile_modTile, if_pos rfl]
    · rw [State.tile_modTile, if_neg hk]

end Sys2Proof.Machine
end

section
/-!
PROOF of O37: instruction fetch (R16, R25, R190). A fetch is a check of the page and a word of the line of the instruction cache;
a fill reads the line at its home, whose ECC and L2 bookkeeping leaves every byte of device memory as it is.
-/

namespace Sys2Proof.Machine

/-! ### Counters and events of a context -/

/-- What a counter adds to a context (R200). -/
def Ctx.counted (x : Ctx) (i : Fin 8) (n : Nat) : Ctx :=
  { x with counts := x.counts.set i (BitVec.ofNat 32 (min (2 ^ 32 - 1) (x.counts[i].toNat + n))) }

/-- What an event raises in a context (R329). -/
def Ctx.raised (x : Ctx) (now : Word) (n : Nat) : Ctx :=
  { x with events := x.oldEvents now, evNew := x.newEvents now ||| (1 <<< n), evTime := now }

theorem State.ctxCount_eq {s : State} {c n : Nat} (i : Fin 8) (hc : c < 4096) (hn : n ≠ 0) :
    s.ctxCount c i n = s.modCtx c fun x => x.counted i n :=
  if_neg (by simp [hn, hc])

/-- An event changes its context, and at most an interrupt leaves the module with it. -/
theorem State.ctxEvent_cases {s : State} {c : Nat} (n : Nat) (hc : c < 4096) :
    s.ctxEvent c n = (s.modCtx c fun x => x.raised s.time n)
      ∨ ∃ o, s.ctxEvent c n = (s.modCtx c fun x => x.raised s.time n).emit o := by
  unfold State.ctxEvent
  rw [if_neg (Nat.not_le.2 hc)]
  dsimp only
  split
  · exact .inr ⟨_, rfl⟩
  · exact .inl rfl

theorem State.ctx_ctxEvent {s : State} {c : Nat} (n j : Nat) (hc : c < 4096) :
    (s.ctxEvent c n).ctx j = if j = c then (s.ctx c).raised s.time n else s.ctx j := by
  rcases s.ctxEvent_cases n hc with h | ⟨o, h⟩ <;> simp [h]

theorem Ctx.raised_raised (x : Ctx) (now : Word) {n : Nat} (hn : n < 8) : Raised (x.raised now n) n := by
  have h : ((1 : Byte) <<< n).getLsbD n = true := by simp [hn]
  unfold Raised Ctx.raised
  rw [BitVec.getLsbD_or, BitVec.getLsbD_or]
  exact Bool.or_eq_true_iff.2 (.inr (Bool.or_eq_true_iff.2 (.inr h)))

@[simp] theorem State.ctxCount_mem (s : State) (c : Nat) (i : Fin 8) (n : Nat) : (s.ctxCount c i n).mem = s.mem := by
  unfold State.ctxCount
  split <;> rfl

@[simp] theorem State.ctxEvent_mem (s : State) (c n : Nat) : (s.ctxEvent c n).mem = s.mem := by
  by_cases hc : c < 4096
  · rcases s.ctxEvent_cases n hc with h | ⟨o, h⟩ <;> simp [h]
  · exact congrArg State.mem (if_pos (Nat.not_lt.1 hc))

@[simp] theorem State.hostErr_mem (s : State) (c : Nat) : (s.hostErr c).mem = s.mem := by simp [State.hostErr]

/-- An access that ended in an error adds 1 to HOSTERR of its context (R200). -/
theorem State.counts_hostErr (s : State) {c : Nat} (hc : c < 4096) :
    ((s.hostErr c).ctx c).counts[3] = BitVec.ofNat 32 (min (2 ^ 32 - 1) ((s.ctx c).counts[3].toNat + 1)) := by
  unfold State.hostErr
  rw [State.ctx_ctxEvent 4 c hc, if_pos rfl, State.ctxCount_eq 3 hc one_ne_zero, State.ctx_modCtx, if_pos rfl]
  simp [Ctx.raised, Ctx.counted]

/-! ### A read at the home leaves memory as it is (R195, R198) -/

theorem foldl_mem {α : Type} {f : State → α → State} (h : ∀ s a, (f s a).mem = s.mem) (l : List α) (s : State) :
    (l.foldl f s).mem = s.mem := by
  induction l generalizing s with
  | nil => rfl
  | cons a l ih => exact (ih _).trans (h s a)

@[simp] theorem State.setStore_bytesOf_mem (s : State) (x : Store) (p : SMap Bool) : (s.setStore x (s.bytesOf x) p).mem = s.mem := by
  cases x <;> rfl

@[simp] theorem State.eccMeet_mem (s : State) (c : Nat) (x : Store) (w : Nat) : (s.eccMeet c x w).mem = s.mem := by
  unfold State.eccMeet
  dsimp only
  split
  · rfl
  · simp
  · rw [State.ctxCount_mem]
    exact State.setStore_bytesOf_mem _ x _

@[simp] theorem State.eccCount_mem (s : State) (c n1 n2 : Nat) : (s.eccCount c n1 n2).mem = s.mem := by simp [State.eccCount]

@[simp] theorem State.l2Meet_mem (s : State) (c ln : Nat) (m : BitVec 32) : (s.l2Meet c ln m).mem = s.mem := by
  unfold State.l2Meet
  dsimp only
  split <;> simp

@[simp] theorem State.l2Clean_mem (s : State) (c ln : Nat) : (s.l2Clean c ln).mem = s.mem := by
  unfold State.l2Clean
  dsimp only
  split
  · rfl
  · exact State.l2Meet_mem ..

@[simp] theorem State.l2Make_mem (s : State) (c ln : Nat) : (s.l2Make c ln).mem = s.mem := by
  unfold State.l2Make
  dsimp only
  split
  · rfl
  · split
    · exact State.l2Clean_mem ..
    · rfl

@[simp] theorem State.l2Fetch_mem (s : State) (c pa n : Nat) (wr : Bool) : (s.l2Fetch c pa n wr).mem = s.mem :=
  foldl_mem (fun _ _ => State.eccMeet_mem ..) _ _

@[simp] theorem State.l2Touch_mem (s : State) (c pa n cls : Nat) (wr : Bool) : (s.l2Touch c pa n cls wr).mem = s.mem := by
  unfold State.l2Touch
  split
  · rfl
  · simp

theorem State.rdStore_mem (s : State) (c : Nat) (x : Store) (a n : Nat) : (s.rdStore c x a n).1.mem = s.mem :=
  foldl_mem (fun _ _ => State.eccMeet_mem ..) _ _

/-- A read of a frame that the partition owns gives the bytes of memory (R356). -/
theorem State.homeRd_of_owns {s : State} {tag pa : Nat} (c n cls : Nat) (h : s.owns tag pa = true) :
    ∃ t ps, s.homeRd tag c pa n cls = (t, some (memRead s.mem pa n, ps)) ∧ t.mem = s.mem := by
  unfold State.homeRd
  rw [if_pos h]
  split
  · refine ⟨_, _, Prod.ext rfl (congrArg some (Prod.ext ?_ rfl)), ?_⟩
    · exact congrArg (memRead · pa n) ((State.l2Touch_mem ..).trans (State.l2Fetch_mem ..))
    · exact (State.l2Touch_mem ..).trans (State.l2Fetch_mem ..)
  · refine ⟨_, _, Prod.ext rfl (congrArg some (Prod.ext ?_ rfl)), State.rdStore_mem ..⟩
    exact congrArg (memRead · pa n) (State.rdStore_mem s c .hbm pa n)

theorem State.homeRd_of_not_owns {s : State} {tag pa : Nat} (c n cls : Nat) (h : s.owns tag pa = false) :
    s.homeRd tag c pa n cls = (s.tagDrop tag, none) :=
  if_neg (by simp [h])

/-! ### The line of an address -/

/-- The `m` bytes of a read that begin `o` bytes behind its start. -/
theorem memRead_drop_take (mem : Memory) {a o m n : Nat} (h : o + m ≤ n) :
    ((memRead mem a n).drop o).take m = memRead mem (a + o) m := by
  apply List.ext_getElem
  · simp [memRead]; omega
  · intro i h1 h2
    simp [memRead, Nat.add_assoc]

/-- The word of an address in a line of zeros. -/
theorem leNat_replicate_zero (n : Nat) : leNat (List.replicate n (0 : Byte)) = 0 := by
  induction n with
  | zero => rfl
  | succ n ih => exact (congrArg (fun x => 0 + 256 * x) ih).trans rfl

/-- A word of an aligned address lies in the 64-byte line of its physical address. -/
theorem leNat_line (mem : Memory) {pa a : Nat} (hpa : pa % 64 = a % 64) (h4 : 4 ∣ a) :
    leNat (((memRead mem (pa / 64 * 64) 64).drop (a % 64)).take 4) = memLoad mem pa 4 := by
  rw [memRead_drop_take mem (by omega), ← hpa, Nat.div_add_mod']
  rfl

/-- Pages of at least 64 KiB keep the place of an address in its line. -/
theorem leafPa_mod_line {e size a : Nat} (h : 65536 ∣ size) : leafPa e size a % 64 = a % 64 := by
  have hs : 64 ∣ size := dvd_trans (by decide) h
  have : a % size % 64 = a % 64 := Nat.mod_mod_of_dvd a hs
  unfold leafPa
  omega

theorem State.owns_line (s : State) (tag pa : Nat) : s.owns tag (pa / 64 * 64) = s.owns tag pa := by
  unfold State.owns
  rw [show pa / 64 * 64 / 65536 = pa / 65536 by omega]

/-! ### Fetch -/

/-- The translation that a TLB entry gives. -/
def TlbEnt.xlate (e : TlbEnt) (va : Nat) : Xlate :=
  { leaf := e.leaf.toNat, pa := leafPa e.leaf.toNat e.size va, base := e.base, size := e.size }

theorem State.globalCheck_of_maps {s : State} {k : Nat} {a : Word} {acc : Acc1} {e : TlbEnt} (h : Maps s k a acc e) :
    s.globalCheck (siteOf k) (s.ctx (s.grp k).ctx).part a acc = (s, .ok (e.xlate a.toNat)) := by
  obtain ⟨ha, he, hf⟩ := h
  have hhigh : (a.toNat / 2 ^ 56 != 0) = false := by simp only [Nat.div_eq_of_lt ha, bne_self_eq_false]
  unfold State.globalCheck State.xlate
  simp only [hhigh, he, hf, Bool.false_eq_true, if_false, TlbEnt.xlate]

theorem State.fetchWord_of_maps {s : State} {k : Nat} {a : Word} {e : TlbEnt} (h : Maps s k a .fetch e) :
    s.fetchWord k a =
      (((s.icacheWord (coreOf k) (s.ctx (s.grp k).ctx).part (s.grp k).ctx a (e.xlate a.toNat)).1),
        .ok (s.icacheWord (coreOf k) (s.ctx (s.grp k).ctx).part (s.grp k).ctx a (e.xlate a.toNat)).2) := by
  unfold State.fetchWord
  dsimp only
  rw [State.globalCheck_of_maps h]

/-- The word of a line that the cache holds (R16). -/
theorem State.icacheWord_of_find {s : State} {core p c : Nat} {a : Word} {x : Xlate} {y : Nat × List Byte}
    (h : ((s.core core).icache.find? fun e => e.1 = l1Key p a.toNat) = some y) :
    s.icacheWord core p c a x = (s, BitVec.ofNat 32 (leNat ((y.2.drop (a.toNat % 64)).take 4))) := by
  unfold State.icacheWord
  dsimp only
  rw [h]

/-- The word of a line that is filled first (R16). -/
theorem State.icacheWord_of_fill {s t : State} {core p c : Nat} {a : Word} {x : Xlate} {v : List Byte}
    (h : ((s.core core).icache.find? fun e => e.1 = l1Key p a.toNat) = none) (hf : s.icacheFill core p c a x = (t, v)) :
    s.icacheWord core p c a x = (t, BitVec.ofNat 32 (leNat ((v.drop (a.toNat % 64)).take 4))) := by
  unfold State.icacheWord
  dsimp only
  rw [h]
  dsimp only
  rw [hf]

section
variable {s : State} {core p ctx : Nat} {a : Word} {x : Xlate}

/-- A line of device memory that its partition owns and reaches is filled from memory. -/
theorem State.icacheFill_of_owns (ht : leafTgt x.leaf = 0) (hr : leafRep x.leaf = none)
    (hn : s.cutBoth p (core / 4) (s.homeSite (x.pa / 64 * 64)) = false) (ho : s.owns p x.pa = true) :
    ∃ t, s.icacheFill core p ctx a x = (t, memRead s.mem (x.pa / 64 * 64) 64) ∧ t.mem = s.mem := by
  obtain ⟨t, ps, he, hm⟩ := State.homeRd_of_owns ctx 64 0 ((s.owns_line p x.pa).trans ho)
  refine ⟨_, Prod.ext rfl ?_, ?_⟩
  all_goals simp [State.icacheFill, State.seqPa, ht, hr, hn, he, hm]

/-- A line that is cut off or owned by another reads 0, and ends with an error of the context. -/
theorem State.icacheFill_of_lost (ht : leafTgt x.leaf = 0) (hr : leafRep x.leaf = none) (hc : ctx < 4096)
    (h : s.cutBoth p (core / 4) (s.homeSite (x.pa / 64 * 64)) = true ∨ s.owns p x.pa = false) :
    ∃ t, s.icacheFill core p ctx a x = (t, List.replicate 64 0) ∧ t.mem = s.mem
      ∧ (t.ctx ctx).counts[3] = BitVec.ofNat 32 (min (2 ^ 32 - 1) ((s.ctx ctx).counts[3].toNat + 1)) := by
  by_cases hn : s.cutBoth p (core / 4) (s.homeSite (x.pa / 64 * 64)) = true
  · refine ⟨_, Prod.ext rfl ?_, ?_, ?_⟩
    · simp [State.icacheFill, State.seqPa, ht, hr, hn]
    · simp [State.icacheFill, State.seqPa, ht, hr, hn, State.routeDrop]
    · simpa [State.icacheFill, State.seqPa, ht, hr, hn, State.routeDrop] using State.counts_hostErr (s.routeDrop p) hc
  · have ho := (s.owns_line p x.pa).trans (h.resolve_left hn)
    have he := State.homeRd_of_not_owns ctx 64 0 ho
    refine ⟨_, Prod.ext rfl ?_, ?_, ?_⟩
    · simp [State.icacheFill, State.seqPa, ht, hr, hn, he]
    · simp [State.icacheFill, State.seqPa, ht, hr, hn, he, State.tagDrop]
    · simpa [State.icacheFill, State.seqPa, ht, hr, hn, he, State.tagDrop] using State.counts_hostErr (s.tagDrop p) hc

end

/-- Settles O37: a line that the cache does not hold is filled, from memory or with zeros, and gives its word. -/
theorem fetchReadsMemory : Obligations.FetchReadsMemory := by
  intro s k a e hmaps ht hr h4 hsize p pa line near
  have hsite : coreOf k / 4 = siteOf k := Nat.div_div_eq_div_mul k 16 4
  have hfetch := State.fetchWord_of_maps hmaps
  refine ⟨fun hl hnear ho => ?_, fun hl hlost hc => ?_, fun x hx => ?_⟩
  · obtain ⟨t, hf, hm⟩ := State.icacheFill_of_owns (core := coreOf k) (ctx := (s.grp k).ctx) (a := a) (x := e.xlate a.toNat) ht hr
      (hsite ▸ hnear) ho
    rw [State.icacheWord_of_fill hl hf] at hfetch
    refine ⟨t, hfetch.trans ?_, hm⟩
    rw [show (e.xlate a.toNat).pa = pa from rfl, leNat_line s.mem (leafPa_mod_line hsize) h4]
  · have hcut : s.cutBoth p (coreOf k / 4) (s.homeSite ((e.xlate a.toNat).pa / 64 * 64)) = true ∨ s.owns p (e.xlate a.toNat).pa = false :=
      hlost.imp_left fun h => hsite ▸ Bool.not_eq_false _ ▸ h
    obtain ⟨t, hf, hm, hcount⟩ := State.icacheFill_of_lost (ctx := (s.grp k).ctx) (a := a) ht hr hc hcut
    rw [State.icacheWord_of_fill hl hf] at hfetch
    refine ⟨t, hfetch.trans ?_, hm, hcount⟩
    rw [List.drop_replicate, List.take_replicate, leNat_replicate_zero]
    rfl
  · rw [hfetch, State.icacheWord_of_find hx]

end Sys2Proof.Machine
end


section
/-!
REFUTATION of O53: castling and restoring of teams. The statement is about every state, also about one whose list of groups names a slot
twice, and there a group that left its slot with the image of its team is not gone: an entry behind it, which no read of the slot finds,
still waits at a barrier of the team.
-/

namespace Sys2Proof.Machine

/-- A stopped group with the ERR of its bind record, whose complete batch 0 is bound to barrier 0 (R257, R259). -/
def stoppedAtBarrier : Group where
  st := .stopped
  err := true
  batch := { issued := 1, done := 1, slots := Vector.ofFn fun i => { bound := decide (i.val = 0) } }

/-- Team 0 stops for castling, its release is complete, and barrier 0 has one member. Slot 0 is listed twice: a read finds the stopped
group, and the entry behind it is a group of the team that waits at barrier 0. -/
def twiceListed : State where
  groups := [(0, stoppedAtBarrier), (0, { st := .held, batch := { bvValid := true } })]
  teams := [(0, { st := .stopping, bars := Vector.ofFn fun i => if i.val = 0 then 0x10000 else 0, rel := some {} })]
  ctxs := [(0, { st := .running })]

/-- The batch of the image arrives at the barrier, whose phase completes and ends the wait of the entry behind: the slot that the group left
is written again (R246). -/
theorem ended_teamStop_twiceListed : ((Res.getD (exec (.teamStop 0) twiceListed) {}).grp 0).ended = some false := by decide +kernel

/-- Refutes O53: after the stop of `twiceListed` slot 0 is not free with its ERR alone. -/
theorem not_castlingEvents : ¬ Obligations.CastlingEvents := by
  intro h
  obtain ⟨t, hexec, -, -, -, hgrp, -⟩ :=
    (h twiceListed).2.1 0 {} rfl rfl rfl (by decide +kernel) rfl (by decide +kernel)
  have hfree : t.grp 0 = { err := true } := hgrp 0 (by decide +kernel)
  have hended := ended_teamStop_twiceListed
  rw [hexec] at hended
  have hnone : (t.grp 0).ended = none := congrArg Group.ended hfree
  exact absurd (hnone.symm.trans hended) (by decide)

end Sys2Proof.Machine
end

section
/-!
REFUTATION of O57: flits, sites and ports. The statement has a flit without permission count 1 in TAGDROP of its partition. Its copy ends
with CODE 6 in the batch of its group, and where the team of the group is saved the group's part of the image follows in the save area
(R252, R312): where the save area lies in frames of another partition those writes are dropped too, and TAGDROP counts them as well (R356).
-/

namespace Sys2Proof.Machine

/-- A flit of copy 1 of partition 0 that comes over link 0 of site 0, which the router permits nobody. -/
def strayFlit : Flit := { inLink := 0, op := 1 }

/-- Copy 1 is of a group of team 0, which is saved. Partition 0 owns frame 0, where its page table maps the save area of context 0, from
2^29 on, to frames from 8,192 on that it does not own. -/
def strayImage : State where
  owner := [(0, 1)]
  mem := [(7, 0x80), (11, 0x20), (15, 0xC0)]
  copies := [{ id := 1, kind := .plain, gid := 0, team := 0, site := 0, part := 0, batch := 0 }]
  teams := [(0, { st := .saved, image := some { groups := [(0, 0, {})] } })]
  ctxs := [(0, { st := .running, desc := { savebase := 2 ^ 29 } })]

/-- The flit counts 1, and the three lines of the group's part of the image that follow its batch count 3. -/
theorem tagdrop_flitArrival_strayImage :
    ((Res.getD (exec (.flitArrival strayFlit) strayImage) {}).part 0).tagdrop = 4 := by decide +kernel

/-- Refutes O57: the one flit adds 4 to TAGDROP in `strayImage`. -/
theorem not_meshAndPortEvents : ¬ Obligations.MeshAndPortEvents := by
  intro h
  obtain ⟨t, hexec, -, hcount⟩ := ((h.1 strayImage).1 strayFlit (by decide)).2 (by decide) (by decide)
  have hone : (t.part 0).tagdrop = 1 := hcount
  have hfour := tagdrop_flitArrival_strayImage
  rw [hexec] at hfour
  exact absurd (hone.symm.trans hfour) (by decide)

end Sys2Proof.Machine
end

section
/-!
SUPPORT of O46. Writes to the state window of a group and to the record of an accumulator (R100, R101, R181). A write of aligned bytes sets the
value behind them to the number that the bytes make, under the mask of the bits that may be written.
-/

namespace Sys2Proof.Machine

/-! ### Values that are written a byte at a time (R4, R101, R181) -/

/-- The value after the bytes of a list are written into it one after the other, from byte `j`. -/
def bytesInto {α : Type} (w : α → Nat → Byte → α) : α → Nat → List Byte → α
  | x, _, [] => x
  | x, j, b :: bs => bytesInto w (w x j b) (j + 1) bs

theorem testBit_leNat (bs : List Byte) (i : Nat) : (leNat bs).testBit i = (bs.getD (i / 8) 0).getLsbD (i % 8) := by
  induction bs generalizing i with
  | nil => simp [leNat]
  | cons b bs ih =>
    rw [leNat, Nat.add_comm, show (256 : Nat) = 2 ^ 8 from rfl, Nat.testBit_two_pow_mul_add _ b.isLt]
    split
    next h => rw [Nat.div_eq_of_lt h, Nat.mod_eq_of_lt h]; rfl
    next h => rw [ih, show i / 8 = (i - 8) / 8 + 1 by omega, show i % 8 = (i - 8) % 8 by omega]; rfl

/-- A writer of bytes replaces the bits of byte `j` that `m` has. -/
def WritesByte {w : Nat} (m : BitVec w) (f : BitVec w → Nat → Byte → BitVec w) : Prop :=
  ∀ x j b i, i < w → j < 8 → (f x j b).getLsbD i = if i / 8 = j ∧ m.getLsbD i = true then b.getLsbD (i % 8) else x.getLsbD i

theorem getLsbD_bytesInto {w : Nat} {m : BitVec w} {f : BitVec w → Nat → Byte → BitVec w} (hf : WritesByte m f) (bs : List Byte) (x : BitVec w)
    (j i : Nat) (hi : i < w) (hj : j + bs.length ≤ 8) :
    (bytesInto f x j bs).getLsbD i
      = if (j ≤ i / 8 ∧ i / 8 < j + bs.length) ∧ m.getLsbD i = true then (bs.getD (i / 8 - j) 0).getLsbD (i % 8) else x.getLsbD i := by
  induction bs generalizing x j with
  | nil => rw [if_neg (by simp only [List.length_nil]; omega)]; rfl
  | cons b bs ih =>
    rw [List.length_cons] at hj ⊢
    rw [bytesInto, ih _ _ (by omega), hf x j b i hi (by omega)]
    by_cases hm : m.getLsbD i = true
    · by_cases h : i / 8 = j
      · simp [hm, h]
      · by_cases h' : j + 1 ≤ i / 8 ∧ i / 8 < j + 1 + bs.length
        · rw [if_pos ⟨h', hm⟩, if_pos ⟨by omega, hm⟩, show i / 8 - j = i / 8 - (j + 1) + 1 by omega]
          rfl
        · rw [if_neg fun c => h' c.1, if_neg fun c => h c.1, if_neg fun c => h' (by omega)]
    · simp [hm]

/-- Every byte of a value written: its bits under the mask are those of the number that the bytes make. -/
theorem bytesInto_eq {w : Nat} {m : BitVec w} {f : BitVec w → Nat → Byte → BitVec w} (hf : WritesByte m f) (x : BitVec w) {bs : List Byte}
    (hw : w = 8 * bs.length) (h8 : bs.length ≤ 8) :
    bytesInto f x 0 bs = (BitVec.ofNat w (leNat bs) &&& m) ||| (x &&& ~~~m) := by
  apply BitVec.eq_of_getLsbD_eq
  intro i hi
  rw [getLsbD_bytesInto hf bs x 0 i hi (by omega)]
  simp only [BitVec.getLsbD_or, BitVec.getLsbD_and, BitVec.getLsbD_not, BitVec.getLsbD_ofNat, hi, decide_true, Bool.true_and, testBit_leNat]
  cases hm : m.getLsbD i
  · simp
  · rw [if_pos ⟨by omega, rfl⟩]
    simp

theorem getLsbD_wordByte (x : Word) {j i : Nat} (b : Byte) (hi : i < 64) :
    (wordByte x j b).getLsbD i = if i / 8 = j then b.getLsbD (i % 8) else x.getLsbD i := by
  have hff : (0xFF : Word) = (BitVec.allOnes 8).setWidth 64 := by decide
  simp only [wordByte, hff, BitVec.getLsbD_or, BitVec.getLsbD_and, BitVec.getLsbD_not, BitVec.getLsbD_shiftLeft, BitVec.truncate_eq_setWidth,
    BitVec.getLsbD_setWidth, BitVec.getLsbD_allOnes, hi, decide_true, Bool.true_and]
  by_cases hlow : i < 8 * j
  · rw [if_neg (by omega)]
    simp [hlow]
  · by_cases hj : i / 8 = j
    · rw [if_pos hj, show i - 8 * j = i % 8 by omega]
      simp [hlow, show i % 8 < 8 by omega, show i % 8 < 64 by omega]
    · rw [if_neg hj, BitVec.getLsbD_of_ge b _ (by omega)]
      simp [show ¬ i - 8 * j < 8 by omega]

theorem wordByte_writesByte : WritesByte (BitVec.allOnes 64) wordByte := by
  intro x j b i hi _
  rw [getLsbD_wordByte x b hi, BitVec.getLsbD_allOnes]
  simp only [hi, decide_true, and_true]

theorem pcvByte_writesByte : WritesByte 0x00FFFFFFFFFFFFFC pcvByte := by
  intro x j b i hi _
  simp only [pcvByte, BitVec.getLsbD_or, BitVec.getLsbD_and, BitVec.getLsbD_not, getLsbD_wordByte x b hi, hi, decide_true, Bool.true_and]
  cases BitVec.getLsbD (0x00FFFFFFFFFFFFFC : Word) i <;> simp

/-- Byte `j` of an element of an accumulator. -/
def elemByte (x : Word32) (j : Nat) (b : Byte) : Word32 := (wordByte (x.setWidth 64) j b).setWidth 32

theorem elemByte_writesByte : WritesByte (BitVec.allOnes 32) elemByte := by
  intro x j b i hi _
  rw [elemByte, BitVec.getLsbD_setWidth, getLsbD_wordByte _ b (by omega), BitVec.getLsbD_setWidth, BitVec.getLsbD_allOnes]
  simp only [hi, show i < 64 by omega, decide_true, Bool.true_and, and_true]

/-! ### Writes to the state window (R101) -/

/-- Where each byte of a window value goes into `φ` of the group by `w`, bytes written one after the other do. -/
theorem winWrites_bytesInto {α : Type} {I : Group → Prop} {φ : Group → α} {w : α → Nat → Byte → α} {a : Nat}
    (h : ∀ g j b, I g → j < 8 → ∃ g', g.winWrite (a + j) b = some g' ∧ φ g' = w (φ g) j b ∧ I g')
    (bs : List Byte) (g : Group) (j : Nat) (hg : I g) (hj : j + bs.length ≤ 8) :
    ∃ g', g.winWrites (a + j) bs = some g' ∧ φ g' = bytesInto w (φ g) j bs := by
  induction bs generalizing g j with
  | nil => exact ⟨g, rfl, rfl⟩
  | cons b bs ih =>
    rw [List.length_cons] at hj
    obtain ⟨g1, hw1, hφ1, hg1⟩ := h g j b hg (by omega)
    obtain ⟨g2, hw2, hφ2⟩ := ih g1 (j + 1) hg1 (by omega)
    refine ⟨g2, ?_, ?_⟩
    · rw [Group.winWrites, hw1]
      exact hw2
    · rw [hφ2, hφ1]
      rfl

/-- A v register in a lane (R101). -/
theorem Group.winWrite_v (g : Group) {n j : Nat} (l : LaneId) (b : Byte) (hn : n < 128) (hr : n < g.regs) (hj : j < 8) :
    g.winWrite (256 * n + 8 * l.val + j) b
      = some (g.wrV n (1 <<< l.val) fun i => { g.rdV n i with val := wordByte (g.rdV n i).val j b }) := by
  have hl := l.isLt
  unfold Group.winWrite
  rw [if_pos (by omega), show (256 * n + 8 * l.val + j) / 256 = n by omega, show (256 * n + 8 * l.val + j) / 8 % 32 = l.val by omega,
    show (256 * n + 8 * l.val + j) % 8 = j by omega]
  exact congrArg some (if_pos hr)

/-- An s register (R101). -/
theorem Group.winWrite_s (g : Group) {n j : Nat} (b : Byte) (hn : n < 64) (hj : j < 8) :
    g.winWrite (0x9000 + 8 * n + j) b = some (g.wrS n { g.rdS n with val := wordByte (g.rdS n).val j b }) := by
  unfold Group.winWrite
  rw [if_neg (by omega), if_neg (by omega), if_pos (by omega), show (0x9000 + 8 * n + j - 0x9000) / 8 = n by omega,
    show (0x9000 + 8 * n + j) % 8 = j by omega]

/-- The pcv of a lane (R101). -/
theorem Group.winWrite_pcv (g : Group) {j : Nat} (l : LaneId) (b : Byte) (hj : j < 8) :
    g.winWrite (0x9400 + 8 * l.val + j) b = some (g.modLane l.val fun x => { x with pcv := pcvByte x.pcv j b }) := by
  have hl := l.isLt
  unfold Group.winWrite
  simp (disch := omega) only [Bool.and_eq_true, decide_eq_true_eq, if_neg, if_pos]
  rw [show (0x9400 + 8 * l.val + j - 0x9400) / 8 = l.val by omega, show (0x9400 + 8 * l.val + j) % 8 = j by omega]

/-- sr.srseed (R101). -/
theorem Group.winWrite_srseed (g : Group) {j : Nat} (b : Byte) (hj : j < 8) :
    g.winWrite (0x9F70 + j) b = some { g with srseed := wordByte g.srseed j b } := by
  unfold Group.winWrite
  simp (disch := omega) only [Bool.and_eq_true, decide_eq_true_eq, if_neg, if_pos]
  rw [show (0x9F70 + j - 0x9F00) / 8 = 0x0E by omega, show (0x9F70 + j) % 8 = j by omega]
  rfl

/-- Behind the layout no offset is assigned (R101). -/
theorem Group.winWrite_none (g : Group) {o : Nat} (b : Byte) (ho : 0x9F88 ≤ o) : g.winWrite o b = none := by
  unfold Group.winWrite
  simp (disch := omega) only [Bool.and_eq_true, decide_eq_true_eq, if_neg]

/-! ### The state window (R100, R101) -/

theorem GState.halted_iff (g : GState) : g.halted = true ↔ g = .trapped ∨ g = .suspended := by simp [GState.halted]

section
variable {s : State} {k off : Nat} {data : List Byte}

/-- The window of a group that is neither trapped nor suspended is closed. -/
theorem execStateWindowWrite_of_not_halted (h : (s.grp k).st.halted = false) :
    execStateWindowWrite k off data s = .next (s.emit (.accessFault (0x2000000000 + 65536 * slotOf k + off) 0)) := by
  simp [execStateWindowWrite, h]

/-- A write that the layout admits changes the group. -/
theorem execStateWindowWrite_of_some {g : Group} (h : (s.grp k).st.halted = true) (hw : (s.grp k).winWrites off data = some g) :
    execStateWindowWrite k off data s = .next (s.setGrp k g) := by
  simp [execStateWindowWrite, h, hw]

/-- A write behind the layout faults. -/
theorem execStateWindowWrite_of_behind (h : (s.grp k).st.halted = true) (ho : 0x9F88 ≤ off) (hd : data ≠ []) :
    execStateWindowWrite k off data s = .next (s.emit (.accessFault (0x2000000000 + 65536 * slotOf k + off) 0)) := by
  obtain ⟨b, bs, rfl⟩ := List.exists_cons_of_ne_nil hd
  simp [execStateWindowWrite, h, Group.winWrites, Group.winWrite_none _ _ ho]

/-- A write of eight bytes to a value of the window: the group after it reads as the bytes make it. -/
theorem completes_stateWindowWrite {α : Type} {I : Group → Prop} {φ : Group → α} {w : α → Nat → Byte → α}
    (h : ∀ g j b, I g → j < 8 → ∃ g', g.winWrite (off + j) b = some g' ∧ φ g' = w (φ g) j b ∧ I g') (hI : I (s.grp k))
    (hh : (s.grp k).st.halted = true) (hlen : data.length = 8) :
    Completes (.stateWindowWrite k off data) s fun t => φ (t.grp k) = bytesInto w (φ (s.grp k)) 0 data := by
  obtain ⟨g, hw, hφ⟩ := winWrites_bytesInto h data (s.grp k) 0 hI (by omega)
  refine ⟨s.setGrp k g, execStateWindowWrite_of_some hh hw, ?_⟩
  dsimp only
  rw [State.grp_setGrp, if_pos rfl]
  exact hφ

/-- Byte `j` of a register, whose poison stays. -/
def Reg.putByte (r : Reg) (j : Nat) (b : Byte) : Reg := { r with val := wordByte r.val j b }

theorem bytesInto_regByte (r : Reg) (j : Nat) (bs : List Byte) : bytesInto Reg.putByte r j bs = { r with val := bytesInto wordByte r.val j bs } := by
  induction bs generalizing r j with
  | nil => rfl
  | cons b bs ih => exact ih _ _

theorem bytesInto_wordByte (x : Word) (h : data.length = 8) : bytesInto wordByte x 0 data = BitVec.ofNat 64 (leNat data) := by
  rw [bytesInto_eq wordByte_writesByte x (by omega) (by omega), BitVec.and_allOnes, BitVec.not_allOnes, BitVec.and_zero, BitVec.or_zero]

theorem getLsbD_one_shiftLeft (l : LaneId) : ((1 <<< l.val : Nat) : LaneMask).getLsbD l.val = true := by
  rw [Nat.one_shiftLeft, BitVec.natCast_eq_ofNat, BitVec.getLsbD_ofNat, Nat.testBit_two_pow_self]
  simp

@[simp] theorem Group.wrV_regs (g : Group) (n : Nat) (m : LaneMask) (r : LaneId → Reg) : (g.wrV n m r).regs = g.regs := by
  simp only [Group.wrV]

theorem completes_stateWindowWrite_v {n : Nat} {l : LaneId} (hh : (s.grp k).st.halted = true) (hlen : data.length = 8)
    (hoff : off = 256 * n + 8 * l.val) (hr : n < (s.grp k).regs) (hn : n < 128) :
    Completes (.stateWindowWrite k off data) s fun t =>
      (t.grp k).rdV n l = { (s.grp k).rdV n l with val := BitVec.ofNat 64 (leNat data) } := by
  subst hoff
  rw [← bytesInto_wordByte ((s.grp k).rdV n l).val hlen, ← bytesInto_regByte]
  refine completes_stateWindowWrite (I := fun g => n < g.regs) (φ := fun g => g.rdV n l) (w := Reg.putByte) (fun g j b hg hj => ?_) hr hh hlen
  refine ⟨_, Group.winWrite_v g l b hn hg hj, ?_, (Group.wrV_regs ..).symm ▸ hg⟩
  dsimp only
  rw [Group.rdV_wrV, if_pos ⟨rfl, getLsbD_one_shiftLeft l⟩]
  rfl

theorem completes_stateWindowWrite_s {n : Nat} (hh : (s.grp k).st.halted = true) (hlen : data.length = 8)
    (hoff : off = 0x9000 + 8 * n) (h0 : 0 < n) (hn : n < 64) :
    Completes (.stateWindowWrite k off data) s fun t =>
      (t.grp k).rdS n = { (s.grp k).rdS n with val := BitVec.ofNat 64 (leNat data) } := by
  subst hoff
  rw [← bytesInto_wordByte ((s.grp k).rdS n).val hlen, ← bytesInto_regByte]
  refine completes_stateWindowWrite (I := fun _ => True) (φ := fun g => g.rdS n) (w := Reg.putByte) (fun g j b _ hj => ?_) trivial hh hlen
  refine ⟨_, Group.winWrite_s g b hn hj, ?_, trivial⟩
  dsimp only
  rw [Group.rdS_wrS, if_neg (by omega), if_pos rfl]
  rfl

theorem Group.modLane_lane (g : Group) (l : LaneId) (f : Lane → Lane) : (g.modLane l.val f).lane[l] = f g.lane[l] := by
  simp only [Group.modLane, Group.mapLanes, Fin.getElem_fin, Vector.getElem_ofFn]
  exact if_pos (getLsbD_one_shiftLeft l)

theorem completes_stateWindowWrite_pcv {l : LaneId} (hh : (s.grp k).st.halted = true) (hlen : data.length = 8)
    (hoff : off = 0x9400 + 8 * l.val) :
    Completes (.stateWindowWrite k off data) s fun t =>
      (t.grp k).lane[l].pcv
        = (BitVec.ofNat 64 (leNat data) &&& 0x00FFFFFFFFFFFFFC) ||| ((s.grp k).lane[l].pcv &&& 0xFF00000000000003) := by
  subst hoff
  rw [show (0xFF00000000000003 : Word) = ~~~0x00FFFFFFFFFFFFFC from rfl, ← bytesInto_eq pcvByte_writesByte _ (by omega) (by omega)]
  refine completes_stateWindowWrite (I := fun _ => True) (φ := fun g => g.lane[l].pcv) (w := pcvByte) (fun g j b _ hj => ?_) trivial hh hlen
  refine ⟨_, Group.winWrite_pcv g l b hj, ?_, trivial⟩
  exact congrArg Lane.pcv (Group.modLane_lane g l _)

theorem completes_stateWindowWrite_srseed (hh : (s.grp k).st.halted = true) (hlen : data.length = 8) (hoff : off = 0x9F70) :
    Completes (.stateWindowWrite k off data) s fun t => (t.grp k).srseed = BitVec.ofNat 64 (leNat data) := by
  subst hoff
  rw [← bytesInto_wordByte (s.grp k).srseed hlen]
  refine completes_stateWindowWrite (I := fun _ => True) (φ := Group.srseed) (w := wordByte) (fun g j b _ hj => ?_) trivial hh hlen
  exact ⟨_, Group.winWrite_srseed g b hj, rfl, trivial⟩

end

/-! ### Accumulator records (R181) -/

theorem smGet_recWrite (a : Acc) {n j : Nat} (b : Byte) (hn : n < 4096) (hj : j < 4) :
    smGet 0 (a.recWrite (4 * n + j) b).c n = elemByte (smGet 0 a.c n) j b := by
  unfold Acc.recWrite
  rw [if_pos (by omega), show (4 * n + j) / 4 = n by omega, show (4 * n + j) % 4 = j by omega, smGet_smSet, if_pos rfl]
  rfl

theorem smGet_recWrites (a : Acc) {n j : Nat} (bs : List Byte) (hn : n < 4096) (hj : j + bs.length ≤ 4) :
    smGet 0 (a.recWrites (4 * n + j) bs).c n = bytesInto elemByte (smGet 0 a.c n) j bs := by
  induction bs generalizing a j with
  | nil => rfl
  | cons b bs ih =>
    rw [List.length_cons] at hj
    rw [Acc.recWrites, Nat.add_assoc, ih _ (by omega), smGet_recWrite a b hn (by omega)]
    rfl

theorem Core.acc_of_lt (c : Core) {n : Nat} (hn : n < 8) : c.acc n = c.accs[n] := by simp [Core.acc, hn]

theorem State.acc_modAcc (s : State) (c : Nat) {n : Nat} (f : Acc → Acc) (hn : n < 8) :
    ((s.modAcc c n f).core c).acc n = f ((s.core c).acc n) := by
  simp [State.modAcc, Core.acc_of_lt _ hn]

/-- The conditions of R181 as the model tests them. -/
def State.recordBarred (s : State) (c n off len : Nat) : Bool :=
  !(n < 8 && ((s.core c).acc n).st != .free && ((s.core c).acc n).st != .draining && (s.grp ((s.core c).acc n).owner).st.halted)
    || ((s.core c).executing.any fun m => m.acc = n) || 0x4340 < off + len

theorem execAccRecordWrite_eq (c n off : Nat) (data : List Byte) (s : State) :
    execAccRecordWrite c n off data s = .next (if s.recordBarred c n off data.length then
      s.emit (.accessFault (0x2000100000 + 65536 * n + off) 0) else s.modAcc c n fun a => a.recWrites off data) := rfl

theorem State.recordBarred_eq_false (s : State) (c n off len : Nat) :
    s.recordBarred c n off len = false ↔
      n < 8 ∧ ((s.core c).acc n).st ≠ .free ∧ ((s.core c).acc n).st ≠ .draining
        ∧ ((s.grp ((s.core c).acc n).owner).st = .trapped ∨ (s.grp ((s.core c).acc n).owner).st = .suspended)
        ∧ (∀ m, (s.core c).executing = some m → m.acc ≠ n) ∧ off + len ≤ 0x4340 := by
  have hbusy : (((s.core c).executing.any fun m => m.acc = n) = false) ↔ ∀ m, (s.core c).executing = some m → m.acc ≠ n := by
    cases (s.core c).executing <;> simp
  simp only [State.recordBarred, Bool.or_eq_false_iff, Bool.not_eq_false', Bool.and_eq_true, decide_eq_true_eq, bne_iff_ne, GState.halted_iff,
    hbusy, decide_eq_false_iff_not, Nat.not_lt, and_assoc]

theorem execAccRecordWrite_of_barred {c n off : Nat} {data : List Byte} {s : State} (h : s.recordBarred c n off data.length = true) :
    execAccRecordWrite c n off data s = .next (s.emit (.accessFault (0x2000100000 + 65536 * n + off) 0)) := by
  rw [execAccRecordWrite_eq, if_pos h]

theorem bytesInto_elemByte (x : Word32) {data : List Byte} (h : data.length = 4) :
    bytesInto elemByte x 0 data = BitVec.ofNat 32 (leNat data) := by
  rw [bytesInto_eq elemByte_writesByte x (by omega) (by omega), BitVec.and_allOnes, BitVec.not_allOnes, BitVec.and_zero, BitVec.or_zero]

/-- A write of the four bytes of an element. -/
theorem completes_accRecordWrite {c n off : Nat} {data : List Byte} {s : State} (h : s.recordBarred c n off data.length = false) (hn : n < 8)
    (h4 : 4 ∣ off) (hoff : off < 0x4000) (hlen : data.length = 4) :
    Completes (.accRecordWrite c n off data) s fun t => smGet 0 ((t.core c).acc n).c (off / 4) = BitVec.ofNat 32 (leNat data) := by
  obtain ⟨e, rfl⟩ := h4
  refine ⟨s.modAcc c n fun a => a.recWrites (4 * e) data, ?_, ?_⟩
  · refine (execAccRecordWrite_eq ..).trans ?_
    rw [if_neg (by simp [h])]
  · beta_reduce
    rw [State.acc_modAcc s c _ hn, Nat.mul_div_cancel_left e (by decide)]
    exact (smGet_recWrites _ (j := 0) data (by omega) (by omega)).trans (bytesInto_elemByte _ hlen)

end Sys2Proof.Machine
end

section
/-!
SUPPORT of O46. Commands to a slot and records in it (R100, R102, R299). A resume lets the group of a slot go on with its lanes and registers
and changes no byte of memory; a kill withdraws its operations on queues, cancels its MMAs and ends its lanes.
-/

namespace Sys2Proof.Machine

/-! ### A fold over states -/

/-- What no step of a fold changes is as it was. -/
theorem foldl_unchanged {σ α β : Type} (φ : σ → β) {f : σ → α → σ} (h : ∀ s a, φ (f s a) = φ s) (l : List α) (s : σ) :
    φ (l.foldl f s) = φ s := by
  induction l generalizing s with
  | nil => rfl
  | cons a l ih => exact (ih _).trans (h s a)

/-! ### The resume command (R86, R102, R179) -/

/-- A group that goes on: ready or held, with its lanes and its registers. -/
def GoesOn (g h : Group) : Prop := (h.st = .ready ∨ h.st = .held) ∧ h.lane = g.lane ∧ SameRegs h g

theorem GoesOn.trans {a b c : Group} (h : GoesOn a b) (k : GoesOn b c) : GoesOn a c := by
  obtain ⟨-, hl, hr⟩ := h
  obtain ⟨kst, kl, kr⟩ := k
  exact ⟨kst, kl.trans hl, kr.trans hr⟩

theorem SameRegs.sameBut {g h : Group} (e : SameRegs g h) : SameBut [] g h :=
  ⟨fun n _ l => e.rdV n l, fun n _ => e.rdS n, fun n _ => e.rdP n⟩

theorem Group.lanesWhere_ne_zero {g : Group} {p : Lane → Bool} (l : LaneId) (h : p g.lane[l] = true) : g.lanesWhere p ≠ 0 := by
  intro h0
  have hbit : (g.lanesWhere p).getLsbD l = true := by simpa [Group.lanesWhere] using h
  simp [h0] at hbit

/-- A ready group with a lane that can run settles ready or held. -/
theorem Group.goesOn_settle {g : Group} (l : LaneId) (hst : g.st = .ready) (hlive : g.lane[l].st = .live) (hyld : g.lane[l].yld = false) :
    GoesOn g g.settle := by
  have hrun : g.runnable ≠ 0 := Group.lanesWhere_ne_zero l (by rw [hlive, hyld]; rfl)
  have hun : g.unexited ≠ 0 := Group.lanesWhere_ne_zero l (by rw [hlive]; rfl)
  have hwatch : ∀ y, y = (if g.parked = 0 then { g with elapsed := 0, sub := 0 } else g) → GoesOn g y ∧ y.st = .ready ∧ y.unexited ≠ 0 := by
    rintro _ rfl
    split
    · exact ⟨⟨.inl hst, rfl, rfl, rfl, rfl, rfl, rfl, rfl, rfl, rfl, rfl, rfl⟩, hst, hun⟩
    · exact ⟨⟨.inl hst, rfl, .refl g⟩, hst, hun⟩
  have hparked (x : Group) (hx : x.st = .ready) (hxu : x.unexited ≠ 0) : GoesOn x (if x.st = .ready || x.st = .held then
      if x.unexited = 0 then { x.sealOpen with st := .draining, hold := .none }
      else if x.select.isNone then { x with st := .held, hold := .parked } else x
    else x) := by
    rw [if_pos (by simp [hx]), if_neg hxu]
    split
    · exact ⟨.inr rfl, rfl, rfl, rfl, rfl, rfl, rfl, rfl, rfl, rfl, rfl, rfl⟩
    · exact ⟨.inl hx, rfl, .refl x⟩
  obtain ⟨hgo, hready, hleft⟩ := hwatch _ rfl
  unfold Group.settle
  rw [if_neg hrun]
  exact hgo.trans (hparked _ hready hleft)

/-- The resume of faulted MMAs changes cores only. -/
theorem State.resumeAccs_eq (s : State) (k : Nat) : ∃ cores, s.resumeAccs k = { s with cores } := by
  unfold State.resumeAccs
  generalize List.range 8 = l
  induction l generalizing s with
  | nil => exact ⟨s.cores, rfl⟩
  | cons i l ih =>
    rw [List.foldl_cons]
    split
    · split
      · obtain ⟨cores, h⟩ := ih (s.reenter _ _)
        exact ⟨cores, h⟩
      · exact ih s
    · exact ih s

theorem State.holdNow_cases (s : State) (k : Nat) : s.holdNow k = s ∨ ∃ h t, s.holdNow k = s.holdGrp k h t := by
  unfold State.holdNow
  split
  · split
    · exact .inr ⟨_, _, rfl⟩
    · exact .inl rfl
  · exact .inl rfl

theorem State.rewait_cases (s : State) (k : Nat) :
    s.rewait k = s ∨ ∃ ended, s.rewait k = s.modGrp k fun g => { g with st := .held, hold := .bwait, ended } := by
  unfold State.rewait
  dsimp only
  split
  · exact .inl rfl
  · exact .inr ⟨_, rfl⟩

theorem sameMemory_refl (s : State) : SameMemory s s := ⟨fun _ => rfl, fun _ => rfl, fun _ => rfl, rfl, rfl, rfl⟩

theorem sameMemory_modGrp {s t : State} (k : Nat) (f : Group → Group) (h : SameMemory s t) : SameMemory s (t.modGrp k f) := h

theorem sameMemory_modTeam {s t : State} (tk : Nat) (f : Team → Team) (h : SameMemory s t) : SameMemory s (t.modTeam tk f) := h

/-- No byte of memory changes, and group `k` goes on. -/
def GrpGoesOn (k : Nat) (s t : State) : Prop := SameMemory s t ∧ GoesOn (s.grp k) (t.grp k)

theorem GrpGoesOn.modGrp {k : Nat} {s t : State} {f : Group → Group} (h : GrpGoesOn k s t) (hf : ∀ g, GoesOn g (f g)) :
    GrpGoesOn k s (t.modGrp k f) := by
  obtain ⟨hm, hg⟩ := h
  refine ⟨sameMemory_modGrp k f hm, ?_⟩
  rw [State.grp_modGrp, if_pos rfl]
  exact hg.trans (hf _)

theorem GrpGoesOn.holdNow {k : Nat} {s t : State} (h : GrpGoesOn k s t) : GrpGoesOn k s (t.holdNow k) := by
  obtain he | ⟨hold, till, he⟩ := t.holdNow_cases k
  · rwa [he]
  · rw [he]
    exact h.modGrp fun g => ⟨.inr rfl, rfl, rfl, rfl, rfl, rfl, rfl, rfl, rfl, rfl, rfl, rfl⟩

theorem GrpGoesOn.rewait {k : Nat} {s t : State} (h : GrpGoesOn k s t) : GrpGoesOn k s (t.rewait k) := by
  obtain he | ⟨ended, he⟩ := t.rewait_cases k
  · rwa [he]
  · rw [he]
    exact h.modGrp fun g => ⟨.inr rfl, rfl, rfl, rfl, rfl, rfl, rfl, rfl, rfl, rfl, rfl, rfl⟩

/-- A group with a lane that can run goes on with a resume. -/
theorem State.grpGoesOn_resumeGroup (s : State) {k : Nat} (l : LaneId) (hlive : (s.grp k).lane[l].st = .live)
    (hyld : (s.grp k).lane[l].yld = false) : GrpGoesOn k s (s.resumeGroup k) := by
  obtain ⟨cores, hcores⟩ := s.resumeAccs_eq k
  have hgrp : (s.resumeAccs k).grp k = s.grp k := by rw [hcores]; rfl
  have hmem : SameMemory s (s.resumeAccs k) := by rw [hcores]; exact sameMemory_refl s
  have hset (tk : Nat) (f : Team → Team) : GrpGoesOn k s (((s.resumeAccs k).modGrp k fun g =>
      Group.settle { g with st := .ready, hold := .none, lastReady := s.time }).modTeam tk f) := by
    refine ⟨sameMemory_modTeam tk f (sameMemory_modGrp k _ hmem), ?_⟩
    rw [State.grp_of_modTeam, State.grp_modGrp, if_pos rfl, hgrp]
    exact GoesOn.trans (b := { s.grp k with st := .ready, hold := .none, lastReady := s.time })
      ⟨.inl rfl, rfl, rfl, rfl, rfl, rfl, rfl, rfl, rfl, rfl, rfl, rfl⟩ (Group.goesOn_settle l rfl hlive hyld)
  unfold State.resumeGroup
  dsimp only
  split
  · exact (hset _ _).holdNow.rewait
  · exact hset _ _

/-! ### The kill command (R102) -/

section
variable (s : State) (k : Nat)

/-- A kill withdraws an operation of its group that is one on a queue. -/
def State.withdraw (s : State) (o : Op) : State :=
  if o.kind = .queue then { s.unlock o.id with ops := s.ops.filter fun x => x.id != o.id } else s

theorem State.mem_ops_withdraw {s : State} {o x : Op} (h : x ∈ (s.withdraw o).ops) : x ∈ s.ops ∧ (o.kind = .queue → x.id ≠ o.id) := by
  unfold State.withdraw at h
  split at h
  next => exact ⟨(List.mem_filter.1 h).1, fun _ => by simpa using (List.mem_filter.1 h).2⟩
  next hq => exact ⟨h, fun c => absurd c hq⟩

theorem State.mem_ops_foldl_withdraw {l : List Op} {s : State} {x : Op} (h : x ∈ (l.foldl State.withdraw s).ops) :
    x ∈ s.ops ∧ ∀ o ∈ l, o.kind = .queue → x.id ≠ o.id := by
  induction l generalizing s with
  | nil => exact ⟨h, by simp⟩
  | cons o l ih =>
    obtain ⟨hmem, hrest⟩ := ih h
    obtain ⟨hin, hne⟩ := State.mem_ops_withdraw hmem
    exact ⟨hin, List.forall_mem_cons.2 ⟨hne, hrest⟩⟩

@[simp] theorem State.endMma_ops (c : Nat) (m : MmaEnt) : (s.endMma c k m).ops = s.ops := by
  unfold State.endMma
  dsimp only
  split <;> rfl

theorem State.cores_endMma (c : Nat) (m : MmaEnt) :
    (s.endMma c k m).cores = (s.modCore c fun x => { x with queue := x.queue.filter fun y => y.id != m.id }.regrant x).cores := by
  unfold State.endMma
  dsimp only
  split <;> rfl

/-- An MMA that leaves takes the entries of its number along. -/
theorem State.mmasAll_endMma (m : MmaEnt) : (s.endMma (coreOf k) k m).mmasAll k = (s.mmasAll k).filter fun y => y.id != m.id := by
  have hcore : (s.endMma (coreOf k) k m).core (coreOf k)
      = { s.core (coreOf k) with queue := (s.core (coreOf k)).queue.filter fun y => y.id != m.id }.regrant (s.core (coreOf k)) := by
    rw [State.core, State.cores_endMma, ← State.core, State.core_modCore, if_pos rfl]
  unfold State.mmasAll
  rw [hcore, List.filter_filter]
  simp only [Core.regrant, List.filter_filter, Bool.and_comm]

theorem mem_mmasAll_of_cancelled {l : List MmaEnt} {s : State} {k : Nat} {y : MmaEnt}
    (h : y ∈ (l.foldl (fun s m => s.endMma (coreOf k) k m) s).mmasAll k) : y ∈ s.mmasAll k ∧ ∀ m ∈ l, y.id ≠ m.id := by
  induction l generalizing s with
  | nil => exact ⟨h, by simp⟩
  | cons m l ih =>
    obtain ⟨hmem, hrest⟩ := ih h
    rw [State.mmasAll_endMma, List.mem_filter] at hmem
    exact ⟨hmem.1, List.forall_mem_cons.2 ⟨by simpa using hmem.2, hrest⟩⟩

/-- Every MMA of a group cancelled, none is left. -/
theorem State.mmasAll_cancelled : ((s.mmasAll k).foldl (fun s m => s.endMma (coreOf k) k m) s).mmasAll k = [] := by
  refine List.eq_nil_iff_forall_not_mem.2 fun y hy => ?_
  obtain ⟨hmem, hne⟩ := mem_mmasAll_of_cancelled hy
  exact hne y hmem rfl

theorem State.killGroup_mmasAll : (s.killGroup k).mmasAll k = [] := State.mmasAll_cancelled _ k

theorem State.killGroup_ops {o : Op} (h : o ∈ (s.killGroup k).ops) (hk : o.k = k) : o.kind ≠ .queue := by
  intro hq
  have hops := foldl_unchanged State.ops (fun s m => s.endMma_ops k (coreOf k) m)
  unfold State.killGroup at h
  rw [State.modGrp_ops, hops] at h
  obtain ⟨hmem, hne⟩ := State.mem_ops_foldl_withdraw h
  exact hne o (List.mem_filter.2 ⟨hmem, by simpa using hk⟩) hq rfl

/-- A killed group drains, its lanes exited. -/
theorem State.killGroup_grp : ((s.killGroup k).grp k).st = .draining ∧ ∀ l : LaneId, ((s.killGroup k).grp k).lane[l].st = .exited := by
  unfold State.killGroup
  dsimp only
  rw [State.grp_modGrp, if_pos rfl]
  refine ⟨rfl, fun l => ?_⟩
  simp

end

/-! ### Commands to a slot (R100, R102, R299) -/

section
variable {s : State} {k : Nat} {ok : GState → Bool} {go : State → State}

theorem State.slotCmd_of_ok (h : ok (s.grp k).st = true) : s.slotCmd k ok go = (go s).modGrp k fun g => { g with err := false } := if_pos h

theorem State.slotCmd_of_not_ok (h : ok (s.grp k).st = false) : s.slotCmd k ok go = s.modGrp k fun g => { g with err := true } :=
  if_neg (by simp [h])

theorem State.grp_slotCmd_of_ok (h : ok (s.grp k).st = true) : (s.slotCmd k ok go).grp k = { (go s).grp k with err := false } := by
  rw [State.slotCmd_of_ok h, State.grp_modGrp, if_pos rfl]

theorem State.grp_slotCmd_of_not_ok (h : ok (s.grp k).st = false) : (s.slotCmd k ok go).grp k = { s.grp k with err := true } := by
  rw [State.slotCmd_of_not_ok h, State.grp_modGrp, if_pos rfl]

theorem sameRegs_err (g : Group) (b : Bool) : SameRegs { g with err := b } g := ⟨rfl, rfl, rfl, rfl, rfl, rfl, rfl, rfl, rfl, rfl⟩

theorem completes_slotResume (hh : (s.grp k).st.halted = true) {l : LaneId} (hlive : (s.grp k).lane[l].st = .live)
    (hyld : (s.grp k).lane[l].yld = false) :
    Completes (.slotResume k) s fun t =>
      ((t.grp k).st = .ready ∨ (t.grp k).st = .held) ∧ (t.grp k).err = false ∧ (t.grp k).lane = (s.grp k).lane ∧ SameMemory s t
        ∧ SameBut [] (t.grp k) (s.grp k) := by
  obtain ⟨hmem, hst, hlane, hregs⟩ := s.grpGoesOn_resumeGroup l hlive hyld
  refine ⟨_, rfl, ?_⟩
  beta_reduce
  rw [State.slotResume, State.slotCmd_of_ok hh, State.grp_modGrp, if_pos rfl]
  dsimp only
  refine ⟨?_, ?_, ?_, ?_, ?_⟩
  · exact hst
  · rfl
  · exact hlane
  · exact sameMemory_modGrp k _ hmem
  · exact SameRegs.sameBut ((sameRegs_err _ false).trans hregs)

theorem completes_slotKill (hh : (s.grp k).st.halted = true) :
    Completes (.slotKill k) s fun t => (t.grp k).st = .draining ∧ (t.grp k).err = false ∧ t.mmasAll k = []
      ∧ (∀ o ∈ t.ops, o.k = k → o.kind ≠ .queue) ∧ ∀ l : LaneId, (t.grp k).lane[l].st = .exited := by
  obtain ⟨hst, hlane⟩ := s.killGroup_grp k
  refine ⟨_, rfl, ?_⟩
  beta_reduce
  rw [State.slotKill, State.slotCmd_of_ok hh, State.grp_modGrp, if_pos rfl]
  exact ⟨hst, rfl, s.killGroup_mmasAll k, fun o ho hk => s.killGroup_ops k ho hk, hlane⟩

theorem completes_slotHold (h : (s.grp k).st = .ready ∨ (s.grp k).st = .held) :
    Completes (.slotHold k) s fun t => t.grp k = { s.grp k with holdReq := true, err := false } := by
  refine ⟨_, rfl, ?_⟩
  beta_reduce
  rw [State.slotHold, State.grp_slotCmd_of_ok (by simpa using h), State.grp_modGrp, if_pos rfl]

theorem completes_slotWithdraw (h : (s.grp k).st = .bound) : Completes (.slotWithdraw k) s fun t => t.grp k = {} := by
  refine ⟨_, rfl, ?_⟩
  beta_reduce
  rw [State.slotWithdraw, State.grp_slotCmd_of_ok (by simpa using h), State.leaveSlot, State.grp_setGrp, if_pos rfl]

/-- A resume and a kill of a group that is neither trapped nor suspended are ignored with ERR. -/
theorem completes_slotCmd_refused (hh : (s.grp k).st.halted = false) {i : Instr} (hi : i ∈ [Instr.slotResume k, .slotKill k]) :
    Completes i s fun t => t.grp k = { s.grp k with err := true } := by
  obtain rfl | rfl : i = .slotResume k ∨ i = .slotKill k := by simpa using hi
  · exact ⟨_, rfl, State.grp_slotCmd_of_not_ok hh⟩
  · exact ⟨_, rfl, State.grp_slotCmd_of_not_ok hh⟩

/-! ### The slot table (R299) -/

theorem execBindRecordWrite_of_busy (r : BindRec) (h : (s.grp k).st ≠ .free) :
    execBindRecordWrite k r s = .next (s.modGrp k fun g => { g with err := true }) := by
  simp [execBindRecordWrite, h]

theorem execBindRecordWrite_of_free (r : BindRec) (h : (s.grp k).st = .free) :
    execBindRecordWrite k r s = .next (if !r.valid then s.setGrp k { bind := r }
      else if s.bindable k r then s.setGrp k { st := .bound, bind := r } else s.setGrp k { bind := r, err := true }) := by
  simp [execBindRecordWrite, h]

/-- What a record written to a slot leaves in it, by the state of the slot, V and what R298 asks of a record. -/
theorem completes_bindRecordWrite (r : BindRec) :
    ((s.grp k).st ≠ .free → Completes (.bindRecordWrite k r) s fun t => t.grp k = { s.grp k with err := true })
    ∧ ((s.grp k).st = .free → r.valid = false → Completes (.bindRecordWrite k r) s fun t => t.grp k = { bind := r })
    ∧ ((s.grp k).st = .free → r.valid = true → s.bindable k r = true →
        Completes (.bindRecordWrite k r) s fun t => t.grp k = { st := .bound, bind := r })
    ∧ ((s.grp k).st = .free → r.valid = true → s.bindable k r = false →
        Completes (.bindRecordWrite k r) s fun t => t.grp k = { bind := r, err := true }) := by
  refine ⟨fun h => ⟨_, execBindRecordWrite_of_busy r h, ?_⟩, fun h hv => ⟨_, execBindRecordWrite_of_free r h, ?_⟩,
    fun h hv hb => ⟨_, execBindRecordWrite_of_free r h, ?_⟩, fun h hv hb => ⟨_, execBindRecordWrite_of_free r h, ?_⟩⟩
  · beta_reduce
    rw [State.grp_modGrp, if_pos rfl]
  · simp [hv]
  · simp [hv, hb]
  · simp [hv, hb]

end

end Sys2Proof.Machine
end

section
/-!
PROOF of O46: what supervisor cores do (R17, R21, R100 to R102, R181, R299, R305, R354, R382, R383). A register that is written by its address
is a field of the slot table or a register of the MGX, and the end of a plug-in takes its context to faulted.
-/

namespace Sys2Proof.Machine

/-! ### The slot table and the registers of the MGX by address (R17, R21, R299, R354, R382, R383) -/

section
variable {s : State} {c i : Nat}

/-- A doubleword of the slot table of a core goes to the slot and the field of its address. -/
theorem execRegisterWrite_slotTable (j : Nat) (x : Word) (hi : i < 16) (hj : j < 8) (hc : c ≠ mgx) :
    execRegisterWrite c (0x2000200000 + 64 * i + 8 * j) x s = .next (s.slotTableWrite c (0x2000200000 + 64 * i + 8 * j) x) := by
  unfold execRegisterWrite
  rw [if_neg hc, if_pos (by simp; omega)]

/-- The slot and the field of an address of the slot table. -/
theorem slotTable_address {i j : Nat} (hj : j < 8) :
    (0x2000200000 + 64 * i + 8 * j - 0x2000200000) / 64 = i ∧ (0x2000200000 + 64 * i + 8 * j) % 64 / 8 = j := by omega

theorem execRegisterWrite_record {k : Nat} (x : Word) (hi : i < 16) (hk : k = 16 * c + i) (hc : c ≠ mgx) :
    exec (.registerWrite c (0x2000200000 + 64 * i + 8 * 0) x) s = exec (.bindRecordWrite k { (s.grp k).bind with dw0 := x }) s := by
  obtain ⟨hslot, hfield⟩ := slotTable_address (i := i) (j := 0) (by decide)
  refine (execRegisterWrite_slotTable 0 x hi (by decide) hc).trans ?_
  unfold State.slotTableWrite
  rw [hslot, hfield, ← hk]
  rfl

/-- A record with a doubleword behind the first replaced. -/
def recordWithDw (r : BindRec) (j : Nat) (x : Word) : BindRec :=
  match j with
  | 1 => { r with dw1 := x }
  | 2 => { r with dw2 := x }
  | _ => { r with dw3 := x }

theorem completes_registerWrite_record {k j : Nat} (x : Word) (hi : i < 16) (hk : k = 16 * c + i) (hc : c ≠ mgx) (hj : j = 1 ∨ j = 2 ∨ j = 3)
    (hfree : (s.grp k).st = .free) :
    Completes (.registerWrite c (0x2000200000 + 64 * i + 8 * j) x) s fun t => t.grp k = { bind := recordWithDw (s.grp k).bind j x } := by
  obtain ⟨hslot, hfield⟩ := slotTable_address (i := i) (j := j) (by omega)
  refine ⟨_, execRegisterWrite_slotTable j x hi (by omega) hc, ?_⟩
  unfold State.slotTableWrite
  rw [hslot, hfield, ← hk]
  obtain rfl | rfl | rfl := hj <;> simp [hfree, recordWithDw]

theorem execRegisterWrite_command {k : Nat} (x : Word) (hi : i < 16) (hk : k = 16 * c + i) (hc : c ≠ mgx) :
    exec (.registerWrite c (0x2000200000 + 64 * i + 8 * 5) x) s
      = .next (if x = 1 then s.slotResume k else if x = 2 then s.slotKill k else if x = 3 then s.slotHold k
          else if x = 4 then s.slotWithdraw k else s.modGrp k fun g => { g with err := true }) := by
  obtain ⟨hslot, hfield⟩ := slotTable_address (i := i) (j := 5) (by decide)
  refine (execRegisterWrite_slotTable 5 x hi (by decide) hc).trans ?_
  unfold State.slotTableWrite
  rw [hslot, hfield, ← hk]
  rfl

theorem execRegisterWrite_inMgx {a : Nat} (x : Word) (hc : c ≠ mgx) (hlo : 0x08000000 ≤ a) (hhi : a < 0x0A000010) :
    execRegisterWrite c a x s = .next (s.emit (.accessFault a causePerm)) := by
  unfold execRegisterWrite
  rw [if_neg hc, if_neg (by simp; omega), if_pos (by simp [inMgx]; omega)]

theorem execRegisterWrite_mgx (a : Nat) (x : Word) : execRegisterWrite mgx a x s = .next (s.mgxWrite a x) := rfl

theorem State.mgxWrite_plim (x : Word) : s.mgxWrite 0x0A000000 x = { s with plim := bits x 16 16 } := rfl

theorem State.mgxWrite_port {p : Nat} (x : Word) (hp : p < 152) :
    s.mgxWrite (0x08000000 + 64 * p) x = s.modPort p fun q => q.control x s.time (s.portServed p) := by
  unfold State.mgxWrite
  rw [if_pos (by simp; omega), if_pos (by omega), show (0x08000000 + 64 * p - 0x08000000) / 64 = p by omega]

theorem State.mgxWrite_tile {p : Nat} (x : Word) (hp : p < 4608) :
    s.mgxWrite (0x09000000 + 64 * p) x = s.modTile p fun q => { q with ctl := x &&& 0xF0F } := by
  unfold State.mgxWrite
  rw [if_neg (by simp; omega), if_pos (by simp; omega), if_pos (by omega), show (0x09000000 + 64 * p - 0x09000000) / 64 = p by omega]

theorem execRegisterWrite_mgx_tile {p : Nat} (x : Word) (hp : p < 4608) :
    execRegisterWrite mgx (0x09000000 + 64 * p) x s = .next (s.modTile p fun q => { q with ctl := x &&& 0xF0F }) := by
  rw [execRegisterWrite_mgx, State.mgxWrite_tile x hp]

theorem execPowerControlWrite_of_lt {p : Nat} (x : Word) (hp : p < 4608) :
    execPowerControlWrite p x s = .next (s.modTile p fun q => { q with ctl := x &&& 0xF0F }) := by
  unfold execPowerControlWrite
  rw [if_neg (by omega)]

end

/-! ### The end of a plug-in (R17, R305, R329) -/

section
variable {s : State} {c : Nat}

/-- A context that enters faulted keeps the state it leaves, with event 5. -/
theorem State.ctx_enterFault (s : State) {c : Nat} (hc : c < 4096) :
    ((s.enterFault c).ctx c).st = .faulted ∧ ((s.enterFault c).ctx c).before = (s.ctx c).st ∧ Raised ((s.enterFault c).ctx c) 5 := by
  have hfold : ∀ (l : List (Nat × Team)) (t : State), (l.foldl (fun s e => (s.groupsOf e.1).foldl (fun s k => s.modGrp k fun g =>
      if g.st = .ready || g.st = .held then { g with holdReq := true } else g) s) t).ctx c = t.ctx c :=
    foldl_unchanged (State.ctx · c) fun t e => foldl_unchanged (State.ctx · c) (fun t k => t.ctx_of_modGrp k _ c) (t.groupsOf e.1) t
  unfold State.enterFault
  dsimp only
  rw [State.ctx_ctxEvent 5 c hc, if_pos rfl, hfold, State.ctx_modCtx, if_pos rfl]
  exact ⟨rfl, rfl, Ctx.raised_raised _ _ (by decide)⟩

/-- The states that a fault of the plug-in ends at once. -/
theorem State.mustFault_of_mem (h : (s.ctx c).st ∈ [CtxState.created, .loaded, .runnable, .running, .preempting, .saved, .migrating]) :
    s.mustFault c = s.enterFault c := by
  unfold State.mustFault
  split
  next hst => simp [hst] at h
  next hst => simp [hst] at h
  next hst => simp [hst] at h
  next hst => simp [hst] at h
  next hst => simp [hst] at h
  all_goals rfl

/-- In castling the fault is pending. -/
theorem State.mustFault_of_castling (h : (s.ctx c).st = .castling) : s.mustFault c = s.modCtx c fun x => { x with pendFault := true } := by
  unfold State.mustFault
  rw [h]

end

/-! ### The obligation -/

/-- Settles O46: each clause is what its operation does to the slot, the window, the record, the register or the context that it names. -/
theorem supervisorEvents : Obligations.SupervisorEvents := by
  intro k s g halted
  have hhalted : halted ↔ g.st.halted = true := (GState.halted_iff g.st).symm
  have hopen (h : ¬halted) : g.st.halted = false := by simpa [hhalted] using h
  refine ⟨completes_bindRecordWrite, fun h ⟨l, hlive, hyld⟩ => completes_slotResume (hhalted.1 h) hlive hyld,
    fun h => completes_slotKill (hhalted.1 h), completes_slotHold, completes_slotWithdraw,
    fun h i hi => completes_slotCmd_refused (hopen h) hi, fun off data => ⟨fun h => ?_, fun h ho hd => ?_, fun h hlen n l => ?_⟩,
    ?_, ?_, fun x p => ?_, fun c hc => ?_⟩
  · exact ⟨_, execStateWindowWrite_of_not_halted (hopen h), rfl⟩
  · exact ⟨_, execStateWindowWrite_of_behind (hhalted.1 h) ho hd, rfl⟩
  · have hh := hhalted.1 h
    exact ⟨fun ho hr hn => completes_stateWindowWrite_v hh hlen ho hr hn, fun ho h0 hn => completes_stateWindowWrite_s hh hlen ho h0 hn,
      fun ho => completes_stateWindowWrite_pcv hh hlen ho, fun ho => completes_stateWindowWrite_srseed hh hlen ho⟩
  · intro c n off data a may
    have hbarred := s.recordBarred_eq_false c n off data.length
    refine ⟨fun hmay h4 hoff hlen => completes_accRecordWrite (hbarred.2 hmay) hmay.1 h4 hoff hlen, fun hmay => ?_⟩
    exact ⟨_, execAccRecordWrite_of_barred (Bool.not_eq_false _ ▸ fun h => hmay (hbarred.1 h)), rfl⟩
  · intro c i x hi hk hc at_
    have hcmd := execRegisterWrite_command (s := s) x hi hk hc
    refine ⟨execRegisterWrite_record x hi hk hc, fun hfree => ⟨?_, ?_, ?_⟩, ?_, ?_, ?_, ?_, fun a hlo hhi => ?_⟩
    · exact completes_registerWrite_record (j := 1) x hi hk hc (by decide) hfree
    · exact completes_registerWrite_record (j := 2) x hi hk hc (by decide) hfree
    · exact completes_registerWrite_record (j := 3) x hi hk hc (by decide) hfree
    · rintro rfl
      exact hcmd
    · rintro rfl
      exact hcmd
    · rintro rfl
      exact hcmd
    · rintro rfl
      exact hcmd
    · exact ⟨_, execRegisterWrite_inMgx x hc hlo hhi, rfl⟩
  · refine ⟨⟨_, rfl, State.mgxWrite_plim x⟩, fun hp => ⟨_, rfl, State.mgxWrite_port x hp⟩, fun hp => ?_⟩
    exact (execRegisterWrite_mgx_tile x hp).trans (execPowerControlWrite_of_lt x hp).symm
  · refine ⟨⟨_, rfl, ?_⟩, fun h => ⟨_, rfl, ?_⟩, fun h => ⟨_, rfl, ?_⟩⟩
    · simp [State.emit]
    · rw [State.mustFault_of_mem h]
      exact s.ctx_enterFault hc
    · beta_reduce
      rw [State.mustFault_of_castling h, State.ctx_of_emit, State.ctx_modCtx, if_pos rfl]
      exact ⟨h, rfl⟩

end Sys2Proof.Machine
end

section
/-!
RULES of an issue that O1, O3, O4, O32 and O43 share: the body that an instruction form runs, the group at the end of an issue, and the
results and flags that wait there (R36, R37, R75, R76).
-/

namespace Sys2Proof.Machine

/-! ### The end of an issue -/

/-- The group at the end of an issue that writes registers, whatever group the state held before. -/
theorem finish_regs_grp (s : State) (env : Env) (sync : Bool) (g : Group) (fl : BitVec 6) (cons : Nat) :
    (finish s env sync (.regs g fl cons)).grp env.k =
      (((if env.sh.lat = 0 then g.raiseSb env.f.slot else g.pushPend env s.time fl).replaces env).advance env.path sync
        fun _ => env.nxt).issued env.f.stall s.time := by
  unfold finish
  dsimp only
  split
  · rw [consume_grp, complete_grp, if_pos rfl]
    simp [State.launch, State.grp, State.modGrp, State.setGrp, smGet_smSet]
  · rw [consume_grp, complete_grp, if_pos rfl, State.grp_setGrp, if_pos rfl]
    rfl

@[simp] theorem raiseSb_pend (g : Group) (n : Option Nat) : (g.raiseSb n).pend = g.pend := by cases n <;> rfl

@[simp] theorem sealOpen_pend (g : Group) : g.sealOpen.pend = g.pend := by
  unfold Group.sealOpen
  split <;> rfl

@[simp] theorem settle_pend (g : Group) : g.settle.pend = g.pend := by
  have h1 (x : Group) : (if x.runnable = 0 then { x with lane := Vector.ofFn fun i => { x.lane[i] with yld := false } } else x).pend
      = x.pend := by split <;> rfl
  have h2 (x : Group) : (if x.parked = 0 then { x with elapsed := 0, sub := 0 } else x).pend = x.pend := by split <;> rfl
  have h3 (x : Group) : (if x.st = .ready || x.st = .held then
      if x.unexited = 0 then { x.sealOpen with st := .draining, hold := .none }
      else if x.select.isNone then { x with st := .held, hold := .parked } else x
    else x).pend = x.pend := by
    split
    · split
      · exact sealOpen_pend x
      · split <;> rfl
    · rfl
  exact (h3 _).trans ((h2 _).trans (h1 _))

@[simp] theorem advance_pend (g : Group) (path : LaneMask) (sync : Bool) (pc : LaneId → Word) : (g.advance path sync pc).pend = g.pend := by
  unfold Group.advance Group.mapLanes
  dsimp only
  split <;> rfl

/-- The end of an issue moves the distances of the waiting results (R36). -/
theorem issued_pend (g : Group) (st : BitVec 3) (t : Word) :
    (g.issued st t).pend = g.pend.map fun p => { p with dist := p.dist + 1 + st.toNat } := settle_pend _

theorem replaces_pend (g : Group) (env : Env) :
    (g.replaces env).pend = if env.e = 0 then g.pend else g.pend.flatMap fun p =>
      p.under (regWrites env.sh env.f) (if env.sh.d.cls = .s then allLanes else env.e) := by
  unfold Group.replaces
  split <;> rfl

/-- What a later write leaves of a waiting result has its flags or none (R37). -/
theorem under_flags {p q : Pend} {wr : List RegId} {m : LaneMask} (h : q ∈ p.under wr m) : q.flags = p.flags ∨ q.flags = 0 := by
  unfold Pend.under at h
  dsimp only at h
  split at h
  · exact .inl (List.mem_singleton.1 h ▸ rfl)
  · rcases List.mem_cons.1 h with rfl | h
    · exact .inl rfl
    · split at h
      · cases h
      · exact .inr (List.mem_singleton.1 h ▸ rfl)

/-- A result that has just been issued is not replaced by its own instruction. -/
theorem under_of_dist_zero {p : Pend} (wr : List RegId) (m : LaneMask) (h : p.dist = 0) : p.under wr m = [p] := by
  unfold Pend.under
  exact if_pos (by simp [h])

/-- The results that wait after an issue have no flags but those of the issue and of what waited before. -/
theorem finish_regs_pend_flags {s : State} {env : Env} {sync : Bool} {g : Group} {fl : BitVec 6} {cons : Nat} {p : Pend}
    (h : p ∈ ((finish s env sync (.regs g fl cons)).grp env.k).pend) : p.flags = 0 ∨ p.flags = fl ∨ ∃ q ∈ g.pend, q.flags = p.flags := by
  rw [finish_regs_grp, issued_pend, advance_pend] at h
  obtain ⟨p', hp', rfl⟩ := List.mem_map.1 h
  have hold : ∀ q ∈ (if env.sh.lat = 0 then g.raiseSb env.f.slot else g.pushPend env s.time fl).pend,
      q.flags = fl ∨ q ∈ g.pend := by
    intro q hq
    split at hq
    · exact .inr (by simpa using hq)
    · rcases List.mem_append.1 hq with hq | hq
      · exact .inr hq
      · exact .inl (List.mem_singleton.1 hq ▸ rfl)
  have hfrom : ∃ q ∈ (if env.sh.lat = 0 then g.raiseSb env.f.slot else g.pushPend env s.time fl).pend,
      p'.flags = q.flags ∨ p'.flags = 0 := by
    rw [replaces_pend] at hp'
    split at hp'
    · exact ⟨p', hp', .inl rfl⟩
    · obtain ⟨q, hq, hu⟩ := List.mem_flatMap.1 hp'
      exact ⟨q, hq, under_flags hu⟩
  obtain ⟨q, hq, he | he⟩ := hfrom
  · rcases hold q hq with hf | hm
    · exact .inr (.inl (he.trans hf))
    · exact .inr (.inr ⟨q, hm, he.symm⟩)
  · exact .inl he

/-- Of a form with a latency the last result that waits is its own, with its flags (R37, R76). -/
theorem finish_regs_getLast_pend {s : State} {env : Env} {sync : Bool} {g : Group} {fl : BitVec 6} {cons : Nat} (hlat : env.sh.lat ≠ 0) :
    ∃ p, ((finish s env sync (.regs g fl cons)).grp env.k).pend.getLast? = some p ∧ p.flags = fl := by
  rw [finish_regs_grp, issued_pend, advance_pend, replaces_pend, if_neg hlat]
  unfold Group.pushPend
  dsimp only
  rw [List.flatMap_append, List.flatMap_singleton, under_of_dist_zero _ _ rfl]
  split <;> exact ⟨_, by rw [List.map_append]; exact List.getLast?_concat .., rfl⟩

@[simp] theorem consume_ops (s : State) (k n : Nat) : (s.consume k n).ops = s.ops := by
  unfold State.consume State.ctxEvent State.ctxCount
  dsimp only
  repeat' split
  all_goals rfl

/-- An issue that writes registers puts no operation in flight but its own, with its flags (R39). -/
theorem finish_regs_ops {s : State} {env : Env} {sync : Bool} {g : Group} {fl : BitVec 6} {cons : Nat} {o : Op}
    (h : o ∈ (finish s env sync (.regs g fl cons)).ops) : o.flags = fl ∨ o ∈ s.ops := by
  unfold finish at h
  dsimp only at h
  split at h
  · rw [consume_ops] at h
    rcases List.mem_append.1 h with h | h
    · exact .inr h
    · exact .inl (List.mem_singleton.1 h ▸ rfl)
  · rw [consume_ops] at h
    exact .inr h

/-! ### Bodies that change their lanes -/

/-- `finish_regs` for a body that changes lanes but neither their states nor their addresses. -/
theorem finish_regs_of_lane_st {maj : BitVec 7} {f : Fields} {s : State} {env : Env} {sync : Bool} {g : Group} {fl : BitVec 6}
    {cons k : Nat} (h : begin maj f s k = .go env sync) (hg : ∀ l : LaneId, g.lane[l].st = (s.grp env.k).lane[l].st) (l : LaneId)
    (hl : env.path.getLsbD l = true) : ((finish s env sync (.regs g fl cons)).grp env.k).lane[l].pcv = env.nxt := by
  have hsel := (begin_select h).1
  rw [← (begin_k h).1] at hsel
  obtain ⟨h1, h2, -⟩ := select_path hsel l hl
  rw [← hg l] at h1 h2
  have hput : ((s.setGrp env.k g).grp env.k).lane = g.lane := by simp
  rw [← lanes_of_group hput] at h1 h2
  have key := finish_regs_pcv (s := s.setGrp env.k g) (fl := fl) (cons := cons) l hput.symm hl h1 h2
  rw [finish_regs_grp] at key ⊢
  exact key

/-! ### The body of an instruction form -/

/-- With sr.ctl.pt = 0 a lane instruction writes v[D] in every executing lane (R106). -/
theorem vecOut_of_pt {env : Env} {s : State} {res : LaneId → LRes} (hpt : (s.grp env.k).pt = false) :
    vecOut env s res = .regs ((s.grp env.k).wrV env.f.d.toNat env.e fun l => (res l).r)
      (flagsOf env.e fun l => (res l).flags) (consOf env.e fun l => (res l).cons) := poisonGate_of_pt hpt

/-- A form, short and long, runs a body under a major opcode. -/
structure Runs (short long : Fields → Instr) (maj : BitVec 7) (body : Env → State → Out) : Prop where
  shortOp : ∀ f, opOf (short f) = some (maj, f) := by intros; rfl
  longOp : ∀ f, opOf (long f) = some (maj, f) := by intros; rfl
  runShort : ∀ f s, exec (short f) s = .next (issueWith maj f s body) := by intros; rfl
  runLong : ∀ f s, exec (long f) s = .next (issueWith maj f s body) := by intros; rfl

/-- A list of forms goes on behind the short and the long form of an instruction. -/
theorem mem_forms {i short long : Fields → Instr} {l : List (Fields → Instr)} (h : i ∈ short :: long :: l) : i ∈ [short, long] ∨ i ∈ l :=
  (List.mem_append (s := [short, long])).1 h

section
variable {short long i : Fields → Instr} {maj : BitVec 7} {body : Env → State → Out} {f : Fields} {s : State} {env : Env}

theorem Runs.op (h : Runs short long maj body) (hi : i ∈ [short, long]) (f : Fields) : opOf (i f) = some (maj, f) := by
  rcases List.mem_pair.1 hi with rfl | rfl
  · exact h.shortOp f
  · exact h.longOp f

theorem Runs.exec_eq (h : Runs short long maj body) (hi : i ∈ [short, long]) (f : Fields) (s : State) :
    exec (i f) s = .next (issueWith maj f s body) := by
  rcases List.mem_pair.1 hi with rfl | rfl
  · exact h.runShort f s
  · exact h.runLong f s

/-- The environment of an issue has the form's own opcode and fields. -/
theorem Runs.env_eq (h : Runs short long maj body) (hi : i ∈ [short, long]) (hiss : Issues (i f) s env) :
    env.maj = maj ∧ env.f = f := by
  have := hiss.op.symm.trans (h.op hi f)
  simpa using this

/-- The checks before an issue have passed, for the group whose turn it is. -/
theorem Runs.go (h : Runs short long maj body) (hi : i ∈ [short, long]) (hiss : Issues (i f) s env) :
    begin maj f (turn s) s.cur = .go env false := by
  obtain ⟨hm, hf⟩ := h.env_eq hi hiss
  have := hiss.go
  rwa [hm, hf] at this

/-- A form that issues finishes what its body does. -/
theorem Runs.exec_issue (h : Runs short long maj body) (hi : i ∈ [short, long]) (hiss : Issues (i f) s env) :
    exec (i f) s = .next (finish (turn s) env false (body env (turn s))) :=
  (h.exec_eq hi f s).trans (congrArg _ (issueWith_go (h.go hi hiss) hiss.some))

theorem Runs.env_k (h : Runs short long maj body) (hi : i ∈ [short, long]) (hiss : Issues (i f) s env) : env.k = s.cur :=
  (begin_k (h.go hi hiss)).1

/-- A body that writes v[D] in each executing lane: the lanes hold their results, and the path goes on. -/
theorem Runs.vecOut (h : Runs short long maj body) (hi : i ∈ [short, long]) (hiss : Issues (i f) s env) (hpt : NoPoisonTrap s)
    {res : LaneId → LRes} (hb : body env (turn s) = Machine.vecOut env (turn s) res) :
    Completes (i f) s fun t => Advances env t ∧
      ∀ l : LaneId, env.e.getLsbD l = true → (t.grp env.k).rdV env.f.d.toNat l = (res l).r := by
  refine ⟨_, h.exec_issue hi hiss, ?_⟩
  rw [hb]
  exact finish_vecOut (h.go hi hiss) hpt

/-- A body that writes s[D]: the register holds the result, and the path goes on. -/
theorem Runs.scalOut (h : Runs short long maj body) (hi : i ∈ [short, long]) (hiss : Issues (i f) s env) (hpt : NoPoisonTrap s)
    {res : LRes} (hb : body env (turn s) = Machine.scalOut env (turn s) res) :
    Completes (i f) s fun t => Advances env t ∧ (t.grp env.k).rdS env.f.d.toNat = if env.f.d.toNat = 0 then {} else res.r := by
  refine ⟨_, h.exec_issue hi hiss, ?_⟩
  rw [hb]
  exact finish_scalOut (h.go hi hiss) hpt

end

end Sys2Proof.Machine
end

section
/-!
PROOFS of O1, O3 and O4: integer results (R66, R67, R108, R110, R112). The element operation of the model is `narrow` of an exact result,
and an operation of a statement agrees with one of the model where both narrow to the same code.
-/

namespace Sys2Proof.Machine

/-! ### Integer elements -/

theorem clampTo_eq_max_min {lo hi : Int} (h : lo ≤ hi) (t : Int) : clampTo lo hi t = max lo (min hi t) := by
  unfold clampTo
  split
  · omega
  · split <;> omega

/-- Wrapping after saturation is `narrow` (R66). -/
theorem wrapTo_eq_narrow (w : Nat) (uns sat : Bool) (t : Int) :
    wrapTo w (if sat then (if uns then clampTo 0 (2 ^ w - 1) t else clampTo (-2 ^ (w - 1)) (2 ^ (w - 1) - 1) t) else t)
      = narrow w uns sat t := by
  have h1 : (0 : Int) < 2 ^ w := by positivity
  have h2 : (0 : Int) < 2 ^ (w - 1) := by positivity
  rw [clampTo_eq_max_min (by omega), clampTo_eq_max_min (by omega)]
  cases sat <;> cases uns <;> rfl

theorem sext_eq_reading (w a : Nat) : sext a w = reading w false a := by simp [sext, reading]

theorem reading_eq_ite (w : Nat) (uns : Bool) (a : Nat) : (if uns then (a : Int) else sext a w) = reading w uns a := by
  cases uns
  · exact sext_eq_reading w a
  · rfl

theorem narrow_lt (w : Nat) (uns sat : Bool) (t : Int) : narrow w uns sat t < 2 ^ w := by
  have h : ∀ x : Int, (x % 2 ^ w).toNat < 2 ^ w := fun x => by
    have h1 : (0 : Int) < 2 ^ w := by positivity
    have h2 := Int.emod_lt_of_pos x h1
    have h3 := Int.emod_nonneg x h1.ne'
    zify
    omega
  exact h _

/-- An element of clean sources is the narrowed exact result, without poison (R108). -/
theorem intElem_clean {op : IOp} {w : Nat} {uns sat : Bool} {a b c : Reg} (h : Clean a b c) (j : Nat) :
    intElem op w uns sat a b c j = ((narrow w uns sat (op.f (argsAt w uns a b c j)), false), 0) := by
  obtain ⟨ha, hb, hc⟩ := h
  simp only [intElem, elemBad_clean ha, elemBad_clean hb, elemBad_clean hc, Bool.and_false, Bool.false_eq_true, if_false, Nat.add_zero,
    bne_self_eq_false, wrapTo_eq_narrow, reading_eq_ite, argsAt]

theorem intReg_poi {op : IOp} {w : Nat} {uns sat : Bool} {a b c : Reg} (h : Clean a b c) (hw : 8 ≤ w) :
    (intReg op w uns sat a b c).r.poi = 0 := by
  have hnil : packPoi w (((List.range (64 / w)).map fun i => intElem op w uns sat a b c i).map Prod.fst) = 0 := by
    refine packPoi_clean _ _ fun e he => ?_
    simp only [List.map_map, List.mem_map, Function.comp_apply] at he
    obtain ⟨j, -, rfl⟩ := he
    rw [intElem_clean h]
  simp only [intReg, packReg, if_neg (Nat.not_lt.2 hw), hnil]
  rfl

/-- An element of a register of integer results. -/
theorem elem_intReg {op : IOp} {w : Nat} {uns sat : Bool} {a b c : Reg} {j : Nat} (hj : j < 64 / w) :
    elem (intReg op w uns sat a b c).r w j = (intElem op w uns sat a b c j).1.1 % 2 ^ w := by
  have h := elem_packReg w (((List.range (64 / w)).map fun i => intElem op w uns sat a b c i).map Prod.fst) j (by simpa using hj)
    (by simpa using Nat.mul_div_le 64 w)
  simpa [intReg] using h

theorem elem_intReg_clean {op : IOp} {w : Nat} {uns sat : Bool} {a b c : Reg} {j : Nat} (h : Clean a b c) (hj : j < 64 / w) :
    elem (intReg op w uns sat a b c).r w j = narrow w uns sat (op.f (argsAt w uns a b c j)) := by
  rw [elem_intReg hj, intElem_clean h, Nat.mod_eq_of_lt (narrow_lt ..)]

/-- The one element of a 64-bit result is the register. -/
theorem intReg_64_clean {op : IOp} {uns sat : Bool} {a b c : Reg} (h : Clean a b c) :
    (intReg op 64 uns sat a b c).r = .of (BitVec.ofNat 64 (narrow 64 uns sat (op.f (argsAt 64 uns a b c 0)))) := by
  have hrange : List.range (64 / 64) = [0] := rfl
  simp only [intReg, hrange, List.map_cons, List.map_nil, intElem_clean h]
  simp only [packReg, packVal, packPoi, Reg.of, Nat.mul_zero, Nat.add_zero, Nat.mod_eq_of_lt (narrow_lt ..)]
  rfl

/-! ### Operations that agree -/

/-- A function of a statement and an operation of the model narrow to the same code, for every element of every source. -/
def Agrees (op : IOp) (g : IArgs → Int) : Prop :=
  ∀ (w : Nat) (uns sat : Bool) (a b c : Reg) (j : Nat), 0 < w →
    narrow w uns sat (op.f (argsAt w uns a b c j)) = narrow w uns sat (g (argsAt w uns a b c j))

theorem Agrees.refl (op : IOp) : Agrees op op.f := fun _ _ _ _ _ _ _ _ => rfl

theorem Agrees.of_eq {op : IOp} {g : IArgs → Int}
    (h : ∀ (w : Nat) (uns : Bool) (a b c : Reg) (j : Nat), 0 < w → op.f (argsAt w uns a b c j) = g (argsAt w uns a b c j)) :
    Agrees op g := fun w uns _ a b c j hw => congrArg _ (h w uns a b c j hw)

theorem elem_lt (r : Reg) (w i : Nat) : elem r w i < 2 ^ w := Nat.mod_lt _ (by positivity)

theorem agrees_shr : Agrees opShr fun t => ((t.a / 2 ^ t.b : Nat) : Int) := by
  refine .of_eq fun w uns a b c j _ => ?_
  have ha := elem_lt a w j
  show ((elem a w j / 2 ^ min (elem b w j) w : Nat) : Int) = ((elem a w j / 2 ^ elem b w j : Nat) : Int)
  rcases Nat.le_total (elem b w j) w with h | h
  · rw [Nat.min_eq_left h]
  · rw [Nat.min_eq_right h, Nat.div_eq_of_lt ha, Nat.div_eq_of_lt (ha.trans_le (Nat.pow_le_pow_right (by omega) h))]

/-- A value in the range of a width is 0 or -1 after an arithmetic shift by at least that width. -/
theorem ediv_two_pow_of_le {x : Int} {w n : Nat} (hlo : -2 ^ w ≤ x) (hhi : x < 2 ^ w) (h : w ≤ n) : x / 2 ^ n = if x < 0 then -1 else 0 := by
  have hp : (2 : Int) ^ w ≤ 2 ^ n := pow_le_pow_right₀ (by norm_num) h
  split
  next hx => exact Int.ediv_eq_neg_one_of_neg_of_le hx (by omega)
  next hx => exact Int.ediv_eq_zero_of_lt (by omega) (by omega)

theorem reading_bounds {w : Nat} (uns : Bool) {a : Nat} (ha : a < 2 ^ w) : -2 ^ w ≤ reading w uns a ∧ reading w uns a < 2 ^ w := by
  have h : (a : Int) < 2 ^ w := by exact_mod_cast ha
  unfold reading
  split <;> omega

theorem agrees_sar : Agrees opSar fun t => reading t.w false t.a / 2 ^ t.b := by
  refine .of_eq fun w uns a b c j _ => ?_
  obtain ⟨hlo, hhi⟩ := reading_bounds false (elem_lt a w j)
  show sext (elem a w j) w / 2 ^ min (elem b w j) w = reading w false (elem a w j) / 2 ^ elem b w j
  rw [sext_eq_reading]
  rcases Nat.le_total (elem b w j) w with h | h
  · rw [Nat.min_eq_left h]
  · rw [Nat.min_eq_right h, ediv_two_pow_of_le hlo hhi (le_refl w), ediv_two_pow_of_le hlo hhi h]

/-- Exact results beyond the codes of a width saturate alike. -/
theorem narrow_sat_of_beyond {w : Nat} (uns : Bool) {t u : Int} (h : (2 ^ w ≤ t ∧ 2 ^ w ≤ u) ∨ (t ≤ -2 ^ w ∧ u ≤ -2 ^ w)) :
    narrow w uns true t = narrow w uns true u := by
  have h0 : (0 : Int) < 2 ^ (w - 1) := by positivity
  have h1 : (2 : Int) ^ (w - 1) ≤ 2 ^ w := pow_le_pow_right₀ (by norm_num) (by omega)
  have hu : max 0 (min (2 ^ w - 1) t) = max 0 (min (2 ^ w - 1) u) := by omega
  have hs : max (-2 ^ (w - 1)) (min (2 ^ (w - 1) - 1) t) = max (-2 ^ (w - 1)) (min (2 ^ (w - 1) - 1) u) := by omega
  simp only [narrow, hu, hs, Bool.not_true, Bool.false_eq_true, if_false]

theorem narrow_wrap_of_dvd {w : Nat} (uns : Bool) {t : Int} (h : 2 ^ w ∣ t) : narrow w uns false t = 0 := by
  show (t % 2 ^ w).toNat = 0
  rw [Int.emod_eq_zero_of_dvd h]
  rfl

theorem two_pow_le_mul {w n : Nat} (h : w ≤ n) {x : Int} (hx : 0 < x) : 2 ^ w ≤ x * 2 ^ n :=
  (pow_le_pow_right₀ (by norm_num) h).trans (le_mul_of_one_le_left (by positivity) hx)

theorem mul_le_neg_two_pow {w n : Nat} (h : w ≤ n) {x : Int} (hx : x < 0) : x * 2 ^ n ≤ -2 ^ w := by
  have := two_pow_le_mul h (neg_pos.2 hx)
  rw [neg_mul] at this
  omega

/-- A left shift by more than the width wraps to 0 and saturates as one by a bit more than the width does. -/
theorem agrees_shl : Agrees opShl fun t => t.x * 2 ^ t.b := by
  intro w uns sat a b c j _
  show narrow w uns sat (reading w uns (elem a w j) * 2 ^ min (elem b w j) (w + 1))
    = narrow w uns sat (reading w uns (elem a w j) * 2 ^ elem b w j)
  rcases Nat.le_total (elem b w j) (w + 1) with h | h
  · rw [Nat.min_eq_left h]
  rw [Nat.min_eq_right h]
  generalize reading w uns (elem a w j) = x
  cases sat with
  | false =>
    have hd {n : Nat} (hn : w ≤ n) : (2 : Int) ^ w ∣ x * 2 ^ n := (pow_dvd_pow 2 hn).mul_left x
    rw [narrow_wrap_of_dvd uns (hd (Nat.le_succ w)), narrow_wrap_of_dvd uns (hd (by omega))]
  | true =>
    have hw : w ≤ w + 1 := Nat.le_succ w
    rcases lt_trichotomy x 0 with hx | rfl | hx
    · exact narrow_sat_of_beyond uns (.inr ⟨mul_le_neg_two_pow hw hx, mul_le_neg_two_pow (hw.trans h) hx⟩)
    · rw [zero_mul, zero_mul]
    · exact narrow_sat_of_beyond uns (.inl ⟨two_pow_le_mul hw hx, two_pow_le_mul (hw.trans h) hx⟩)

theorem agrees_clz : Agrees opClz fun t => if t.a = 0 then t.w else t.w - 1 - Nat.log2 t.a := by
  refine .of_eq fun w uns a b c j hw => ?_
  have ha := elem_lt a w j
  show ((clzTo (elem a w j) w : Nat) : Int) = if elem a w j = 0 then (w : Int) else (w : Int) - 1 - Nat.log2 (elem a w j)
  unfold clzTo
  split
  · rfl
  next h0 =>
    have : Nat.log2 (elem a w j) < w := (Nat.log2_lt h0).2 ha
    omega

/-! ### Rows of a table of operations -/

theorem eight_le_intWidth (f : Fields) : 8 ≤ intWidth f := by
  unfold intWidth
  split <;> decide

/-- A row of a table of integer operations: the short form, the long form and the exact result. -/
abbrev IntRow := (Fields → Instr) × (Fields → Instr) × (IArgs → Int)

/-- What O1 says of a row. -/
def ScalarRow (e : IntRow) : Prop := ∀ i ∈ [e.1, e.2.1], ∀ (f : Fields) (s : State) (env : Env), Issues (i f) s env → NoPoisonTrap s →
  f.fn.getLsbD 1 = true → ScalarResult (i f) s env (f.fn.getLsbD 0) e.2.2

/-- What O3 says of a row. -/
def LaneRow (e : IntRow) : Prop := ∀ i ∈ [e.1, e.2.1], ∀ (f : Fields) (s : State) (env : Env), Issues (i f) s env → NoPoisonTrap s →
  f.fn.getLsbD 1 = false → LaneResult (i f) s env (f.fn.getLsbD 0) e.2.2

section
variable {short long : Fields → Instr} {g : IArgs → Int}

/-- A scalar form of an operation that agrees with `g` writes `g`, narrowed to 64 bits. -/
theorem scalarRow (maj : BitVec 7) (op : IOp) (h : Runs short long maj (intForm op)) (hg : Agrees op g) :
    ScalarRow (short, long, g) := by
  intro i hi f s env hiss hpt hfn
  obtain ⟨-, rfl⟩ := h.env_eq hi hiss
  obtain ⟨t, hexec, hadv, hreg⟩ := h.scalOut hi hiss hpt (if_pos hfn)
  refine ⟨t, hexec, hadv, fun hclean => hreg.trans ?_⟩
  have hd : env.f.d.toNat = 0 ↔ env.f.d = 0 := BitVec.toNat_inj (y := 0)
  simp only [hd, intReg_64_clean hclean, hg 64 _ _ _ _ _ 0 (by decide)]

/-- A lane form of an operation that agrees with `g` writes `g` of each element, narrowed to the element's width. -/
theorem laneRow (maj : BitVec 7) (op : IOp) (h : Runs short long maj (intForm op)) (hg : Agrees op g) :
    LaneRow (short, long, g) := by
  intro i hi f s env hiss hpt hfn
  obtain ⟨-, rfl⟩ := h.env_eq hi hiss
  obtain ⟨t, hexec, hadv, hreg⟩ := h.vecOut hi hiss hpt (if_neg (by rw [hfn]; decide))
  refine ⟨t, hexec, hadv, fun l hl hclean => ?_⟩
  rw [hreg l hl]
  have hw := eight_le_intWidth env.f
  exact ⟨intReg_poi hclean hw, fun j hj => (elem_intReg_clean hclean hj).trans (hg _ _ _ _ _ _ j (by omega))⟩

end

/-- Settles O1: each form runs the operation of its row, which agrees with the row's exact result. -/
theorem scalarIntegerResults : Obligations.ScalarIntegerResults := by
  show ∀ e ∈ _, ScalarRow e
  simp only [List.forall_mem_cons, List.not_mem_nil, false_imp_iff, implies_true, and_true]
  exact ⟨scalarRow 0x00 opAdd {} (.refl _), scalarRow 0x01 opSub {} (.refl _), scalarRow 0x02 opMul {} (.refl _),
    scalarRow 0x03 opMulh {} (.refl _), scalarRow 0x06 opAnd {} (.refl _), scalarRow 0x07 opOr {} (.refl _),
    scalarRow 0x08 opXor {} (.refl _), scalarRow 0x09 opShl {} agrees_shl, scalarRow 0x0A opShr {} agrees_shr,
    scalarRow 0x0B opSar {} agrees_sar, scalarRow 0x0C opMin {} (.refl _), scalarRow 0x0D opMax {} (.refl _),
    scalarRow 0x0E opClz {} agrees_clz, scalarRow 0x0F opPopc {} (.refl _), scalarRow 0x12 opMov {} (.refl _)⟩

/-- Settles O3: each form runs the operation of its row in every lane, which agrees with the row's exact result. -/
theorem laneIntegerResults : Obligations.LaneIntegerResults := by
  show ∀ e ∈ _, LaneRow e
  simp only [List.forall_mem_cons, List.not_mem_nil, false_imp_iff, implies_true, and_true]
  exact ⟨laneRow 0x00 opAdd {} (.refl _), laneRow 0x01 opSub {} (.refl _), laneRow 0x02 opMul {} (.refl _),
    laneRow 0x03 opMulh {} (.refl _), laneRow 0x06 opAnd {} (.refl _), laneRow 0x07 opOr {} (.refl _), laneRow 0x08 opXor {} (.refl _),
    laneRow 0x09 opShl {} agrees_shl, laneRow 0x0A opShr {} agrees_shr, laneRow 0x0B opSar {} agrees_sar,
    laneRow 0x0C opMin {} (.refl _), laneRow 0x0D opMax {} (.refl _), laneRow 0x0E opClz {} agrees_clz, laneRow 0x0F opPopc {} (.refl _),
    laneRow 0x12 opMov {} (.refl _)⟩

/-! ### Division (R67) -/

theorem flagsOf_eq_zero {m : LaneMask} {f : LaneId → BitVec 6} (h : ∀ l, f l = 0) : flagsOf m f = 0 := by
  unfold flagsOf
  induction laneList m with
  | nil => rfl
  | cons l ls ih => simp [h]

theorem intReg_flags (op : IOp) (w : Nat) (uns sat : Bool) (a b c : Reg) : (intReg op w uns sat a b c).flags = 0 := rfl

/-- An integer form that does not trap writes registers and sets no flag. -/
theorem intForm_regs (op : IOp) {env : Env} {s : State} (hpt : (s.grp env.k).pt = false) :
    ∃ g cons, intForm op env s = .regs g 0 cons ∧ g.fflags = (s.grp env.k).fflags ∧ g.pend = (s.grp env.k).pend := by
  unfold intForm
  split
  · refine ⟨_, _, poisonGate_of_pt hpt, ?_, ?_⟩ <;> (unfold Group.wrS; split <;> rfl)
  · unfold laneInt
    rw [vecOut_of_pt hpt, flagsOf_eq_zero fun _ => intReg_flags ..]
    refine ⟨_, _, rfl, ?_, ?_⟩ <;> simp only [Group.wrV]

/-- An integer form sets no flag: none waits with its result, nor with an operation in flight. -/
theorem noFlags {short long : Fields → Instr} (maj : BitVec 7) (op : IOp) (h : Runs short long maj (intForm op)) :
    ∀ i ∈ [short, long], ∀ (f : Fields) (s : State) (env : Env), Issues (i f) s env → NoPoisonTrap s → Completes (i f) s fun t =>
      let g := (turn s).grp env.k
      (t.grp env.k).fflags = g.fflags ∧ (∀ p ∈ (t.grp env.k).pend, p.flags = 0 ∨ ∃ q ∈ g.pend, q.flags = p.flags)
        ∧ ∀ o ∈ t.ops, o.flags = 0 ∨ ∃ x ∈ s.ops, x.flags = o.flags := by
  intro i hi f s env hiss hpt
  rw [NoPoisonTrap, ← h.env_k hi hiss] at hpt
  obtain ⟨g, cons, hbody, hff, hpend⟩ := intForm_regs op hpt
  refine ⟨_, h.exec_issue hi hiss, ?_⟩
  rw [hbody]
  refine ⟨(finish_regs_sameRegs ..).2.2.2.1.trans hff, fun p hp => ?_, fun o ho => ?_⟩
  · rcases finish_regs_pend_flags hp with h0 | h0 | hq
    · exact .inl h0
    · exact .inl h0
    · exact .inr (hpend ▸ hq)
  · rcases finish_regs_ops ho with h0 | ho
    · exact .inl h0
    · exact .inr ⟨o, ho, rfl⟩

/-- Settles O4: the forms run `divTo` and `remTo`, which are the quotient and the remainder of R67, and set no flag. -/
theorem divisionRoundsTowardZero : Obligations.DivisionRoundsTowardZero := by
  refine ⟨fun f s env hpt => ⟨fun hfn => ⟨fun i hi hiss => ?_, fun i hi hiss => ?_⟩, fun hfn => ⟨fun i hi hiss => ?_, fun i hi hiss => ?_⟩⟩,
    fun i hi => ?_, by decide⟩
  · exact scalarRow 0x04 opDiv {} (.refl _) i hi f s env hiss hpt hfn
  · exact scalarRow 0x05 opRem {} (.refl _) i hi f s env hiss hpt hfn
  · exact laneRow 0x04 opDiv {} (.refl _) i hi f s env hiss hpt hfn
  · exact laneRow 0x05 opRem {} (.refl _) i hi f s env hiss hpt hfn
  · obtain h | hi := mem_forms hi
    · exact noFlags 0x04 opDiv {} i h
    obtain h | hi := mem_forms hi
    · exact noFlags 0x05 opRem {} i h
    obtain h | hi := mem_forms hi
    · exact noFlags 0x04 opDiv {} i h
    exact noFlags 0x05 opRem {} i hi

end Sys2Proof.Machine
end

section
/-!
PROOF of O11: rounding on a grid (R69, R70). Off the grid a magnitude lies between two multiples of the step; a rounding code chooses by
the remainder.
-/

namespace Sys2Proof.Machine

/-- Whether a rounding code takes the upper neighbour of a magnitude with quotient `n` and remainder `r` by the step `d` (R70, R72). -/
def roundsUp (rc draw : Nat) (neg : Bool) (n r d : Nat) : Bool :=
  match rc with
  | 0 => d < 2 * r || (2 * r = d && n % 2 = 1)
  | 1 => false
  | 2 => r != 0 && neg
  | 3 => r != 0 && !neg
  | 4 => d ≤ 2 * r
  | _ => r != 0 && draw < r * 2 ^ 32 / d

section
variable (rc draw : Nat) (neg : Bool) (m : Nat) {e q : Int} {d : Nat}

/-- A magnitude finer than the grid goes to one of its two neighbours, and is exact without a remainder. -/
theorem roundGrid_of_lt (h : e < q) (hd : d = 2 ^ (q - e).toNat) :
    roundGrid rc draw neg m e q =
      (if roundsUp rc draw neg (m / d) (m % d) d then m / d + 1 else m / d, decide (m % d = 0)) := by
  subst hd
  exact if_neg (Int.not_le.2 h)

/-- The upper neighbour exceeds the magnitude by what the remainder lacks to the step; the lower falls short of it by the remainder. -/
theorem roundGrid_neighbour (h : e < q) (hd : d = 2 ^ (q - e).toNat) :
    let x := (roundGrid rc draw neg m e q).1
    (roundsUp rc draw neg (m / d) (m % d) d = true ∧ x = m / d + 1 ∧ x * d + m % d = m + d)
      ∨ (roundsUp rc draw neg (m / d) (m % d) d = false ∧ x = m / d ∧ x * d + m % d = m) := by
  have hm : m / d * d + m % d = m := Nat.div_add_mod' m d
  rw [roundGrid_of_lt rc draw neg m h hd]
  cases roundsUp rc draw neg (m / d) (m % d) d with
  | true =>
    refine .inl ⟨rfl, rfl, ?_⟩
    show (m / d + 1) * d + m % d = m + d
    rw [Nat.succ_mul]
    omega
  | false => exact .inr ⟨rfl, rfl, hm⟩

/-- No code rounds a multiple of the step. -/
theorem roundsUp_zero (n : Nat) (hd : 0 < d) : roundsUp rc draw neg n 0 d = false := by
  unfold roundsUp
  split <;> simp
  all_goals omega

end

/-- Settles O11: each code takes the neighbour that its rule names. -/
theorem roundingPicksTheNeighbour : Obligations.RoundingPicksTheNeighbour := by
  intro neg m draw e q hlt d r
  have hd : 0 < d := Nat.two_pow_pos _
  have hr : m % d < d := Nat.mod_lt m hd
  have hnext (rc : Nat) : (roundsUp rc draw neg (m / d) (m % d) d = true ∧ r rc = m / d + 1 ∧ r rc * d + m % d = m + d)
      ∨ (roundsUp rc draw neg (m / d) (m % d) d = false ∧ r rc = m / d ∧ r rc * d + m % d = m) :=
    roundGrid_neighbour rc draw neg m hlt rfl
  have htwo (x : Nat) : 2 * x * d = 2 * (x * d) := Nat.mul_assoc 2 x d
  have hsucc (x : Nat) : (x + 1) * d = x * d + d := Nat.succ_mul x d
  simp only [htwo, hsucc]
  refine ⟨fun rc => ?_, fun rc hdvd => ?_, ?_, ?_, ?_, ?_, ?_, ?_⟩
  · rw [roundGrid_of_lt rc draw neg m hlt (d := d) rfl, decide_eq_true_iff, Nat.dvd_iff_mod_eq_zero]
  · have h0 := Nat.dvd_iff_mod_eq_zero.1 hdvd
    obtain ⟨hup, -, -⟩ | ⟨-, -, hx⟩ := hnext rc
    · rw [h0, roundsUp_zero rc draw neg _ hd] at hup
      cases hup
    · rwa [h0] at hx
  · obtain ⟨hup, hq, hx⟩ | ⟨hup, hq, hx⟩ := hnext 0 <;> simp [roundsUp] at hup <;> omega
  · obtain ⟨hup, -⟩ | ⟨-, -, hx⟩ := hnext 1
    · cases hup
    · omega
  · obtain ⟨hup, -, hx⟩ | ⟨hup, -, hx⟩ := hnext 2 <;> cases neg <;> simp [roundsUp] at hup ⊢ <;> omega
  · obtain ⟨hup, -, hx⟩ | ⟨hup, -, hx⟩ := hnext 3 <;> cases neg <;> simp [roundsUp] at hup ⊢ <;> omega
  · obtain ⟨hup, -, hx⟩ | ⟨hup, -, hx⟩ := hnext 4 <;> simp [roundsUp] at hup <;> omega
  · obtain ⟨-, -, hx⟩ | ⟨-, -, hx⟩ := hnext 5 <;> omega

end Sys2Proof.Machine
end

section
/-!
PROOF of O32: poison by element (R77). The poison byte of a packed register is packed as its value is, with elements of one bit for each
byte; so a poisoned element shows in every bit of its bytes, and in no other.
-/

namespace Sys2Proof.Machine

/-! ### The poison of packed registers -/

/-- The bits that an element of `n` bytes has in a poison byte. -/
def poiElem (n : Nat) (e : Elem) : Elem := (if e.2 then 2 ^ n - 1 else 0, false)

theorem packPoi_eq_packVal (w : Nat) (es : List Elem) : packPoi w es = packVal (w / 8) (es.map (poiElem (w / 8))) := by
  induction es with
  | nil => rfl
  | cons e r ih =>
    have hlt : (if e.2 then 2 ^ (w / 8) - 1 else 0) < 2 ^ (w / 8) := by
      have : 0 < 2 ^ (w / 8) := Nat.two_pow_pos _
      split <;> omega
    simp only [packPoi, List.map_cons, packVal, poiElem, Nat.mod_eq_of_lt hlt, ih]

section
variable {w : Nat} {es : List Elem} {j : Nat}

/-- The bits of element `j` in the poison byte of a packed register. -/
theorem poi_packReg (h8 : 8 ≤ w) (hj : j < es.length) (h64 : w / 8 * es.length ≤ 8) :
    (packReg w es).poi.toNat / 2 ^ (w / 8 * j) % 2 ^ (w / 8) = if es[j].2 then 2 ^ (w / 8) - 1 else 0 := by
  have hlt : packPoi w es < 2 ^ 8 := by
    rw [packPoi_eq_packVal]
    exact (packVal_lt _ _).trans_le (Nat.pow_le_pow_right (by decide) (by simpa using h64))
  have hone : (if es[j].2 then 2 ^ (w / 8) - 1 else 0) < 2 ^ (w / 8) := by
    have : 0 < 2 ^ (w / 8) := Nat.two_pow_pos _
    split <;> omega
  have hpack := packVal_elem (w / 8) (es.map (poiElem (w / 8))) j (by simpa using hj)
  simp only [packReg, if_neg (Nat.not_lt.2 h8), BitVec.toNat_ofNat]
  rw [Nat.mod_eq_of_lt hlt, packPoi_eq_packVal, hpack, List.getElem_map]
  exact Nat.mod_eq_of_lt hone

/-- An element of a packed register is poisoned where it was packed so. -/
theorem elemBad_packReg (h8 : 8 ≤ w) (hd : 8 ∣ w) (hj : j < es.length) (h64 : w / 8 * es.length ≤ 8) :
    elemBad (packReg w es) w j = es[j].2 := by
  have hn : max 1 (w / 8) = w / 8 := by omega
  have hi : w * j / 8 = w / 8 * j := (Nat.div_mul_right_comm hd j).symm
  have hne : 2 ^ (w / 8) - 1 ≠ 0 := by
    have := Nat.lt_two_pow_self (n := w / 8)
    omega
  rw [elemBad, hn, hi, poi_packReg h8 hj h64]
  cases es[j].2 <;> simp [hne]

/-- Every byte of a poisoned element is poisoned. -/
theorem getLsbD_poi_packReg (h8 : 8 ≤ w) (hj : j < es.length) (h64 : w / 8 * es.length ≤ 8) (hbad : es[j].2 = true) {b : Nat}
    (hb : b < w / 8) : (packReg w es).poi.getLsbD (w / 8 * j + b) = true := by
  have h := poi_packReg h8 hj h64
  rw [hbad, if_pos rfl] at h
  have ht := congrArg (Nat.testBit · b) h
  simpa [Nat.testBit_mod_two_pow, Nat.testBit_div_two_pow, Nat.testBit_two_pow_sub_one, hb, BitVec.getLsbD, Nat.add_comm] using ht

end

/-! ### Lane instructions that spread poison -/

section
variable {short long i : Fields → Instr} {maj : BitVec 7} {body : Env → State → Out} {f : Fields} {s : State} {env : Env}

/-- A lane instruction whose element `j` is `nan`, poisoned, where A or B is poisoned there, and without poison elsewhere. -/
def Spreads (i : Instr) (s : State) (env : Env) (w nan : Nat) : Prop :=
  Completes i s fun t => ∀ l : LaneId, env.e.getLsbD l = true → ∀ j, j < 64 / w →
    let r := (t.grp env.k).rdV env.f.d.toNat l
    let bad := elemBad (env.srcA ((turn s).grp env.k) l) w j || elemBad (env.srcB ((turn s).grp env.k) l) w j
    (bad = true → elem r w j = nan ∧ ∀ b, b < w / 8 → r.poi.getLsbD (w / 8 * j + b) = true) ∧ (bad = false → elemBad r w j = false)

/-- A body that packs elements of their own poison spreads it (R77). -/
theorem Runs.spreads (h : Runs short long maj body) (hi : i ∈ [short, long]) (hiss : Issues (i f) s env) (hpt : NoPoisonTrap s)
    {w nan : Nat} (h8 : 8 ≤ w) (hd : 8 ∣ w) (hnan : nan < 2 ^ w) {el : LaneId → Nat → Elem} {res : LaneId → LRes}
    (hb : body env (turn s) = Machine.vecOut env (turn s) res) (hres : ∀ l, (res l).r = packReg w ((List.range (64 / w)).map (el l)))
    (hel : ∀ l j,
      let bad := elemBad (env.srcA ((turn s).grp env.k) l) w j || elemBad (env.srcB ((turn s).grp env.k) l) w j
      (bad = true → el l j = (nan, true)) ∧ (bad = false → (el l j).2 = false)) :
    Spreads (i f) s env w nan := by
  obtain ⟨t, hexec, -, hreg⟩ := h.vecOut hi hiss hpt hb
  refine ⟨t, hexec, fun l hl j hj => ?_⟩
  rw [hreg l hl, hres l]
  obtain ⟨hbad, hok⟩ := hel l j
  have hlen : j < ((List.range (64 / w)).map (el l)).length := by simpa using hj
  have h64 : w / 8 * ((List.range (64 / w)).map (el l)).length ≤ 8 := by
    have h1 := Nat.mul_div_le 64 w
    have h2 : w * (64 / w) = 8 * (w / 8 * (64 / w)) := by rw [← Nat.mul_assoc, Nat.mul_div_cancel' hd]
    simp only [List.length_map, List.length_range]
    omega
  have hget : ((List.range (64 / w)).map (el l))[j] = el l j := by simp
  refine ⟨fun hp => ⟨?_, fun b hb => ?_⟩, fun hp => ?_⟩
  · rw [elem_packReg w _ j hlen (by simpa using Nat.mul_div_le 64 w), hget, hbad hp]
    exact Nat.mod_eq_of_lt hnan
  · exact getLsbD_poi_packReg h8 hlen h64 (by rw [hget, hbad hp]) hb
  · rw [elemBad_packReg h8 hd hlen h64, hget, hok hp]

end

theorem dvd_intWidth (f : Fields) : 8 ∣ intWidth f := by
  unfold intWidth
  split <;> decide

/-- An element of an operation on A and B is 0 and poisoned where A or B is (R106). -/
theorem intElem_of_bad {op : IOp} (ha : op.ra = true) (hb : op.rb = true) (hc : op.rc = false) (w : Nat) (uns sat : Bool) (a b c : Reg)
    (j : Nat) : let bad := elemBad a w j || elemBad b w j
    (bad = true → (intElem op w uns sat a b c j).1 = (0, true)) ∧ (bad = false → (intElem op w uns sat a b c j).1.2 = false) := by
  unfold intElem
  rw [ha, hb, hc]
  cases elemBad a w j <;> cases elemBad b w j <;> simp

/-- A lane form of the integer instructions, with the scalar form of its operation, which has FN 2 and, where the operation has an unsigned
form, 3 (R41). -/
structure LaneForm (short long sShort sLong : Fields → Instr) (maj : BitVec 7) (op : IOp) (uns : Bool) : Prop extends
    Runs short long maj (intForm op) where
  signed : ∀ f : Fields, mkInstr maj { f with fn := 2 } = form { f with fn := 2 } sShort sLong := by intro f; rfl
  unsigned : ∀ f : Fields, mkInstr maj { f with fn := 3 } = if uns then form { f with fn := 3 } sShort sLong else none := by
    intro f; rfl
  ne : ∀ f, short f ≠ sShort f ∧ short f ≠ sLong f ∧ long f ≠ sShort f ∧ long f ≠ sLong f := by intro f; simp
  ra : op.ra = true := by rfl
  rb : op.rb = true := by rfl
  rc : op.rc = false := by rfl

section
variable {short long sShort sLong i : Fields → Instr} {maj : BitVec 7} {op : IOp} {uns : Bool} {f : Fields} {s : State} {env : Env}

theorem eq_of_form {f : Fields} {x : Instr} (h : form f short long = some x) : x = short f ∨ x = long f := by
  cases h
  exact ite_eq_or_eq _ _ _

/-- The FN of a lane form that issues has bit 1 clear. -/
theorem LaneForm.fn (h : LaneForm short long sShort sLong maj op uns) (hi : i ∈ [short, long]) (hiss : Issues (i f) s env) :
    f.fn.getLsbD 1 = false := by
  obtain ⟨hm, hf⟩ := h.env_eq hi hiss
  have hform := hiss.form
  rw [hm, hf] at hform
  by_contra hfn
  have h23 : ∀ x : BitVec 2, x.getLsbD 1 ≠ false → x = 2 ∨ x = 3 := by decide
  have hscalar : i f = sShort f ∨ i f = sLong f := by
    rcases h23 _ hfn with h2 | h3
    · have hf2 : { f with fn := 2 } = f := by rw [← h2]
      have hs := h.signed f
      rw [hf2, hform] at hs
      exact eq_of_form hs.symm
    · have hf3 : { f with fn := 3 } = f := by rw [← h3]
      have hu := h.unsigned f
      rw [hf3, hform] at hu
      split at hu
      · exact eq_of_form hu.symm
      · cases hu
  obtain ⟨h1, h2, h3, h4⟩ := h.ne f
  rcases List.mem_pair.1 hi with rfl | rfl
  · exact hscalar.elim h1 h2
  · exact hscalar.elim h3 h4

/-- A lane integer form on A and B spreads the poison of each element as a poisoned 0. -/
theorem LaneForm.spreads (h : LaneForm short long sShort sLong maj op uns) (hi : i ∈ [short, long]) (hpt : NoPoisonTrap s)
    (hiss : Issues (i f) s env) : Spreads (i f) s env (intWidth f) 0 := by
  have hfn := h.fn hi hiss
  obtain ⟨-, rfl⟩ := h.env_eq hi hiss
  let g := (turn s).grp env.k
  exact h.toRuns.spreads hi hiss hpt (eight_le_intWidth _) (dvd_intWidth _) (Nat.two_pow_pos _) (if_neg (by rw [hfn]; decide))
    (el := fun l j => (intElem op (intWidth env.f) (env.f.fn.getLsbD 0) env.f.md[2] (env.srcA g l) (env.srcB g l) (env.srcC g l) j).1)
    (fun l => congrArg (packReg _) (List.map_map ..)) (fun l j => intElem_of_bad h.ra h.rb h.rc _ _ _ _ _ _ j)

end

/-! ### Floating-point forms -/

theorem fnFmt_w (f : Fields) : (fnFmt f).w = 8 ∨ (fnFmt f).w = 16 ∨ (fnFmt f).w = 32 := by
  unfold fnFmt
  split
  · decide
  · decide
  · decide
  · split <;> decide

theorem fnFmt_canon_lt (f : Fields) : (fnFmt f).canon < 2 ^ (fnFmt f).w := by
  unfold fnFmt
  split
  · decide
  · decide
  · decide
  · split <;> decide

/-- An element computed from A and B is the poison value and poisoned where A or B is (R77). -/
theorem fElem_of_bad (pv w : Nat) (a b : Reg) (j : Nat) (go : List Nat → Nat × BitVec 6) :
    let bad := elemBad a w j || elemBad b w j
    (bad = true → (fElem pv [(a, w, j), (b, w, j)] go).e = (pv, true))
      ∧ (bad = false → (fElem pv [(a, w, j), (b, w, j)] go).e.2 = false) := by
  unfold fElem
  cases ha : elemBad a w j <;> cases hb : elemBad b w j <;> simp [ha, hb]

/-- A floating-point form on A and B spreads the poison of each element as a poisoned canonical NaN. -/
theorem floatSpreads {short long i : Fields → Instr} {f : Fields} {s : State} {env : Env} (maj : BitVec 7)
    (go : Fmt → Nat → List Nat → Nat × BitVec 6) (h : Runs short long maj (floatBody srcAB Fmt.canon go)) (hi : i ∈ [short, long])
    (hpt : NoPoisonTrap s) (hiss : Issues (i f) s env) : Spreads (i f) s env (fnFmt f).w (fnFmt f).canon := by
  obtain ⟨-, rfl⟩ := h.env_eq hi hiss
  let g := (turn s).grp env.k
  have hw := fnFmt_w env.f
  exact h.spreads hi hiss hpt (by omega) (by omega) (fnFmt_canon_lt _) rfl
    (el := fun l j => (fElem (fnFmt env.f).canon [(env.srcA g l, (fnFmt env.f).w, j), (env.srcB g l, (fnFmt env.f).w, j)]
      (go (fnFmt env.f) env.f.rn)).e)
    (fun l => congrArg (packReg _) (List.map_map ..)) (fun l j => fElem_of_bad ..)

/-- Settles O32: every form packs elements that are poisoned where A or B is. -/
theorem poisonSpreads : Obligations.PoisonSpreads := by
  intro f s env hpt bad spread
  constructor
  · intro i hi hiss
    obtain h | hi := mem_forms hi
    · have hf : LaneForm .iadd .iaddExt .sadd .saddExt 0x00 opAdd true := {}
      exact hf.spreads h hpt hiss
    obtain h | hi := mem_forms hi
    · have hf : LaneForm .isub .isubExt .ssub .ssubExt 0x01 opSub true := {}
      exact hf.spreads h hpt hiss
    obtain h | hi := mem_forms hi
    · have hf : LaneForm .imul .imulExt .smul .smulExt 0x02 opMul true := {}
      exact hf.spreads h hpt hiss
    obtain h | hi := mem_forms hi
    · have hf : LaneForm .imulh .imulhExt .smulh .smulhExt 0x03 opMulh true := {}
      exact hf.spreads h hpt hiss
    obtain h | hi := mem_forms hi
    · have hf : LaneForm .iand .iandExt .sand .sandExt 0x06 opAnd false := {}
      exact hf.spreads h hpt hiss
    obtain h | hi := mem_forms hi
    · have hf : LaneForm .ior .iorExt .sor .sorExt 0x07 opOr false := {}
      exact hf.spreads h hpt hiss
    obtain h | hi := mem_forms hi
    · have hf : LaneForm .ixor .ixorExt .sxor .sxorExt 0x08 opXor false := {}
      exact hf.spreads h hpt hiss
    obtain h | hi := mem_forms hi
    · have hf : LaneForm .imin .iminExt .smin .sminExt 0x0C opMin true := {}
      exact hf.spreads h hpt hiss
    have hf : LaneForm .imax .imaxExt .smax .smaxExt 0x0D opMax true := {}
    exact hf.spreads hi hpt hiss
  · intro i hi hiss
    obtain h | hi := mem_forms hi
    · exact floatSpreads 0x30 _ {} h hpt hiss
    obtain h | hi := mem_forms hi
    · exact floatSpreads 0x31 _ {} h hpt hiss
    obtain h | hi := mem_forms hi
    · exact floatSpreads 0x32 _ {} h hpt hiss
    obtain h | hi := mem_forms hi
    · exact floatSpreads 0x37 _ {} h hpt hiss
    obtain h | hi := mem_forms hi
    · exact floatSpreads 0x38 _ {} h hpt hiss
    obtain h | hi := mem_forms hi
    · exact floatSpreads 0x39 _ {} h hpt hiss
    exact floatSpreads 0x3A _ {} hi hpt hiss

end Sys2Proof.Machine
end

section
/-!
PROOF of O43: conversions between integers and floating point (R68, R141, R142). `convLane` is what a conversion writes in a lane; the
conversions of O43 differ in the function of one code that it applies.
-/

namespace Sys2Proof.Machine

/-! ### A value as an integer (R68) -/

/-- A finite value that is not 0 is rounded to an integer, and an integer beyond the range goes to its nearest end. -/
theorem valToInt_fin (rc draw : Nat) (lo hi : Int) (neg : Bool) {m : Nat} {e : Int} (hm : m ≠ 0) (he : e ≤ 128) :
    valToInt rc draw lo hi (.fin neg m e) =
      let r := roundGrid rc draw neg m e 0
      let x : Int := if neg then -(r.1 : Int) else r.1
      if x < lo then (lo, fNV) else if hi < x then (hi, fNV) else (x, if r.2 then 0 else fNX) := by
  simp only [valToInt, if_neg hm, min_eq_left he]

/-! ### Elements put into a register -/

theorem testBit_elem (r : Reg) (w j b : Nat) : (elem r w j).testBit b = (decide (b < w) && r.val.toNat.testBit (w * j + b)) := by
  rw [elem, Nat.testBit_mod_two_pow, Nat.testBit_div_two_pow, Nat.add_comm]

theorem testBit_spliceNat (x lo n y k : Nat) :
    (spliceNat x lo n y).testBit k = if lo ≤ k ∧ k < lo + n then y.testBit (k - lo) else x.testBit k := by
  have h1 : x % 2 ^ lo < 2 ^ lo := Nat.mod_lt _ (Nat.two_pow_pos _)
  have h2 : 2 ^ lo * (y % 2 ^ n) + x % 2 ^ lo < 2 ^ (lo + n) := by
    have h3 : y % 2 ^ n + 1 ≤ 2 ^ n := Nat.mod_lt _ (Nat.two_pow_pos _)
    calc 2 ^ lo * (y % 2 ^ n) + x % 2 ^ lo < 2 ^ lo * (y % 2 ^ n) + 2 ^ lo := by omega
      _ = 2 ^ lo * (y % 2 ^ n + 1) := rfl
      _ ≤ 2 ^ lo * 2 ^ n := Nat.mul_le_mul_left _ h3
      _ = 2 ^ (lo + n) := (Nat.pow_add ..).symm
  have hs : spliceNat x lo n y = 2 ^ (lo + n) * (x / 2 ^ (lo + n)) + (2 ^ lo * (y % 2 ^ n) + x % 2 ^ lo) := by
    unfold spliceNat
    omega
  rw [hs, Nat.testBit_two_pow_mul_add _ h2, Nat.testBit_two_pow_mul_add _ h1]
  by_cases hk : k < lo + n
  · by_cases hlo : k < lo
    · rw [if_pos hk, if_pos hlo, if_neg (by omega), Nat.testBit_mod_two_pow, decide_eq_true hlo, Bool.true_and]
    · rw [if_pos hk, if_neg hlo, if_pos (by omega), Nat.testBit_mod_two_pow, decide_eq_true (by omega), Bool.true_and]
  · rw [if_neg hk, if_neg (by omega), Nat.testBit_div_two_pow, Nat.sub_add_cancel (by omega)]

section
variable (base : Reg) {w i j : Nat} {es : List Elem}

theorem testBit_elem_insertElems (hj : j < 64 / w) {b : Nat} (hb : b < w) :
    (elem (insertElems base w i es) w j).testBit b =
      if w * i ≤ w * j + b ∧ w * j + b < w * i + w * es.length then (packReg w es).val.toNat.testBit (w * j + b - w * i)
      else base.val.toNat.testBit (w * j + b) := by
  have h64 : w * j + b < 64 := by
    have h1 : w * (j + 1) ≤ 64 := (Nat.mul_le_mul_left w hj).trans (Nat.mul_div_le 64 w)
    rw [Nat.mul_succ] at h1
    omega
  rw [testBit_elem, decide_eq_true hb, Bool.true_and]
  simp only [insertElems, BitVec.toNat_ofNat, Nat.testBit_mod_two_pow, decide_eq_true h64, Bool.true_and, testBit_spliceNat]

/-- An element that was put in reads as it was packed. -/
theorem elem_insertElems_of_mem {n : Nat} (hn : n < es.length) (h : i + es.length ≤ 64 / w) :
    elem (insertElems base w i es) w (i + n) = es[n].1 % 2 ^ w := by
  have hlen : w * es.length ≤ 64 := (Nat.mul_le_mul_left w (by omega)).trans (Nat.mul_div_le 64 w)
  rw [← elem_packReg w es n hn hlen]
  refine Nat.eq_of_testBit_eq fun b => ?_
  by_cases hb : b < w
  · have h1 : w * n + w ≤ w * es.length := Nat.mul_le_mul_left w hn
    rw [testBit_elem_insertElems base (by omega) hb, testBit_elem, decide_eq_true hb, Bool.true_and, Nat.mul_add, if_pos (by omega)]
    congr 1
    omega
  · rw [testBit_elem, testBit_elem, decide_eq_false hb, Bool.false_and, Bool.false_and]

/-- An element beside those put in is the old one. -/
theorem elem_insertElems_of_not_mem (hj : j < 64 / w) (h : j < i ∨ i + es.length ≤ j) :
    elem (insertElems base w i es) w j = elem base w j := by
  refine Nat.eq_of_testBit_eq fun b => ?_
  by_cases hb : b < w
  · have hout : ¬(w * i ≤ w * j + b ∧ w * j + b < w * i + w * es.length) := by
      rcases h with h | h
      · have : w * j + w ≤ w * i := Nat.mul_le_mul_left w h
        omega
      · have : w * i + w * es.length ≤ w * j := by
          rw [← Nat.mul_add]
          exact Nat.mul_le_mul_left w h
        omega
    rw [testBit_elem_insertElems base hj hb, if_neg hout, testBit_elem, decide_eq_true hb, Bool.true_and]
  · rw [testBit_elem, testBit_elem, decide_eq_false hb, Bool.false_and, Bool.false_and]

theorem poi_insertElems (hbase : base.poi = 0) (hpack : (packReg w es).poi = 0) : (insertElems base w i es).poi = 0 := by
  simp [insertElems, hbase, hpack, spliceNat]

end

/-! ### Flags of an issue -/

/-- A bit of flags that are gathered over a list is one of an element (R75). -/
theorem getLsbD_foldl_or {α : Type} (f : α → BitVec 6) (l : List α) (z : BitVec 6) (n : Nat) :
    (l.foldl (fun a x => a ||| f x) z).getLsbD n = true ↔ z.getLsbD n = true ∨ ∃ x ∈ l, (f x).getLsbD n = true := by
  induction l generalizing z with
  | nil => simp
  | cons x l ih =>
    simp only [List.foldl_cons, ih, BitVec.getLsbD_or, Bool.or_eq_true, List.mem_cons, exists_eq_or_imp, or_assoc]

theorem getLsbD_flagsOf (m : LaneMask) (f : LaneId → BitVec 6) (n : Nat) :
    (flagsOf m f).getLsbD n = true ↔ ∃ l : LaneId, m.getLsbD l = true ∧ (f l).getLsbD n = true := by
  unfold flagsOf
  rw [getLsbD_foldl_or]
  simp [laneList]

theorem getLsbD_fReg_flags (w : Nat) (es : List FElem) (n : Nat) :
    (fReg w es).flags.getLsbD n = true ↔ ∃ x ∈ es, x.flags.getLsbD n = true := by
  unfold fReg
  rw [getLsbD_foldl_or]
  simp

/-! ### What a conversion writes in a lane (R141) -/

/-- The source element of destination element `i` of a conversion, for part `q` of `m` elements. -/
def convSrc (ws wd q m i : Nat) : Nat := if ws < wd then q * m + i else i

/-- The place of destination element `i` of a conversion. -/
def convDst (ws wd q m i : Nat) : Nat := if wd < ws then q * m + i else i

/-- The converted elements of a lane. -/
def convElems (ws wd pv : Nat) (one : Nat → Nat → Nat × BitVec 6) (env : Env) (s : State) (l : LaneId) : List FElem :=
  let m := 64 / max ws wd
  let q := env.f.xf.toNat
  (List.range m).map fun i => fElem pv [(env.srcA (s.grp env.k) l, ws, convSrc ws wd q m i)] fun cs =>
    one (cs.getD 0 0) (env.draw s l (convDst ws wd q m i))

/-- The result of a conversion in a lane. -/
def convLane (ws wd pv : Nat) (one : Nat → Nat → Nat × BitVec 6) (env : Env) (s : State) (l : LaneId) : LRes :=
  let es := convElems ws wd pv one env s l
  let r := fReg wd es
  if wd < ws then { r with r := insertElems (env.srcC (s.grp env.k) l) wd (env.f.xf.toNat * (64 / max ws wd)) (es.map FElem.e) } else r

theorem convBody_eq (ws wd pv : Nat) (one : Nat → Nat → Nat × BitVec 6) (env : Env) (s : State) :
    convBody ws wd pv one env s = vecOutG env s ((s.grp env.k).advanceDraw env) (convLane ws wd pv one env s) := rfl

section
variable {ws wd pv : Nat} {one : Nat → Nat → Nat × BitVec 6} {env : Env} {s : State} {l : LaneId}

theorem convElems_length : (convElems ws wd pv one env s l).length = 64 / max ws wd := by simp [convElems]

/-- A converted element of a clean source is the code and the flags of the conversion (R77). -/
theorem convElems_getElem (ha : (env.srcA (s.grp env.k) l).poi = 0) {i : Nat} (hi : i < (convElems ws wd pv one env s l).length) :
    (convElems ws wd pv one env s l)[i] =
      let m := 64 / max ws wd
      let q := env.f.xf.toNat
      let r := one (elem (env.srcA (s.grp env.k) l) ws (convSrc ws wd q m i)) (env.draw s l (convDst ws wd q m i))
      { e := (r.1, false), flags := r.2 } := by
  simp only [convElems, List.getElem_map, List.getElem_range, fElem, List.countP_cons, List.countP_nil, elemBad_clean ha]
  rfl

theorem packReg_convElems_poi (h8 : 8 ≤ wd) (ha : (env.srcA (s.grp env.k) l).poi = 0) :
    (packReg wd ((convElems ws wd pv one env s l).map FElem.e)).poi = 0 := by
  have hnil : packPoi wd ((convElems ws wd pv one env s l).map FElem.e) = 0 := by
    refine packPoi_clean _ _ fun e he => ?_
    obtain ⟨x, hx, rfl⟩ := List.mem_map.1 he
    obtain ⟨i, hi, rfl⟩ := List.getElem_of_mem hx
    rw [convElems_getElem ha hi]
  simp only [packReg, if_neg (Nat.not_lt.2 h8), hnil]
  rfl

theorem convLane_flags (ha : (env.srcA (s.grp env.k) l).poi = 0) (n : Nat) :
    (convLane ws wd pv one env s l).flags.getLsbD n = true ↔ ∃ j, j < 64 / max ws wd ∧
      (one (elem (env.srcA (s.grp env.k) l) ws (convSrc ws wd env.f.xf.toNat (64 / max ws wd) j))
        (env.draw s l (convDst ws wd env.f.xf.toNat (64 / max ws wd) j))).2.getLsbD n = true := by
  have hflags : (convLane ws wd pv one env s l).flags = (fReg wd (convElems ws wd pv one env s l)).flags := by
    unfold convLane
    dsimp only
    split <;> rfl
  rw [hflags, getLsbD_fReg_flags]
  constructor
  · rintro ⟨x, hx, hn⟩
    obtain ⟨i, hi, rfl⟩ := List.getElem_of_mem hx
    rw [convElems_getElem ha hi] at hn
    exact ⟨i, convElems_length ▸ hi, hn⟩
  · rintro ⟨i, hi, hn⟩
    have hi' : i < (convElems ws wd pv one env s l).length := convElems_length.symm ▸ hi
    exact ⟨_, List.getElem_mem hi', by rw [convElems_getElem ha hi']; exact hn⟩

/-- The elements of a conversion's result: those of its part are converted, and where it narrows the others are those of C. -/
theorem convLane_elems (h8 : 8 ≤ wd) (ha : (env.srcA (s.grp env.k) l).poi = 0) (hc : (env.srcC (s.grp env.k) l).poi = 0)
    (hfit : wd < ws → env.f.xf.toNat * (64 / max ws wd) + 64 / max ws wd ≤ 64 / wd) :
    let r := (convLane ws wd pv one env s l).r
    let m := 64 / max ws wd
    let q := env.f.xf.toNat * m
    r.poi = 0 ∧ (∀ n, n < m → elem r wd (convDst ws wd env.f.xf.toNat m n) =
        (one (elem (env.srcA (s.grp env.k) l) ws (convSrc ws wd env.f.xf.toNat m n))
          (env.draw s l (convDst ws wd env.f.xf.toNat m n))).1 % 2 ^ wd)
      ∧ (wd < ws → ∀ j, j < 64 / wd → (j < q ∨ q + m ≤ j) → elem r wd j = elem (env.srcC (s.grp env.k) l) wd j) := by
  dsimp only
  have hpoi := packReg_convElems_poi (pv := pv) (one := one) (ws := ws) h8 ha
  have hlen : ((convElems ws wd pv one env s l).map FElem.e).length = 64 / max ws wd := by rw [List.length_map, convElems_length]
  by_cases hn : wd < ws
  · have hr : (convLane ws wd pv one env s l).r = insertElems (env.srcC (s.grp env.k) l) wd (env.f.xf.toNat * (64 / max ws wd))
        ((convElems ws wd pv one env s l).map FElem.e) := by
      unfold convLane
      simp only [if_pos hn]
    rw [hr]
    refine ⟨poi_insertElems _ hc hpoi, fun n hlt => ?_, fun _ j hj hout => ?_⟩
    · have hlt' : n < ((convElems ws wd pv one env s l).map FElem.e).length := hlen.symm ▸ hlt
      rw [convDst, if_pos hn, elem_insertElems_of_mem _ hlt' (by rw [hlen]; exact hfit hn), List.getElem_map, convElems_getElem ha]
      simp only [convDst, if_pos hn]
    · exact elem_insertElems_of_not_mem _ hj (by rwa [hlen])
  · have hr : (convLane ws wd pv one env s l).r = packReg wd ((convElems ws wd pv one env s l).map FElem.e) := by
      unfold convLane
      simp only [if_neg hn]
      rfl
    rw [hr]
    refine ⟨hpoi, fun n hlt => ?_, fun h => absurd h hn⟩
    have hlt' : n < ((convElems ws wd pv one env s l).map FElem.e).length := hlen.symm ▸ hlt
    have h64 : wd * ((convElems ws wd pv one env s l).map FElem.e).length ≤ 64 := by
      rw [hlen, max_eq_right (Nat.not_lt.1 hn)]
      exact Nat.mul_div_le 64 wd
    rw [convDst, if_neg hn, elem_packReg wd _ n hlt' h64, List.getElem_map, convElems_getElem ha]
    simp only [convDst, if_neg hn]

end

/-! ### The issue of a conversion -/

theorem advanceDraw_lane_st (g : Group) (env : Env) (l : LaneId) : (g.advanceDraw env).lane[l].st = g.lane[l].st := by
  unfold Group.advanceDraw Group.mapLanes
  split
  · simp only [Fin.getElem_fin, Vector.getElem_ofFn]
    split <;> rfl
  · rfl

theorem wrV_lane (g : Group) (n : Nat) (m : LaneMask) (r : LaneId → Reg) : (g.wrV n m r).lane = g.lane := by simp only [Group.wrV]

/-- The checks of the fields have passed before an issue (R40). -/
theorem begin_fieldsOk {maj : BitVec 7} {f : Fields} {s : State} {k : Nat} {env : Env} {sync : Bool} (h : begin maj f s k = .go env sync) :
    env.sh.fieldsOk f = true := by
  obtain ⟨hsel, hsh, -⟩ := begin_select h
  by_contra hno
  rw [Bool.not_eq_true] at hno
  unfold begin at h
  simp only [hsel, hsh, hno, Bool.not_false, Bool.true_or, if_true] at h
  split_ifs at h

section
variable {short long i : Fields → Instr} {maj : BitVec 7} {body : Env → State → Out} {f : Fields} {s : State} {env : Env}
  {ws wd pv : Nat} {one : Nat → Nat → Nat × BitVec 6}

/-- A conversion completes with the result of each executing lane in v[D], its path goes on, and its flags wait to land with it. -/
theorem Runs.conv (h : Runs short long maj body) (hi : i ∈ [short, long]) (hiss : Issues (i f) s env) (hpt : NoPoisonTrap s)
    (hlat : env.sh.lat ≠ 0) (hb : body env (turn s) = convBody ws wd pv one env (turn s)) :
    Completes (i f) s fun t => Advances env t
      ∧ (∀ l : LaneId, env.e.getLsbD l = true → (t.grp env.k).rdV env.f.d.toNat l = (convLane ws wd pv one env (turn s) l).r)
      ∧ ∃ p, (t.grp env.k).pend.getLast? = some p ∧ p.flags = flagsOf env.e fun l => (convLane ws wd pv one env (turn s) l).flags := by
  have hgo := h.go hi hiss
  rw [NoPoisonTrap, ← h.env_k hi hiss] at hpt
  refine ⟨_, h.exec_issue hi hiss, ?_⟩
  rw [hb, convBody_eq, vecOutG]
  dsimp only
  rw [poisonGate_of_pt hpt]
  refine ⟨fun l hl => ?_, fun l hl => ?_, finish_regs_getLast_pend hlat⟩
  · refine finish_regs_of_lane_st hgo (fun l => ?_) l hl
    rw [lanes_of_group (wrV_lane ..)]
    exact advanceDraw_lane_st _ env l
  · rw [(finish_regs_sameRegs ..).rdV, Group.rdV_wrV, if_pos ⟨rfl, hl⟩]

/-- The values of a conversion whose part lies in the destination are those of its function of one code (R141). -/
theorem Runs.convResult (h : Runs short long maj body) (hi : i ∈ [short, long]) (hiss : Issues (i f) s env) (hpt : NoPoisonTrap s)
    (hlat : env.sh.lat ≠ 0) (hb : body env (turn s) = convBody ws wd pv one env (turn s)) (h8 : 8 ≤ wd)
    (hfit : wd < ws → env.f.xf.toNat * (64 / max ws wd) + 64 / max ws wd ≤ 64 / wd) {val : Nat → Nat → Nat}
    (hval : ∀ c dr, (one c dr).1 % 2 ^ wd = val dr c % 2 ^ wd) : ConvResult (i f) s env ws wd val := by
  obtain ⟨t, hexec, hadv, hreg, -⟩ := h.conv hi hiss hpt hlat hb
  refine ⟨t, hexec, hadv, fun l hl hclean => ?_⟩
  obtain ⟨hpoi, hpart, hrest⟩ := convLane_elems (pv := pv) (one := one) h8 hclean.1 hclean.2.2 hfit
  dsimp only
  rw [hreg l hl]
  exact ⟨hpoi, fun n hn => (hpart n hn).trans (hval _ _), hrest⟩

/-- The flags of a conversion are those of every element of every executing lane (R75, R76). -/
theorem Runs.convFlags (h : Runs short long maj body) (hi : i ∈ [short, long]) (hiss : Issues (i f) s env) (hpt : NoPoisonTrap s)
    (hlat : env.sh.lat ≠ 0) (hb : body env (turn s) = convBody ws wd pv one env (turn s)) :
    Completes (i f) s fun t => (∀ l : LaneId, env.e.getLsbD l = true → CleanAt env ((turn s).grp env.k) l) →
      ∃ p, (t.grp env.k).pend.getLast? = some p ∧ ∀ n, p.flags.getLsbD n = true ↔
        ∃ l : LaneId, env.e.getLsbD l = true ∧ ∃ j, j < 64 / max ws wd ∧
          (one (elem (env.srcA ((turn s).grp env.k) l) ws (convSrc ws wd env.f.xf.toNat (64 / max ws wd) j))
            (env.draw (turn s) l (convDst ws wd env.f.xf.toNat (64 / max ws wd) j))).2.getLsbD n = true := by
  obtain ⟨t, hexec, -, -, p, hp, hflags⟩ := h.conv hi hiss hpt hlat hb
  refine ⟨t, hexec, fun hclean => ⟨p, hp, fun n => ?_⟩⟩
  rw [hflags, getLsbD_flagsOf]
  exact exists_congr fun l => and_congr_right fun hl => convLane_flags (hclean l hl).1 n

end

/-! ### CVTI (R142) -/

theorem runs_cvti : Runs .cvti .cvtiExt 0x4E cvtiBody := {}

theorem ftWidth_eq : ∀ t, ftWidth t = (cvtFmt t).w
  | 0 | 1 | 2 | 3 => rfl
  | t + 4 => by
    rw [ftWidth, if_neg (by omega), if_neg (by omega)]
    rfl

theorem itWidth_cases (t : Nat) : itWidth t = 8 ∨ itWidth t = 16 ∨ itWidth t = 32 ∨ itWidth t = 64 := by
  unfold itWidth
  split_ifs <;> simp

theorem cvtFmt_w (t : Nat) : (cvtFmt t).w = 8 ∨ (cvtFmt t).w = 16 ∨ (cvtFmt t).w = 32 := by
  unfold cvtFmt
  split <;> decide

/-- Without SAT an integer is wrapped (R66). -/
theorem narrow_wrap (w : Nat) (uns : Bool) (t : Int) : narrow w uns false t = wrapTo w t := rfl

/-- The widths of the source and of the destination of a CVTI. -/
def cvtiWidths (f : Fields) : Nat × Nat :=
  let iw := itWidth (bits f.b 3 2)
  let fw := (cvtFmt (bits f.b 0 3)).w
  if f.b.getLsbD 5 then (iw, fw) else (fw, iw)

theorem shape_cvti (f : Fields) : shape 0x4E f = if f.fn = 0 then
    some (shapeConv f (if f.b.getLsbD 5 then itWidth (bits f.b 3 2) else ftWidth (bits f.b 0 3))
      (if f.b.getLsbD 5 then ftWidth (bits f.b 0 3) else itWidth (bits f.b 3 2))
      (bits f.b 0 3 ≤ 4 && max (itWidth (bits f.b 3 2)) (ftWidth (bits f.b 0 3)) / min (itWidth (bits f.b 3 2)) (ftWidth (bits f.b 0 3)) ≤ 4))
  else none := rfl

theorem Shape.ok_of_fieldsOk {sh : Shape} {f : Fields} (h : sh.fieldsOk f = true) : sh.ok = true := by
  simp only [Shape.fieldsOk, Bool.and_eq_true] at h
  tauto

/-- A CVTI that issues has a latency, and a part that the wider of its widths has. -/
theorem cvti_shape {f : Fields} {s : State} {env : Env} {k : Nat} {sync : Bool} (h : begin 0x4E f s k = .go env sync) :
    env.sh.lat ≠ 0 ∧ f.xf.toNat < max (cvtiWidths f).1 (cvtiWidths f).2 / min (cvtiWidths f).1 (cvtiWidths f).2 := by
  have hok := Shape.ok_of_fieldsOk (begin_fieldsOk h)
  have hsh := (begin_select h).2.1
  generalize env.sh = sh at hok hsh ⊢
  rw [shape_cvti] at hsh
  split at hsh
  · cases hsh
    simp only [shapeConv, Bool.and_eq_true, decide_eq_true_iff, ftWidth_eq] at hok
    obtain ⟨⟨-, hxf⟩, -⟩ := hok
    refine ⟨Nat.succ_ne_zero 3, ?_⟩
    unfold cvtiWidths
    dsimp only
    split <;> simp_all
  · cases hsh

/-- A part that the wider width has lies in the destination of a narrowing conversion. -/
theorem part_fits {ws wd q : Nat} (hws : 0 < ws) (hlt : wd < ws) (hq : q < max ws wd / min ws wd) :
    q * (64 / max ws wd) + 64 / max ws wd ≤ 64 / wd := by
  rw [max_eq_left hlt.le, min_eq_right hlt.le] at *
  calc q * (64 / ws) + 64 / ws = (q + 1) * (64 / ws) := (Nat.succ_mul ..).symm
    _ ≤ ws / wd * (64 / ws) := Nat.mul_le_mul_right _ hq
    _ ≤ ws * 64 / (wd * ws) := Nat.div_mul_div_le ..
    _ = 64 / wd := by rw [Nat.mul_comm wd, Nat.mul_div_mul_left _ _ hws]

/-- Settles O43: `valToInt` is R68 by its cases, and a CVTI applies it, or one rounding, to each element of its part. -/
theorem floatToInteger : Obligations.FloatToInteger := by
  refine ⟨fun rc draw lo hi hlo hhi => ⟨rfl, rfl, rfl, fun _ _ => rfl, fun neg m e hm he => ?_⟩,
    fun f s env hpt i hi hiss => ?_⟩
  · rw [valToInt_fin rc draw lo hi neg hm he]
    dsimp only
    refine ⟨fun h => if_pos h, fun h => ?_, fun h1 h2 => ?_⟩
    · rw [if_neg (by omega), if_pos h]
    · rw [if_neg (by omega), if_neg (by omega)]
      cases (roundGrid rc draw neg m e 0).2 with
      | true => exact ⟨rfl, iff_of_false (by decide : (0 : BitVec 6) ≠ fNX) nofun, fun _ => rfl⟩
      | false => exact ⟨rfl, iff_of_true rfl rfl, nofun⟩
  · obtain ⟨hlat, hxf⟩ := cvti_shape (runs_cvti.go hi hiss)
    obtain ⟨-, rfl⟩ := runs_cvti.env_eq hi hiss
    have hiw := itWidth_cases (bits env.f.b 3 2)
    have hfw := cvtFmt_w (bits env.f.b 0 3)
    dsimp only
    constructor
    · intro h5
      rw [cvtiWidths, if_pos h5] at hxf
      refine runs_cvti.convResult hi hiss hpt hlat (if_pos h5) (by omega) (fun hlt => part_fits (by omega) hlt hxf) fun c dr => ?_
      simp only [reading_eq_ite]
    · intro h5
      rw [cvtiWidths, if_neg (by rw [h5]; decide)] at hxf
      constructor
      · refine runs_cvti.convResult hi hiss hpt hlat (if_neg (by rw [h5]; decide)) (by omega) (fun hlt => part_fits (by omega) hlt hxf)
          fun c dr => ?_
        rw [narrow_wrap]
      · obtain ⟨t, hexec, hflags⟩ := runs_cvti.convFlags hi hiss hpt hlat (if_neg (by rw [h5]; decide))
        refine ⟨t, hexec, fun hclean => ?_⟩
        obtain ⟨p, hp, hbit⟩ := hflags hclean
        refine ⟨p, hp, fun n => ?_⟩
        rw [hbit]
        rfl

end Sys2Proof.Machine
end

section
/-!
PROOF of O47: events of the matrix array (R79, R156, R157, R159, R175, R179, R183, R378 to R380). Reading operands changes neither a core nor a
group, so a k-step is `kApply` on what it read; the other events are read off the core that they leave.
-/

namespace Sys2Proof.Machine

/-! ### Accumulators and queues of a core -/

/-- An accumulator after a change of one. -/
theorem Core.acc_of_accs {x y : Core} {n : Nat} (f : Acc → Acc)
    (h : y.accs = Vector.ofFn fun i => if i.val = n then f x.accs[i] else x.accs[i]) (hn : n < 8) : y.acc n = f (x.acc n) := by
  simp [Core.acc, h, hn]

theorem State.core_modAcc (s : State) (c n : Nat) (f : Acc → Acc) :
    (s.modAcc c n f).core c
      = { s.core c with accs := Vector.ofFn fun i => if i.val = n then f (s.core c).accs[i] else (s.core c).accs[i] } := by
  rw [State.modAcc, State.core_modCore, if_pos rfl]

theorem State.core_modMma (s : State) (c id : Nat) (f : MmaEnt → MmaEnt) :
    (s.modMma c id f).core c = { s.core c with queue := (s.core c).queue.map fun m => if m.id = id then f m else m } := by
  rw [State.modMma, State.core_modCore, if_pos rfl]

/-- A core has no accumulator from 8 on. -/
theorem Core.acc_of_le (x : Core) {n : Nat} (hn : 8 ≤ n) : x.acc n = {} := by
  simp [Core.acc, hn]

/-! ### Reading operands leaves cores and groups (R198) -/

/-- A state with the cores and the groups of another. -/
def SameArray (s t : State) : Prop := t.cores = s.cores ∧ t.groups = s.groups

theorem SameArray.core {s t : State} (h : SameArray s t) (c : Nat) : t.core c = s.core c := by rw [State.core, h.1, State.core]
theorem SameArray.grp {s t : State} (h : SameArray s t) (k : Nat) : t.grp k = s.grp k := by rw [State.grp, h.2, State.grp]

theorem State.ctxCount_sameArray (s : State) (c : Nat) (i : Fin 8) (n : Nat) : SameArray s (s.ctxCount c i n) := by
  unfold State.ctxCount
  split <;> exact ⟨rfl, rfl⟩

theorem State.consume_sameArray (s : State) (k n : Nat) : SameArray s (s.consume k n) := by
  unfold State.consume State.ctxEvent State.ctxCount
  dsimp only
  repeat' split
  all_goals exact ⟨rfl, rfl⟩

theorem SameArray.refl (s : State) : SameArray s s := ⟨rfl, rfl⟩
theorem SameArray.trans {s t u : State} (h : SameArray s t) (h' : SameArray t u) : SameArray s u := ⟨h'.1.trans h.1, h'.2.trans h.2⟩

theorem State.eccMeet_sameArray (s : State) (c : Nat) (x : Store) (w : Nat) : SameArray s (s.eccMeet c x w) := by
  unfold State.eccMeet
  dsimp only
  split
  · exact .refl s
  · exact SameArray.trans (t := { s with ecc := _ }) ⟨rfl, rfl⟩ (State.ctxCount_sameArray ..)
  · refine SameArray.trans (t := _) ?_ (State.ctxCount_sameArray ..)
    cases x <;> exact ⟨rfl, rfl⟩

/-- A fold of steps that keep cores and groups keeps them. -/
theorem foldl_sameArray {σ α : Type} (φ : σ → State) {f : σ → α → σ} (h : ∀ r a, SameArray (φ r) (φ (f r a))) (l : List α) (r : σ) :
    SameArray (φ r) (φ (l.foldl f r)) :=
  ⟨foldl_unchanged (fun r => (φ r).cores) (fun r a => (h r a).1) l r, foldl_unchanged (fun r => (φ r).groups) (fun r a => (h r a).2) l r⟩

theorem State.lineByte_sameArray (s : State) (k : Nat) (pair : Option (Word × Word)) (reg n b : Nat) :
    SameArray s (s.lineByte k pair reg n b).1 := by
  unfold State.lineByte
  split
  · split
    · exact .refl s
    · exact foldl_sameArray id (fun _ _ => State.eccMeet_sameArray ..) _ s
  · exact .refl s

theorem State.lineRead_sameArray (s : State) (k : Nat) (pair : Option (Word × Word)) (reg n off len : Nat) :
    SameArray s (s.lineRead k pair reg n off len).1 :=
  foldl_sameArray (σ := State × List (Byte × Bool)) Prod.fst (fun _ _ => State.lineByte_sameArray ..) _ (s, [])

theorem SameArray.ite {β : Type} {c : Prop} [Decidable c] {s : State} {r q : State × β} (hr : SameArray s r.1) (hq : SameArray s q.1) :
    SameArray s (if c then r else q).1 := by
  split
  · exact hr
  · exact hq

theorem State.operand_sameArray (s : State) (k : Nat) (m : MmaEnt) (opB : Bool) (t : Nat) : SameArray s (s.operand k m opB t).1 := by
  refine foldl_sameArray (σ := State × List (List KElem)) Prod.fst (fun r n => ?_) _ (s, [])
  exact .ite (.refl _) (.ite (State.lineRead_sameArray ..) (State.lineRead_sameArray ..))

theorem Group.ctl_wrS (g : Group) (n : Nat) (r : Reg) : (g.wrS n r).ctl = g.ctl := by
  unfold Group.wrS
  split <;> rfl

theorem Group.ctl_wrV (g : Group) (n : Nat) (m : LaneMask) (r : LaneId → Reg) : (g.wrV n m r).ctl = g.ctl := by simp only [Group.wrV]

theorem Group.ctl_met (g : Group) (rs : List RegId) (m : LaneMask) : (g.met rs m).1.ctl = g.ctl := by
  refine foldl_unchanged (fun r : Group × Nat × Nat => r.1.ctl) (fun r x => ?_) rs (g, 0, 0)
  have hite {p : Prop} [Decidable p] {q : Group × Nat × Nat} (hq : q.1.ctl = r.1.ctl) : (if p then r else q).1.ctl = r.1.ctl := by
    split
    · rfl
    · exact hq
  cases x with
  | v n => exact hite (Group.ctl_wrV ..)
  | s n => exact hite (Group.ctl_wrS ..)
  | p n => exact hite rfl
  | sr n => exact hite rfl

/-- Registers that are read may lose bit errors; their group keeps its control register, and the cores are as they were. -/
theorem State.meetRegs_array (s : State) (k : Nat) (rs : List RegId) (m : LaneMask) :
    (s.meetRegs k rs m).cores = s.cores ∧ ((s.meetRegs k rs m).grp k).pt = (s.grp k).pt := by
  unfold State.meetRegs
  dsimp only
  split
  · exact ⟨rfl, rfl⟩
  · have h (t : State) (c n1 n2 : Nat) : SameArray t (t.eccCount c n1 n2) :=
      (State.ctxCount_sameArray ..).trans (State.ctxCount_sameArray ..)
    refine ⟨(h ..).1, ?_⟩
    rw [(h ..).grp, State.grp_setGrp, if_pos rfl, Group.pt, Group.ctl_met, Group.pt]

/-! ### The k-step of an accumulator (R79, R175) -/

/-- What a k-step makes of element `x`: its code, its poison and its flags. -/
def kCell (a : Acc) (A B : List (List KElem)) (x : Nat) : Nat × Word32 × Bool × BitVec 6 :=
  let ra := A.getD (x / 64) []
  let rb := B.getD (x % 64) []
  if smGet false a.poi x || ra.any (fun e => e.2.1) || rb.any (fun e => e.2.1) then (x, BitVec.ofNat 32 fp32.canon, true, 0)
  else
    let r := kElem (ra.map Prod.fst) (rb.map Prod.fst) (smGet 0 a.c x).toNat
    (x, BitVec.ofNat 32 r.1, false, r.2)

theorem kCell_fst (a : Acc) (A B : List (List KElem)) (x : Nat) : (kCell a A B x).1 = x := by
  unfold kCell
  dsimp only
  split <;> rfl

/-- The map of the entries of a list that do not hold the default. -/
theorem smGet_filter_map {α β : Type} [DecidableEq α] (d : α) (key : β → Nat) (p : β → Bool) (v g : β → α) (hp : ∀ e, p e = true ↔ v e ≠ d)
    (hg : ∀ e, p e = true → g e = v e) (cell : Nat → β) (hk : ∀ x, key (cell x) = x) (l : List Nat) (k : Nat) :
    smGet d (((l.map cell).filter p).map fun e => (key e, g e)) k = if k ∈ l then v (cell k) else d := by
  have h : ((l.map cell).filter p).map (fun e => (key e, g e))
      = l.filterMap fun x => if v (cell x) = d then none else some (x, v (cell x)) := by
    induction l with
    | nil => rfl
    | cons x l ih =>
      by_cases hx : v (cell x) = d
      · have hpx : ¬p (cell x) = true := by simp [hp, hx]
        simp [hx, hpx, ih]
      · have hpx : p (cell x) = true := (hp _).2 hx
        simp [hx, hpx, ih, hk, hg _ hpx]
  rw [h, smGet_filterMap]

section
variable (a : Acc) (A B : List (List KElem)) {x : Nat}

/-- The codes and the poison that a k-step leaves, as lists of the elements that are not 0 and of those that are poisoned. -/
theorem kApply_acc : (kApply a A B).1 = { a with
    c := (((List.range 4096).map (kCell a A B)).filter fun e => e.2.1 != 0).map fun e => (e.1, e.2.1)
    poi := (((List.range 4096).map (kCell a A B)).filter fun e => e.2.2.1).map fun e => (e.1, true) } := by
  unfold kApply
  generalize List.range 4096 = l
  rfl

theorem kApply_c (hx : x < 4096) : smGet 0 (kApply a A B).1.c x = (kCell a A B x).2.1 := by
  rw [kApply_acc]
  dsimp only
  rw [smGet_filter_map (0 : Word32) Prod.fst _ (fun e => e.2.1) (fun e => e.2.1) (fun _ => bne_iff_ne) (fun _ _ => rfl) (kCell a A B)
    (kCell_fst a A B), if_pos (List.mem_range.2 hx)]

theorem kApply_poi (hx : x < 4096) : smGet false (kApply a A B).1.poi x = (kCell a A B x).2.2.1 := by
  rw [kApply_acc]
  dsimp only
  rw [smGet_filter_map false Prod.fst (fun e : Nat × Word32 × Bool × BitVec 6 => e.2.2.1) (fun e => e.2.2.1) (fun _ => true)
    (fun _ => Bool.ne_false_iff.symm) (fun _ h => h.symm) (kCell a A B) (kCell_fst a A B), if_pos (List.mem_range.2 hx)]

end

/-! ### Starting a k-step (R157, R175, R179) -/

/-- Whether a k-step meets poison: in its accumulator or in an element that it reads. -/
def kBad (a : Acc) (A B : List (List KElem)) : Bool := !a.poi.isEmpty || (A ++ B).any fun l => l.any fun e => e.2.1

theorem kBad_iff (a : Acc) (A B : List (List KElem)) : kBad a A B = true ↔ a.poi ≠ [] ∨ ∃ l ∈ A ++ B, ∃ e ∈ l, e.2.1 = true := by
  simp only [kBad, Bool.or_eq_true, Bool.not_eq_true', List.isEmpty_eq_false_iff, List.any_eq_true]

section
variable {s : State} {c p : Nat} {m : MmaEnt}

/-- The state and the elements that the k-step of `m` reads: operand A, then operand B (R171). -/
def State.kReads (s : State) (c : Nat) (m : MmaEnt) : State × List (List KElem) × List (List KElem) :=
  let k := ((s.core c).acc m.acc).owner
  let ra := (s.meetRegs k m.frag allLanes).operand k m false m.prog
  let rb := ra.1.operand k m true m.prog
  (rb.1, ra.2, rb.2)

theorem State.kReads_core (s : State) (c : Nat) (m : MmaEnt) (j : Nat) : (s.kReads c m).1.core j = s.core j := by
  unfold State.kReads
  dsimp only
  rw [(State.operand_sameArray ..).core, (State.operand_sameArray ..).core, State.core, (State.meetRegs_array ..).1, State.core]

theorem State.kReads_pt (s : State) (c : Nat) (m : MmaEnt) :
    ((s.kReads c m).1.grp ((s.core c).acc m.acc).owner).pt = (s.grp ((s.core c).acc m.acc).owner).pt := by
  unfold State.kReads
  dsimp only
  rw [(State.operand_sameArray ..).grp, (State.operand_sameArray ..).grp, (State.meetRegs_array ..).2]

/-- A k-step that nothing holds back stalls its accumulator, or updates it and takes the array. -/
theorem State.kStep_eq (hrun : (s.core c).run = none) (hat : (s.core c).edgeAt = s.time) (he : (s.core c).edges ≠ 0)
    (hnext : (s.core c).nextStep = some (m, p)) (hgrant : m.readsAt m.prog ≤ (s.core c).kgrant) (hready : m.ready.toNat ≤ s.time.toNat) :
    s.kStep c =
      let a := (s.core c).acc m.acc
      let r := s.kReads c m
      let bad := kBad a r.2.1 r.2.2
      let s := r.1.modCore c fun x => { x with kgrant := 0 }
      if bad && (s.grp a.owner).pt then
        ((s.modAcc c m.acc fun a => { a with st := .stalled, fault := true }).modMma c m.id fun m => { m with inArray := false }).modCore
          c fun x => { x with queue := x.queue.map fun y => if y.acc = m.acc then { y with stop := none } else y }
      else
        let q := kApply a r.2.1 r.2.2
        let s := if bad && !m.counted then s.consume a.owner 1 else s
        ((s.modAcc c m.acc fun _ => q.1).modCore c fun x => { x with run := some (m.id, m.lclks) }).modMma c m.id fun m =>
          { m with flags := m.flags ||| q.2, counted := m.counted || bad } := by
  unfold State.kStep
  dsimp only
  rw [if_neg (by simp [hrun, hat, he]), hnext]
  dsimp only
  rw [if_neg (by simp; omega)]
  rfl

end

end Sys2Proof.Machine
end

section
/-!
PROOF of O47, continued: the events of the matrix array, from its k-step to a follow-on MMA, and the obligation.
-/

namespace Sys2Proof.Machine

/-! ### What a k-step leaves (R79, R175, R179) -/

section
variable {s : State} {c p : Nat} {m : MmaEnt}

/-- The k-step of `m` can start at this edge. -/
structure KReady (s : State) (c : Nat) (m : MmaEnt) (p : Nat) : Prop where
  run : (s.core c).run = none
  edge : (s.core c).edgeAt = s.time
  edges : (s.core c).edges ≠ 0
  next : (s.core c).nextStep = some (m, p)
  acc : m.acc < 8
  grant : m.readsAt m.prog ≤ (s.core c).kgrant
  ready : m.ready.toNat ≤ s.time.toNat

/-- The number and the progress of every entry of a queue stay where an entry changes in neither. -/
theorem map_id_prog {l : List MmaEnt} (f : MmaEnt → MmaEnt) (h : ∀ y, (f y).id = y.id ∧ (f y).prog = y.prog) :
    (l.map f).map (fun y => (y.id, y.prog)) = l.map fun y => (y.id, y.prog) := by
  simp [h]

theorem State.kStep_taken (h : KReady s c m p)
    (hb : (kBad ((s.core c).acc m.acc) (s.kReads c m).2.1 (s.kReads c m).2.2 && (s.grp ((s.core c).acc m.acc).owner).pt) = false) :
    let r := s.kReads c m
    let t := s.kStep c
    (t.core c).acc m.acc = (kApply ((s.core c).acc m.acc) r.2.1 r.2.2).1 ∧ (t.core c).kgrant = 0 ∧ (t.core c).run = some (m.id, m.lclks)
      ∧ (t.core c).queue.map (fun y => (y.id, y.prog)) = (s.core c).queue.map fun y => (y.id, y.prog) := by
  have hcore : ∀ {b : Prop} [Decidable b] (t : State) (k : Nat), (if b then t.consume k 1 else t).core c = t.core c := by
    intro b _ t k
    split
    · exact (State.consume_sameArray ..).core c
    · rfl
  rw [State.kStep_eq h.run h.edge h.edges h.next h.grant h.ready]
  dsimp only
  have hpt : (State.grp (State.modCore (s.kReads c m).1 c fun x => { x with kgrant := 0 }) ((s.core c).acc m.acc).owner).pt
      = (s.grp ((s.core c).acc m.acc).owner).pt := s.kReads_pt c m
  rw [hpt, if_neg (by rw [hb]; decide), State.core_modMma, State.core_modCore, if_pos rfl, State.core_modAcc, hcore, State.core_modCore,
    if_pos rfl, State.kReads_core]
  generalize kApply _ _ _ = q
  refine ⟨?_, rfl, rfl, map_id_prog _ fun y => ?_⟩
  · exact Core.acc_of_accs (x := s.core c) (fun _ => q.1) rfl h.acc
  · split <;> exact ⟨rfl, rfl⟩

theorem State.kStep_stalled (h : KReady s c m p)
    (hb : (kBad ((s.core c).acc m.acc) (s.kReads c m).2.1 (s.kReads c m).2.2 && (s.grp ((s.core c).acc m.acc).owner).pt) = true) :
    ((s.kStep c).core c).acc m.acc = { (s.core c).acc m.acc with st := .stalled, fault := true } ∧ ((s.kStep c).core c).run = none := by
  rw [State.kStep_eq h.run h.edge h.edges h.next h.grant h.ready]
  dsimp only
  have hpt : (State.grp (State.modCore (s.kReads c m).1 c fun x => { x with kgrant := 0 }) ((s.core c).acc m.acc).owner).pt
      = (s.grp ((s.core c).acc m.acc).owner).pt := s.kReads_pt c m
  rw [hpt, if_pos hb, State.core_modCore, if_pos rfl, State.core_modMma, State.core_modAcc, State.core_modCore, if_pos rfl,
    State.kReads_core]
  exact ⟨Core.acc_of_accs (x := s.core c) (fun a => { a with st := .stalled, fault := true }) rfl h.acc, h.run⟩

end

/-- The poison and the code of an element after a k-step, by what its row and column hold. -/
theorem kCell_snd (a : Acc) (A B : List (List KElem)) (x : Nat) :
    let row := A.getD (x / 64) []
    let col := B.getD (x % 64) []
    let bad := smGet false a.poi x || row.any (fun e => e.2.1) || col.any (fun e => e.2.1)
    (kCell a A B x).2.2.1 = bad ∧ (kCell a A B x).2.1
      = BitVec.ofNat 32 (if bad then fp32.canon else (kElem (row.map Prod.fst) (col.map Prod.fst) (smGet 0 a.c x).toNat).1) := by
  unfold kCell
  dsimp only
  split
  next h => exact ⟨h.symm, rfl⟩
  next h => exact ⟨(Bool.eq_false_iff.2 h).symm, rfl⟩

/-! ### The completion of an MMA (R159, R175) -/

theorem State.core_endMma (s : State) (c k : Nat) (m : MmaEnt) :
    (s.endMma c k m).core c = { s.core c with queue := (s.core c).queue.filter fun y => y.id != m.id }.regrant (s.core c) := by
  rw [State.core, State.cores_endMma, ← State.core, State.core_modCore, if_pos rfl]

theorem State.grp_endMma (s : State) (c k : Nat) (m : MmaEnt) : (s.endMma c k m).grp k = (s.grp k).lowerSb m.sbs := by
  have h : (s.endMma c k m).grp k = ((s.modTile (c / 4) id).modGrp k fun g => g.lowerSb m.sbs).grp k := by
    unfold State.endMma
    dsimp only
    split <;> rfl
  rw [h, State.grp_modGrp, if_pos rfl, State.grp_of_modTile]

theorem State.tile_endMma (s : State) (c k : Nat) (m : MmaEnt) :
    ((s.endMma c k m).tile (c / 4)).range = (s.tile (c / 4)).range.filter fun e => e.mma != some m.id := by
  have h : (s.endMma c k m).tile (c / 4) = (s.modTile (c / 4) fun t => { t with range := t.range.filter fun e => e.mma != some m.id }).tile (c / 4) := by
    unfold State.endMma
    dsimp only
    split <;> rfl
  rw [h, State.tile_modTile, if_pos rfl]

theorem Group.lowerSb_flags (g : Group) (x : Option Nat) : (g.lowerSb x).fflags = g.fflags ∧ (g.lowerSb x).fnew = g.fnew := by
  cases x <;> exact ⟨rfl, rfl⟩

theorem completes_mmaComplete {s : State} {c : Nat} {m : MmaEnt}
    (h : (s.core c).queue.find? (fun m => m.steps ≤ m.prog && m.endAt.toNat + 12 ≤ s.time.toNat) = some m) :
    let k := ((s.core c).acc m.acc).owner
    Completes (.mmaComplete c) s fun t => (t.core c).queue = (s.core c).queue.filter (fun y => y.id != m.id)
      ∧ (t.grp k).fflags = (s.grp k).fflags ∧ (t.grp k).flags = (s.grp k).flags ||| m.flags ∧ (t.core c).accs = (s.core c).accs
      ∧ ∀ e ∈ (t.tile (c / 4)).range, e.mma ≠ some m.id := by
  intro k
  refine ⟨(s.endMma c k m).modGrp k fun g => g.flag m.flags, ?_, ?_⟩
  · change execMmaComplete c s = _
    unfold execMmaComplete
    rw [h]
  · obtain ⟨hff, hfn⟩ := (s.grp k).lowerSb_flags m.sbs
    rw [State.core_of_modGrp, State.tile_of_modGrp, State.grp_modGrp, if_pos rfl, State.core_endMma, State.grp_endMma, State.tile_endMma]
    refine ⟨rfl, hff, ?_, rfl, fun e he => ?_⟩
    · simp only [Group.flags, Group.flag, hff, hfn, BitVec.or_assoc]
    · simpa using (List.mem_filter.1 he).2

/-! ### The trap of a poison fault and the end of a drain (R98, R159, R179) -/

/-- A group that is ready or held and has no trap pending takes one. -/
theorem State.trap_taken (s : State) (k cause : Nat) (addr : Word) (done : LaneMask) (hst : (s.grp k).st = .ready ∨ (s.grp k).st = .held)
    (hreq : (s.grp k).trapReq = none) :
    let g := (s.trap k cause addr done).grp k
    (g.st = .trapped ∧ g.trapcause = BitVec.ofNat 6 cause ∧ g.trapaddr = addr)
      ∨ (g.st = .held ∧ g.hold = .trapping ∧ ∃ d, g.trapReq = some (BitVec.ofNat 6 cause, addr, d)) := by
  unfold State.trap
  dsimp only
  rw [if_pos (by simp [hst, hreq])]
  split
  · refine .inl ?_
    rw [State.enterTrap, State.grp_of_emit, State.grp_modGrp, if_pos rfl]
    exact ⟨rfl, rfl, rfl⟩
  · refine .inr ?_
    rw [State.grp_modGrp, if_pos rfl]
    exact ⟨rfl, rfl, done, rfl⟩

theorem traps_accPoisonTrap {s : State} {k : Nat} {m : MmaEnt}
    (h : (s.core (coreOf k)).queue.find? (fun m => !m.inArray && ((s.core (coreOf k)).acc m.acc).fault
      && ((s.core (coreOf k)).acc m.acc).owner = k) = some m)
    (hst : (s.grp k).st = .ready ∨ (s.grp k).st = .held) (hreq : (s.grp k).trapReq = none) : Traps (.accPoisonTrap k) s k 0x20 m.addr := by
  refine ⟨s.trap k causePoison m.addr 0, ?_, s.trap_taken k causePoison m.addr 0 hst hreq⟩
  change execAccPoisonTrap k s = _
  unfold execAccPoisonTrap State.accTrap
  dsimp only
  rw [h]

theorem completes_accDrainComplete {s : State} {c n : Nat} (h : ((s.core c).acc n).st = .draining) :
    Completes (.accDrainComplete c n) s fun t => (t.core c).acc n = {} := by
  have hn : n < 8 := by
    by_contra hn
    rw [Core.acc_of_le _ (by omega)] at h
    exact absurd h (by decide)
  refine ⟨s.modAcc c n fun _ => {}, ?_, s.acc_modAcc c _ hn⟩
  change execAccDrainComplete c n s = _
  rw [execAccDrainComplete, if_pos h]

/-! ### LCLK edges and read grants (R378 to R380) -/

theorem Core.runOn_of_lt {x : Core} (now : Word) {id n : Nat} (h : x.run = some (id, n)) (hn : 1 < n) :
    x.runOn now = { x with run := some (id, n - 1) } := by
  unfold Core.runOn
  rw [h]
  exact if_pos hn

theorem Core.runOn_of_le {x : Core} (now : Word) {id n : Nat} (h : x.run = some (id, n)) (hn : n ≤ 1) :
    x.runOn now = { x with run := none, queue := x.queue.map fun m => if m.id = id then { m with prog := m.prog + 1, endAt := now } else m } := by
  unfold Core.runOn
  rw [h]
  exact if_neg (by omega)

/-- An edge takes the k-step under way further and leaves the grants, the backlog and the operations of a core. -/
theorem Core.runOn_grants (x : Core) (now : Word) :
    (x.runOn now).kgrant = x.kgrant ∧ (x.runOn now).backlog = x.backlog ∧ (x.runOn now).pipe = x.pipe := by
  unfold Core.runOn
  split
  · exact ⟨rfl, rfl, rfl⟩
  · split <;> exact ⟨rfl, rfl, rfl⟩

/-- The k-step under way at an edge: one LCLK further, or ended with its progress counted. -/
theorem Core.runOn_run {x : Core} (now : Word) {id n : Nat} (h : x.run = some (id, n)) :
    (1 < n → (x.runOn now).run = some (id, n - 1))
    ∧ (n ≤ 1 → (x.runOn now).run = none ∧ ∀ m ∈ (x.runOn now).queue, m.id = id → m.endAt = now)
    ∧ (x.runOn now).queue.map (fun m => (m.id, m.prog)) = x.queue.map fun m => (m.id, if m.id = id ∧ n ≤ 1 then m.prog + 1 else m.prog) := by
  obtain hn | hn := Nat.lt_or_ge 1 n
  · rw [Core.runOn_of_lt now h hn]
    refine ⟨fun _ => rfl, fun hle => absurd hle (by omega), List.map_congr_left fun m _ => ?_⟩
    rw [if_neg (by omega)]
  · rw [Core.runOn_of_le now h hn]
    refine ⟨fun hlt => absurd hlt (by omega), fun _ => ⟨rfl, fun m hm hid => ?_⟩, ?_⟩
    · obtain ⟨y, -, rfl⟩ := List.mem_map.1 hm
      by_cases hy : y.id = id
      · rw [if_pos hy]
      · exact absurd hid (by rwa [if_neg hy])
    · rw [List.map_map]
      refine List.map_congr_left fun m _ => ?_
      by_cases hid : m.id = id <;> simp [hid, hn]

/-- The reads that an edge grants: the k-step's first, then the backlog's. -/
theorem Core.grant_eq (y : Core) (G : Nat) :
    let need := match y.nextStep with | some (m, p) => m.readsAt p - y.kgrant | none => 0
    let first := min G need
    (y.grant G).run = y.run ∧ (y.grant G).queue = y.queue ∧ (y.grant G).kgrant = y.kgrant + first
      ∧ (y.grant G).backlog = y.backlog - (G - first) ∧ (G ≠ 0 → (y.grant G).pipe = if (y.grant G).backlog = 0 then 0 else y.pipe - 1) := by
  intro need first
  unfold Core.grant
  split
  next h =>
    subst h
    refine ⟨rfl, rfl, ?_, ?_, fun h => absurd rfl h⟩ <;> simp [first]
  next => exact ⟨rfl, rfl, rfl, rfl, fun _ => rfl⟩

theorem execReadGrant_of_edge {s : State} {c : Nat} (hc : (s.core c).clocked = true)
    (he : (s.core c).passedEdges s.time < s.lclkEdges (c / 4)) :
    execReadGrant c s = .next (s.modCore c fun x => { (x.runOn s.time).grant (s.tile (c / 4)).ration with
      edgeAt := s.time, edges := (s.core c).passedEdges s.time + 1 }) := by
  unfold execReadGrant
  dsimp only
  rw [if_neg (by simp [hc, he])]
  rfl

theorem completes_readGrant_idle {s : State} {c : Nat} (h : (s.core c).clocked = false ∨ s.lclkEdges (c / 4) ≤ (s.core c).passedEdges s.time) :
    Completes (.readGrant c) s fun t => t = s := by
  refine ⟨s, ?_, rfl⟩
  change execReadGrant c s = _
  unfold execReadGrant
  dsimp only
  rw [if_pos (by simpa using h)]

/-! ### A follow-on MMA (R156, R183) -/

/-- A copy after a change of it that keeps its number. -/
theorem State.copy?_modCopy (s : State) (id : Nat) (f : Copy → Copy) (hf : ∀ x, (f x).id = x.id) :
    (s.modCopy id f).copy? id = (s.copy? id).map f := by
  unfold State.modCopy State.copy?
  dsimp only
  induction s.copies with
  | nil => rfl
  | cons x l ih =>
    by_cases hx : x.id = id
    · simp [hx, hf]
    · simp [hx, ih]

theorem State.core_of_nextId (s : State) (n c : Nat) : State.core { s with nextId := n } c = s.core c := rfl

/-- An MMA that enters is the last of the queue of its core. -/
theorem State.queue_mmaEnter (s : State) (k : Nat) (m : MmaEnt) :
    ((s.mmaEnter k m).core (coreOf k)).queue = (s.core (coreOf k)).queue ++
      [{ m with id := s.nextId, ready := s.time + 8, stop := if (s.modTile (siteOf k) fun t =>
        { t with range := t.range ++ m.ranges (s.grp k).team s.nextId }).mmaStop k then some m.prog else none }] := by
  unfold State.mmaEnter
  dsimp only
  rw [State.core_of_nextId, State.core_modAcc, State.core_modCore, if_pos rfl]
  rfl

theorem filterMap_pair {α : Type} (a b : Option α) : [a, b].filterMap id = a.toList ++ b.toList := by
  cases a <;> cases b <;> rfl

/-- The MMA of a copy whose last byte has landed enters the array when its group is there and it has room. -/
theorem State.followOn_enters {s : State} {x : Copy} {d : Word} {k n : Nat} (hkind : x.kind = .follow) (hin : x.followIn = false)
    (hland : x.landAt = some d) (hd : d.toNat < s.time.toNat) (himg : (s.team x.team).image = none)
    (hk : s.memberKey x.team (followGroup x.desc) = some k) (hn : (s.grp k).accOf (followAcc x.desc) = some n)
    (hun : (s.grp k).unexited ≠ 0)
    (hps : pairFault 0 (s.team x.team).wsize ((followMma x.desc x.id).apair.toList ++ (followMma x.desc x.id).bpair.toList) = none)
    (hroom : s.mmaRoom k (followMma x.desc x.id) = true) :
    s.followOn x = (s.mmaEnter k { followMma x.desc x.id with acc := n }).modCopy x.id fun c => { c with followIn := true } := by
  unfold State.followOn
  dsimp only
  rw [if_neg (by simp [hkind, hin, hland, hd, himg]), hk]
  dsimp only
  rw [hn]
  dsimp only
  rw [filterMap_pair, if_neg (by rw [hps]; simpa using hun), if_neg (by simp [hroom])]

theorem completes_followOnMma {s : State} {c id k n : Nat} {x : Copy} (hx : s.copy? id = some x) (hkind : x.kind = .follow)
    (hin : x.followIn = false) (hland : ∃ d : Word, x.landAt = some d ∧ d.toNat < s.time.toNat) (himg : (s.team x.team).image = none)
    (hk : s.memberKey x.team (followGroup x.desc) = some k) (hc : coreOf k = c) (hn : (s.grp k).accOf (followAcc x.desc) = some n)
    (hun : (s.grp k).unexited ≠ 0) :
    let m := followMma x.desc id
    let ps := m.apair.toList ++ m.bpair.toList
    pairFault 0 (s.team x.team).wsize ps = none → ((s.core c).queue.countP fun m => m.inArray) < 4 →
    (s.tile (siteOf k)).range.length + ps.length ≤ 64 → Completes (.followOnMma id) s fun t =>
      ∃ e, (t.core c).queue = (s.core c).queue ++ [e] ∧ e.acc = n ∧ e.x = m.x ∧ e.ty = m.ty ∧ e.areg = m.areg ∧ e.breg = m.breg
        ∧ e.apair = m.apair ∧ e.bpair = m.bpair ∧ e.ctrl = m.ctrl ∧ e.copy = some id ∧ (t.copy? id).map (fun y => y.followIn) = some true := by
  intro m ps hps hqueue hrange
  obtain ⟨d, hland, hd⟩ := hland
  have hid : x.id = id := by simpa using List.find?_some hx
  subst hid hc
  have hroom : s.mmaRoom k m = true := by
    simp only [State.mmaRoom, Bool.and_eq_true, decide_eq_true_eq]
    exact ⟨hqueue, hrange⟩
  refine ⟨(s.mmaEnter k { m with acc := n }).modCopy x.id fun c => { c with followIn := true }, ?_, ?_⟩
  · change execFollowOnMma x.id s = _
    unfold execFollowOnMma
    rw [hx]
    exact congrArg _ (State.followOn_enters hkind hin hland hd himg hk hn hun hps hroom)
  · refine ⟨_, s.queue_mmaEnter k { m with acc := n }, rfl, rfl, rfl, rfl, rfl, rfl, rfl, rfl, rfl, ?_⟩
    have hcopy : (s.mmaEnter k { m with acc := n }).copy? x.id = some x := hx
    rw [State.copy?_modCopy, hcopy]
    · rfl
    · exact fun _ => rfl

/-! ### The obligation -/

/-- An LCLK edge: one edge is passed, the k-step under way goes on, and reads are granted up to the ration. -/
theorem completes_readGrant {s : State} {c : Nat} (hc : (s.core c).clocked = true)
    (he : (s.core c).passedEdges s.time < s.lclkEdges (c / 4)) :
    Completes (.readGrant c) s fun t =>
      let x := s.core c
      let y := x.runOn s.time
      let need := match y.nextStep with | some (m, p) => m.readsAt p - x.kgrant | none => 0
      let first := min (s.tile (c / 4)).ration need
      (t.core c).passedEdges s.time = x.passedEdges s.time + 1
        ∧ (∀ id n, x.run = some (id, n) → (1 < n → (t.core c).run = some (id, n - 1))
            ∧ (n ≤ 1 → (t.core c).run = none ∧ ∀ m ∈ (t.core c).queue, m.id = id → m.endAt = s.time)
            ∧ (t.core c).queue.map (fun m => (m.id, m.prog))
              = x.queue.map fun m => (m.id, if m.id = id ∧ n ≤ 1 then m.prog + 1 else m.prog))
        ∧ (t.core c).kgrant = x.kgrant + first ∧ (t.core c).backlog = x.backlog - ((s.tile (c / 4)).ration - first)
        ∧ ((s.tile (c / 4)).ration ≠ 0 → (t.core c).pipe = if (t.core c).backlog = 0 then 0 else x.pipe - 1) := by
  refine ⟨_, execReadGrant_of_edge hc he, ?_⟩
  obtain ⟨hkg, hbl, hpi⟩ := (s.core c).runOn_grants s.time
  obtain ⟨hrun, hqueue, hk, hb, hp⟩ := ((s.core c).runOn s.time).grant_eq (s.tile (c / 4)).ration
  rw [hkg] at hk hb
  rw [hbl] at hb
  rw [hpi] at hp
  intro x y need first
  rw [State.core_modCore, if_pos rfl]
  refine ⟨if_pos rfl, fun id n hxn => ?_, hk, hb, hp⟩
  dsimp only
  rw [hrun, hqueue]
  exact Core.runOn_run s.time hxn

/-- Settles O47: each clause is what its event leaves of the core, the group, the tile or the copy that it names. -/
theorem matrixEvents : Obligations.MatrixEvents := by
  intro c s
  refine ⟨fun m p hrun hat hed hnext hacc hgrant hready => ?_, fun _ => rfl, fun _ => completes_mmaComplete, ?_,
    fun _ => completes_accDrainComplete, completes_readGrant, completes_readGrant_idle, rfl, ?_⟩
  · have h : KReady s c m p := ⟨hrun, hat, hed, hnext, hacc, hgrant, hready⟩
    intro a met ra rb row col bad poisoned
    have hbad : kBad a ra.2 rb.2 = true ↔ poisoned := kBad_iff a ra.2 rb.2
    refine ⟨fun hfree => ?_, fun hpt hpoi => ?_⟩
    · obtain ⟨hcell, hkg, hr, hq⟩ := State.kStep_taken h (by
        rcases hfree with hpt | hno
        · exact Bool.and_eq_false_iff.2 (.inr hpt)
        · exact Bool.and_eq_false_iff.2 (.inl (Bool.eq_false_iff.2 fun hb => hno (hbad.1 hb))))
      refine ⟨s.kStep c, rfl, fun x hx => ?_, hkg, hr, hq⟩
      obtain ⟨hpoi, hcode⟩ := kCell_snd a ra.2 rb.2 x
      rw [hcell]
      exact ⟨(kApply_poi a ra.2 rb.2 hx).trans hpoi, (kApply_c a ra.2 rb.2 hx).trans hcode⟩
    · obtain ⟨hst, hr⟩ := State.kStep_stalled h (Bool.and_eq_true_iff.2 ⟨hbad.2 hpoi, hpt⟩)
      refine ⟨s.kStep c, rfl, ?_⟩
      beta_reduce
      rw [hst]
      exact ⟨rfl, rfl, rfl, hr⟩
  · rintro k m rfl h hst hreq
    exact traps_accPoisonTrap h hst hreq
  · intro id k n x hx hkind hin hland himg hk hc hn hun
    exact completes_followOnMma hx hkind hin hland himg hk hc hn hun

end Sys2Proof.Machine
end

section
/-!
PROOF of O35: the issue address and the path (R89).
-/

namespace Sys2Proof.Machine

/-- The least of the addresses of a list, after what was found before. -/
theorem foldl_min_pcv (g : Group) (ls : List LaneId) (r : Option Nat) {a : Nat}
    (h : ls.foldl (fun r i => let x := g.lane[i].pcv.toNat
                              some (match r with | none => x | some y => min x y)) r = some a) :
    (∀ y, r = some y → a ≤ y) ∧ (∀ l ∈ ls, a ≤ g.lane[l].pcv.toNat) ∧ (r = some a ∨ ∃ l ∈ ls, g.lane[l].pcv.toNat = a) := by
  induction ls generalizing r with
  | nil =>
    subst h
    simp
  | cons l ls ih =>
    obtain ⟨hlow, hall, hat⟩ := ih _ h
    cases r with
    | none =>
      have hl := hlow _ rfl
      refine ⟨by simp, List.forall_mem_cons.2 ⟨hl, hall⟩, .inr ?_⟩
      rcases hat with hat | ⟨m, hm, hat⟩
      · exact ⟨l, List.mem_cons_self, by simpa using hat⟩
      · exact ⟨m, List.mem_cons_of_mem _ hm, hat⟩
    | some y =>
      have hl := hlow _ rfl
      obtain ⟨hx, hy⟩ := le_min_iff.1 hl
      refine ⟨fun z hz => ?_, List.forall_mem_cons.2 ⟨hx, hall⟩, ?_⟩
      · cases hz; exact hy
      · rcases hat with hat | ⟨m, hm, hat⟩
        · have hat : min g.lane[l].pcv.toNat y = a := Option.some.inj hat
          rcases min_choice g.lane[l].pcv.toNat y with hc | hc
          · exact .inr ⟨l, List.mem_cons_self, hc ▸ hat⟩
          · exact .inl (hc ▸ congrArg some hat)
        · exact .inr ⟨m, List.mem_cons_of_mem _ hm, hat⟩

@[simp] theorem mem_laneList (m : LaneMask) (l : LaneId) : l ∈ laneList m ↔ m.getLsbD l = true := by simp [laneList]

theorem Group.getLsbD_lanesWhere (g : Group) (p : Lane → Bool) (l : LaneId) : (g.lanesWhere p).getLsbD l = p g.lane[l] := by
  simp [Group.lanesWhere]

/-- A lane can run when it is live and has not yielded. -/
theorem Group.getLsbD_runnable (g : Group) (l : LaneId) : g.runnable.getLsbD l = true ↔ g.lane[l].st = .live ∧ g.lane[l].yld = false := by
  rw [Group.runnable, Group.getLsbD_lanesWhere]
  simp

/-- The lowest address of the lanes of a mask is that of one of them. -/
theorem Group.lowPc_eq_some {g : Group} {m : LaneMask} {a : Nat} (h : g.lowPc m = some a) :
    (∀ l : LaneId, m.getLsbD l = true → a ≤ g.lane[l].pcv.toNat) ∧ ∃ l : LaneId, m.getLsbD l = true ∧ g.lane[l].pcv.toNat = a := by
  obtain ⟨-, hall, hat⟩ := foldl_min_pcv g _ none h
  simpa using And.intro hall hat

/-- What a group selects to issue for lanes that are not parked. -/
theorem Group.select_of_not_sync {g : Group} {sel : Sel} (h : g.select = some sel) (hs : sel.sync = false) :
    ∃ a, g.lowPc g.runnable = some a ∧ sel.pc = BitVec.ofNat 64 a ∧ ∀ l : LaneId, sel.path.getLsbD l = true ↔
      g.lane[l].st = .live ∧ g.lane[l].pcv = sel.pc ∧ (g.lane[l].yld = false ∨ g.donemask.getLsbD l = true) := by
  unfold Group.select at h
  split at h
  next a ha =>
    cases h
    exact ⟨a, ha, rfl, fun l => by simp [and_assoc]⟩
  next =>
    dsimp only at h
    split_ifs at h
    cases h
    cases hs

/-- Settles O35: the issue address is the least one of the lanes that can run, and a lane has it. -/
theorem pathSelection : Obligations.PathSelection := by
  intro g sel h hs hdone
  obtain ⟨a, ha, hpc, hpath⟩ := Group.select_of_not_sync h hs
  obtain ⟨hlow, l, hl, hat⟩ := Group.lowPc_eq_some ha
  have hpcv : g.lane[l].pcv = sel.pc := by rw [hpc, ← hat, BitVec.ofNat_toNat, BitVec.setWidth_eq]
  have hmem (m : LaneId) : sel.path.getLsbD m = true ↔ g.lane[m].st = .live ∧ g.lane[m].yld = false ∧ g.lane[m].pcv = sel.pc := by
    rw [hpath, hdone]
    simp [and_comm]
  obtain ⟨hlive, hyld⟩ := (Group.getLsbD_runnable g l).1 hl
  refine ⟨fun m hm hy => ?_, ⟨l, (hmem l).2 ⟨hlive, hyld, hpcv⟩⟩, hmem⟩
  rw [← hpcv, hat]
  exact hlow m ((Group.getLsbD_runnable g m).2 ⟨hm, hy⟩)

end Sys2Proof.Machine
end

section
/-!
SUPPORT. The rows of R41 and R42: an instruction form has the major opcode and the fields that it is made of.
-/

namespace Sys2Proof.Machine

/-- What `mkInstr` answers for a major opcode and fields has them as its own. -/
def OpIs (maj : BitVec 7) (f : Fields) (o : Option Instr) : Prop := ∀ i, o = some i → opOf i = some (maj, f)

section
variable {maj : BitVec 7} {f : Fields}

theorem OpIs.form {a b : Fields → Instr} (ha : opOf (a f) = some (maj, f)) (hb : opOf (b f) = some (maj, f)) :
    OpIs maj f (form f a b) := by
  intro i h
  rcases eq_of_form h with rfl | rfl
  · exact ha
  · exact hb

theorem OpIs.some {i : Instr} (h : opOf i = some (maj, f)) : OpIs maj f (some i) := by
  rintro _ ⟨⟩
  exact h

theorem OpIs.none : OpIs maj f none := by
  rintro _ ⟨⟩

theorem OpIs.ite {c : Prop} [Decidable c] {a b : Option Instr} (ha : OpIs maj f a) (hb : OpIs maj f b) :
    OpIs maj f (if c then a else b) := by
  split
  · exact ha
  · exact hb

end

/-- By the numbers of MAJ and FN: an unused row, one form, a short and a long form, or a choice by MOD. -/
theorem opIs_mkInstr_ofNat (f : Fields) {m n : Nat} (hm : m < 128) (hn : n < 4) :
    OpIs (BitVec.ofNat 7 m) { f with fn := BitVec.ofNat 2 n } (mkInstr (BitVec.ofNat 7 m) { f with fn := BitVec.ofNat 2 n }) := by
  interval_cases m <;> interval_cases n
  all_goals first
    | exact .none
    | exact .some rfl
    | exact .form rfl rfl
    | exact .ite (.some rfl) (.some rfl)

theorem opOf_of_mkInstr {maj : BitVec 7} {f : Fields} {i : Instr} (h : mkInstr maj f = some i) : opOf i = some (maj, f) := by
  have hm : BitVec.ofNat 7 maj.toNat = maj := by simp
  have hf : { f with fn := BitVec.ofNat 2 f.fn.toNat } = f := by simp
  have hop := opIs_mkInstr_ofNat f maj.isLt f.fn.isLt
  rw [hm, hf] at hop
  exact hop i h

theorem forall_fn {P : BitVec 2 → Prop} (h0 : P 0) (h1 : P 1) (h2 : P 2) (h3 : P 3) (n : BitVec 2) : P n := by
  have hn : ∀ n : BitVec 2, n = 0 ∨ n = 1 ∨ n = 2 ∨ n = 3 := by decide
  rcases hn n with rfl | rfl | rfl | rfl
  · exact h0
  · exact h1
  · exact h2
  · exact h3

end Sys2Proof.Machine
end

section
/-!
PROOF of O45: held groups take up their instruction (R94, R161 to R163, R167, R227, R241, R244, R247, R255, R259, R283, R380). What goes on
with an instruction is a function of its opcode and fields; it agrees with `exec` for each form that can be held.
-/

namespace Sys2Proof.Machine

/-! ### Instructions that go on -/

/-- `go` takes the instruction `i` on as `exec` does after `φ`. -/
def GoesOnAs (go : BitVec 7 → Fields → Option (State → State)) (φ : State → State) (i : Instr) : Prop :=
  ∀ maj f, mkInstr maj f = some i → ∃ h, go maj f = some h ∧ ∀ x, exec i (φ x) = .next (h x)

/-- A form of a major opcode that `go` takes on, under each FN that it has. -/
structure TakenOn (go : BitVec 7 → Fields → Option (State → State)) (φ : State → State) (i : Fields → Instr) (maj : BitVec 7) : Prop where
  op : ∀ f, opOf (i f) = some (maj, f) := by intros; rfl
  run : ∀ (f : Fields) (n : BitVec 2), mkInstr maj { f with fn := n } = some (i { f with fn := n }) →
    ∃ h, go maj { f with fn := n } = some h ∧ ∀ x, exec (i { f with fn := n }) (φ x) = .next (h x) := by
      intro f
      refine forall_fn ?_ ?_ ?_ ?_ <;> intro h <;> cases h <;> exact ⟨_, rfl, fun _ => rfl⟩

theorem TakenOn.goesOnAs {go : BitVec 7 → Fields → Option (State → State)} {φ : State → State} {i : Fields → Instr} {maj : BitVec 7}
    (h : TakenOn go φ i maj) (f : Fields) : GoesOnAs go φ (i f) := by
  intro maj' f' hm
  have hop := (h.op f).symm.trans (opOf_of_mkInstr hm)
  obtain ⟨rfl, rfl⟩ : maj = maj' ∧ f = f' := by simpa using hop
  exact h.run f f.fn hm

section
variable {go : BitVec 7 → Fields → Option (State → State)} {φ : State → State} {i : Instr} {k : Nat} {s s2 : State}

/-- A group that takes its instruction up goes on as `exec` says, or still waits for the same (R86, R87). -/
theorem State.resume_of_takesUp {hs : List Hold} (ht : TakesUp i k hs s s2) (hgo : GoesOnAs go φ i) :
    ∃ u, exec i (φ s2) = .next u ∧ s.resume k hs go = if (u.grp k).hold = (s.grp k).hold then s else u := by
  obtain ⟨hst, hhold, s1, maj, f, hb, hf, hm⟩ := ht
  obtain ⟨h, hg, hx⟩ := hgo maj f hm
  refine ⟨h s2, hx s2, ?_⟩
  unfold State.resume
  dsimp only
  rw [if_neg (by simp [hst, hhold]), hb]
  dsimp only
  rw [hf]
  dsimp only
  rw [hg]

/-- A barrier instruction that ends with no trap waiting for it goes on as `exec` says (R87, R246). -/
theorem State.exec_endSync {maj : BitVec 7} {f : Fields} (hst : (s.grp k).st = .held) (htrap : (s.grp k).trapReq = none)
    (hf : State.fetchInstr { (s.modGrp k fun g => { g with hold := .none, trapReq := none }) with cur := k } k = (s2, .form maj f))
    (hm : mkInstr maj f = some i) (hgo : GoesOnAs go id i) : exec i s2 = .next (s.endSync k go) := by
  obtain ⟨h, hg, hx⟩ := hgo maj f hm
  refine (hx s2).trans (congrArg _ ?_)
  unfold State.endSync
  dsimp only
  rw [if_neg (by simp [hst, htrap]), hf]
  dsimp only
  rw [hg]
  dsimp only
  rw [htrap]
  rfl

end

theorem copyGo_goesOnAs (f : Fields) : ∀ i ∈ [Instr.cpy f, .cpym f, .cpyf f, .xsend f], GoesOnAs copyGo id i := by
  have hcpy : TakenOn copyGo id .cpy 0x6B := {}
  have hcpym : TakenOn copyGo id .cpym 0x6B := {}
  have hcpyf : TakenOn copyGo id .cpyf 0x6B := {}
  have hxsend : TakenOn copyGo id .xsend 0x71 := {}
  simp only [List.forall_mem_cons, List.not_mem_nil, false_imp_iff, implies_true, and_true]
  exact ⟨hcpy.goesOnAs f, hcpym.goesOnAs f, hcpyf.goesOnAs f, hxsend.goesOnAs f⟩

theorem barrierGo_goesOnAs (f : Fields) : ∀ i ∈ [Instr.barv f, .bara f, .bwait f], GoesOnAs barrierGo id i := by
  have hbarv : TakenOn barrierGo id .barv 0x69 := {}
  have hbara : TakenOn barrierGo id .bara 0x69 := {}
  have hbwait : TakenOn barrierGo id .bwait 0x69 := {}
  simp only [List.forall_mem_cons, List.not_mem_nil, false_imp_iff, implies_true, and_true]
  exact ⟨hbarv.goesOnAs f, hbara.goesOnAs f, hbwait.goesOnAs f⟩

theorem syncGo_goesOnAs (f : Fields) : ∀ i ∈ [Instr.vote f, .bcast f, .rscan f, .rred f, .mma f, .mmax f, .barv f, .bara f],
    GoesOnAs syncGo id i := by
  have hvote : TakenOn syncGo id .vote 0x1E := {}
  have hbcast : TakenOn syncGo id .bcast 0x54 := {}
  have hrscan : TakenOn syncGo id .rscan 0x55 := {}
  have hrred : TakenOn syncGo id .rred 0x56 := {}
  have hmma : TakenOn syncGo id .mma 0x59 := {}
  have hmmax : TakenOn syncGo id .mmax 0x59 := {}
  have hbarv : TakenOn syncGo id .barv 0x69 := {}
  have hbara : TakenOn syncGo id .bara 0x69 := {}
  simp only [List.forall_mem_cons, List.not_mem_nil, false_imp_iff, implies_true, and_true]
  exact ⟨hvote.goesOnAs f, hbcast.goesOnAs f, hrscan.goesOnAs f, hrred.goesOnAs f, hmma.goesOnAs f, hmmax.goesOnAs f, hbarv.goesOnAs f,
    hbara.goesOnAs f⟩

/-! ### The events -/

/-- An event completes by taking the instruction `i` of the group up from `x`; where the group would wait for the same nothing changes. -/
def TakesOn (e i : Instr) (k : Nat) (s x : State) : Prop :=
  Completes e s fun t => ∃ u, exec i x = .next u ∧ t = if (u.grp k).hold = (s.grp k).hold then s else u

section
variable {go : BitVec 7 → Fields → Option (State → State)} {φ : State → State} {f : Fields} {k : Nat} {i : Instr} {s s2 : State}
  {e : Instr} {hs : List Hold}

theorem TakesOn.of_resume (he : exec e s = .next (s.resume k hs go)) (hgo : GoesOnAs go φ i) (ht : TakesUp i k hs s s2) :
    TakesOn e i k s (φ s2) := by
  have h := State.resume_of_takesUp ht hgo
  exact ⟨_, he, h⟩

theorem next_if_neg {c : Prop} [Decidable c] {t u : State} (h : ¬c) : (.next (if c then t else u) : Res) = .next u := by rw [if_neg h]

theorem pwaitResume_takesOn (ht : TakesUp (.pwait f) k [.pwait] s s2) : TakesOn (.pwaitResume k) (.pwait f) k s s2 :=
  .of_resume (φ := id) rfl (TakenOn.goesOnAs (maj := 0x68) {} f) ht

theorem cwaitResume_takesOn (hi : i ∈ [Instr.cwait f, .cseal f]) (ht : TakesUp i k [.cwait, .cseal] s s2) :
    TakesOn (.cwaitResume k) i k s s2 := by
  simp only [List.mem_cons, List.not_mem_nil, or_false] at hi
  rcases hi with rfl | rfl
  · exact .of_resume (φ := id) rfl (TakenOn.goesOnAs (maj := 0x6C) {} f) ht
  · exact .of_resume (φ := id) rfl (TakenOn.goesOnAs (maj := 0x6C) {} f) ht

theorem copyAdmit_takesOn (hw : (s.core (coreOf k)).wait = false) (hi : i ∈ [Instr.cpy f, .cpym f, .cpyf f, .xsend f])
    (ht : TakesUp i k [.engine, .range] s s2) : TakesOn (.copyAdmit k) i k s s2 :=
  .of_resume (φ := id) (next_if_neg (by simp [hw])) (copyGo_goesOnAs f i hi) ht

theorem rangeHoldRelease_takesOn (hw : (s.core (coreOf k)).wait = false)
    (hi : i ∈ [Instr.lds f, .sts f, .atoms f, .cpy f, .cpym f, .cpyf f, .xsend f])
    (ht : TakesUp i k [.range] s s2) : TakesOn (.rangeHoldRelease k) i k s s2 := by
  have he : exec (.rangeHoldRelease k) s = .next (s.resume k [.range] _) := next_if_neg (by simp [hw])
  simp only [List.mem_cons, List.not_mem_nil, or_false] at hi
  rcases hi with rfl | rfl | rfl | rfl | rfl | rfl | rfl
  · exact .of_resume (φ := id) he (TakenOn.goesOnAs (maj := 0x61) {} f) ht
  · exact .of_resume (φ := id) he (TakenOn.goesOnAs (maj := 0x61) {} f) ht
  · exact .of_resume (φ := id) he (TakenOn.goesOnAs (maj := 0x66) {} f) ht
  · exact .of_resume (φ := id) he (TakenOn.goesOnAs (maj := 0x6B) {} f) ht
  · exact .of_resume (φ := id) he (TakenOn.goesOnAs (maj := 0x6B) {} f) ht
  · exact .of_resume (φ := id) he (TakenOn.goesOnAs (maj := 0x6B) {} f) ht
  · exact .of_resume (φ := id) he (TakenOn.goesOnAs (maj := 0x71) {} f) ht

theorem accHoldRelease_takesOn (hi : i ∈ [Instr.afree f, .azero f, .ard f, .awr f, .aks f]) (ht : TakesUp i k [.accBusy] s s2) :
    TakesOn (.accHoldRelease k) i k s s2 := by
  simp only [List.mem_cons, List.not_mem_nil, or_false] at hi
  rcases hi with rfl | rfl | rfl | rfl | rfl
  · exact .of_resume (φ := id) rfl (TakenOn.goesOnAs (maj := 0x58) {} f) ht
  · exact .of_resume (φ := id) rfl (TakenOn.goesOnAs (maj := 0x58) {} f) ht
  · exact .of_resume (φ := id) rfl (TakenOn.goesOnAs (maj := 0x5A) {} f) ht
  · exact .of_resume (φ := id) rfl (TakenOn.goesOnAs (maj := 0x5A) {} f) ht
  · exact .of_resume (φ := id) rfl (TakenOn.goesOnAs (maj := 0x5A) {} f) ht

theorem accAllocGrant_takesOn (hs : s.stage = .closing) (ht : TakesUp (.aalloc f) k [.aalloc] s s2) :
    TakesOn (.accAllocGrant k) (.aalloc f) k s s2 :=
  .of_resume (φ := id) (next_if_neg (by simp [hs])) (TakenOn.goesOnAs (maj := 0x58) {} f) ht

theorem rpopDelivery_takesOn (hs : s.stage = .closing) (ht : TakesUp (.rpop f) k [.rpop] s s2) :
    TakesOn (.rpopDelivery k) (.rpop f) k s (s2.modGrp k fun g => { g with hold := .rpop }) :=
  .of_resume (φ := fun s => s.modGrp k fun g => { g with hold := .rpop }) (next_if_neg (by simp [hs]))
    (TakenOn.goesOnAs (maj := 0x6F) {} f) ht

end

/-! ### Arrivals at a barrier -/

section
variable (s : State) (tk n : Nat) (gid : Option Nat) (err : Bool) (k : Nat)

theorem State.setBar_bars (b : BarWord) (hn : n < 16) : (((s.setBar tk n b).team tk).bars[n]?).getD 0 = b.word := by
  simp [State.setBar, hn]

/-- A group without what has ended its wait at a barrier. -/
def Group.unended (g : Group) : Group := { g with ended := none }

/-- An arrival leaves every group as it was but for a wait that it ends. -/
theorem State.arriveAt_unended : ((s.arriveAt tk n gid err).grp k).unended = (s.grp k).unended := by
  unfold State.arriveAt
  dsimp only
  split
  · rfl
  · refine foldl_unchanged (fun s : State => (s.grp k).unended) (fun u e => ?_) _ _
    split
    · rw [State.grp_modGrp]
      split
      next hk => subst hk; rfl
      · rfl
    · rfl

theorem State.arriveAt_team : (s.arriveAt tk n gid err).team = (s.setBar tk n ((s.bar tk n).arrive gid err)).team := by
  unfold State.arriveAt
  dsimp only
  split
  · rfl
  · refine foldl_unchanged State.team (fun u e => ?_) _ _
    split <;> rfl

end

section
variable {k : Nat} {s s2 : State} {a : Arrive} {i : Instr} {f : Fields}

/-- What `countArrival` leaves of the group that has arrived. -/
def Group.arrived (g : Group) (a : Arrive) (b : BarWord) (barv : Bool) : Group :=
  { g with
    elapsed := 0, sub := 0
    arrive := if barv then none else some { a with parity := some b.parity }
    batch := if barv then { g.batch with bvValid := true, bvParity := b.parity, bvBar := a.bar } else g.batch }

theorem State.countArrival_unended (barv : Bool) :
    ((s.countArrival k a barv).grp k).unended = ((s.grp k).arrived a (s.bar (s.grp k).team a.bar) barv).unended := by
  refine (State.arriveAt_unended ..).trans ?_
  rw [State.grp_modGrp, if_pos rfl]
  rfl

theorem State.countArrival_bars (barv : Bool) (hn : a.bar < 16) :
    (((s.countArrival k a barv).team (s.grp k).team).bars[a.bar]?).getD 0
      = ((s.bar (s.grp k).team a.bar).arrive (some (s.grp k).gid) false).word := by
  unfold State.countArrival
  rw [State.arriveAt_team, State.setBar_bars _ _ _ _ hn]
  rfl

/-- The arrival of a held group is counted once its release is complete; a BARV waits on, and another instruction ends (R241, R245). -/
theorem execBarrierArrival_of_relDone (hst : (s.grp k).st = .held) (harr : (s.grp k).arrive = some a) (hp : a.parity = none)
    (hr : s.relDone a.rel = true) : exec (.barrierArrival k) s
      = .next (if s.atBarv k then s.countArrival k a true else (s.countArrival k a false).endSync k barrierGo) := by
  show execBarrierArrival k s = _
  unfold execBarrierArrival
  rw [harr]
  dsimp only
  rw [if_neg (by simp [hst, hp, hr])]
  split
  next h => rw [h]
  next h => rw [Bool.eq_false_iff.2 h]

theorem barrierArrival_barv (hst : (s.grp k).st = .held) (harr : (s.grp k).arrive = some a) (hp : a.parity = none)
    (hr : s.relDone a.rel = true) (hn : a.bar < 16) (hb : s.atBarv k = true) :
    Completes (.barrierArrival k) s fun t => (t.grp k).st = .held ∧ (t.grp k).arrive = none
      ∧ (t.grp k).batch.bvValid = true ∧ (t.grp k).batch.bvBar = a.bar ∧ (t.grp k).batch.bvParity = (s.bar (s.grp k).team a.bar).parity
      ∧ ((t.team (s.grp k).team).bars[a.bar]?).getD 0 = ((s.bar (s.grp k).team a.bar).arrive (some (s.grp k).gid) false).word := by
  have hg := State.countArrival_unended (s := s) (k := k) (a := a) true
  have hbatch := congrArg Group.batch hg
  refine ⟨_, (execBarrierArrival_of_relDone hst harr hp hr).trans (by rw [if_pos hb]), (congrArg Group.st hg).trans hst,
    congrArg Group.arrive hg, congrArg Batch.bvValid hbatch, congrArg Batch.bvBar hbatch, congrArg Batch.bvParity hbatch,
    State.countArrival_bars true hn⟩

theorem barrierArrival_bara (hst : (s.grp k).st = .held) (harr : (s.grp k).arrive = some a) (hp : a.parity = none)
    (hr : s.relDone a.rel = true) (hb : s.atBarv k = false) (htrap : (s.grp k).trapReq = none)
    {f1 : Fields} (hf : State.fetchInstr { ((s.countArrival k a false).modGrp k fun g => { g with hold := .none, trapReq := none })
      with cur := k } k = (s2, .form 0x69 f1)) (hm : mkInstr 0x69 f1 = some (.bara f)) :
    Completes (.barrierArrival k) s fun t => exec (.bara f) s2 = .next t := by
  have hg := State.countArrival_unended (s := s) (k := k) (a := a) false
  refine ⟨_, (execBarrierArrival_of_relDone hst harr hp hr).trans (by rw [if_neg (by simp [hb])]), ?_⟩
  exact State.exec_endSync ((congrArg Group.st hg).trans hst) ((congrArg Group.trapReq hg).trans htrap) hf hm
    (barrierGo_goesOnAs f _ (by simp))

theorem barrierWaiterRelease_takesOn (harr : (s.grp k).arrive = none) (hing : (s.grp k).arriving = false)
    (hi : i ∈ [Instr.barv f, .bara f, .bwait f]) (ht : TakesUp i k [.bwait] s s2) : TakesOn (.barrierWaiterRelease k) i k s s2 := by
  refine .of_resume (φ := id) ?_ (barrierGo_goesOnAs f i hi) ht
  show execBarrierWaiterRelease k s = _
  simp [execBarrierWaiterRelease, harr, hing]

theorem barrierWaiterRelease_ends (harr : (s.grp k).arrive = none) (hing : (s.grp k).arriving = true) (hst : (s.grp k).st = .held)
    (htrap : (s.grp k).trapReq = none) {f1 : Fields}
    (hf : State.fetchInstr { (s.modGrp k fun g => { g with hold := .none, trapReq := none }) with cur := k } k = (s2, .form 0x69 f1))
    (hm : mkInstr 0x69 f1 = some (.barv f)) : Completes (.barrierWaiterRelease k) s fun t => exec (.barv f) s2 = .next t := by
  refine ⟨s.endSync k barrierGo, ?_, State.exec_endSync hst htrap hf hm (barrierGo_goesOnAs f _ (by simp))⟩
  show execBarrierWaiterRelease k s = _
  simp [execBarrierWaiterRelease, harr, hing]

/-- GROUP_SYNC_EXECUTE (R94): the parked instruction of a group that may issue and whose turn it is. -/
theorem completes_groupSyncExecute {s1 : State} {maj : BitVec 7}
    (hi : i ∈ [Instr.vote f, .bcast f, .rscan f, .rred f, .mma f, .mmax f, .barv f, .bara f]) (hturn : k ∈ s.turns)
    (hmay : (s.grp k).mayIssue s.time = true) (hsel : ∃ x, (s.grp k).select = some x ∧ x.sync = true)
    (hb : State.boundary { s with turns := s.turns.erase k } k = (s1, true))
    (hf : ({ s1 with cur := k } : State).fetchIssue k = (s2, .form maj f)) (hm : mkInstr maj f = some i) :
    Completes (.groupSyncExecute k) s fun t => exec i (s2.readRegs maj f) = .next t := by
  obtain ⟨x, hx, hsync⟩ := hsel
  obtain ⟨h, hg, hexec⟩ := syncGo_goesOnAs f i hi maj f hm
  refine ⟨h (s2.readRegs maj f), ?_, hexec _⟩
  show execGroupSyncExecute k s = _
  unfold execGroupSyncExecute
  dsimp only
  rw [if_neg (by simp [hturn, hmay, hx, hsync]), hb]
  dsimp only
  rw [hf]
  dsimp only
  rw [hg]

end

/-- Settles O45: what an event resumes goes on as `exec` says, and an arrival is counted before its instruction waits or ends. -/
theorem heldGroupsTakeUp : Obligations.HeldGroupsTakeUp := by
  intro k s s2 i f
  refine ⟨?_, fun a hst harr hp hr hn => ⟨fun hb => barrierArrival_barv hst harr hp hr hn hb, ?_⟩, fun harr => ⟨?_, ?_⟩, ?_, ?_, ?_⟩
  · simp only [List.forall_mem_cons, List.not_mem_nil, false_imp_iff, implies_true, and_true]
    refine ⟨?_, ?_, ?_, ?_, ?_⟩
    · intro hi ht _
      obtain rfl := List.mem_singleton.1 hi
      exact pwaitResume_takesOn ht
    · exact fun hi ht _ => cwaitResume_takesOn hi ht
    · exact fun hi ht hw => copyAdmit_takesOn (hw (by simp)) hi ht
    · exact fun hi ht hw => rangeHoldRelease_takesOn (hw (by simp)) hi ht
    · exact fun hi ht _ => accHoldRelease_takesOn hi ht
  · rintro hb htrap ⟨f1, hf, hm⟩
    exact barrierArrival_bara hst harr hp hr hb htrap hf hm
  · exact fun hing hi ht => barrierWaiterRelease_takesOn harr hing hi ht
  · rintro hing hst htrap ⟨f1, hf, hm⟩
    exact barrierWaiterRelease_ends harr hing hst htrap hf hm
  · exact fun ht hs => accAllocGrant_takesOn hs ht
  · exact fun ht hs => rpopDelivery_takesOn hs ht
  · exact fun s1 maj hi hturn hmay hsel hb hf hm => completes_groupSyncExecute hi hturn hmay hsel hb hf hm

end Sys2Proof.Machine
end

section
/-!
SUPPORT. What the end of an issue leaves of a group and of its lanes (R36, R89, R90, R96).
-/

namespace Sys2Proof.Machine

/-! ### Lanes settle (R90, R96) -/

theorem Group.lowPc_isSome {g : Group} {m : LaneMask} (l : LaneId) (h : m.getLsbD l = true) : (g.lowPc m).isSome := by
  have hkeep (ls : List LaneId) (r : Option Nat) (hr : r.isSome) : (ls.foldl (fun r i => let x := g.lane[i].pcv.toNat
      some (match r with | none => x | some y => min x y)) r).isSome := by
    induction ls generalizing r with
    | nil => exact hr
    | cons i ls ih => exact ih _ rfl
  obtain ⟨i, ls, hls⟩ := List.exists_cons_of_ne_nil (List.ne_nil_of_mem ((mem_laneList m l).2 h))
  unfold Group.lowPc
  rw [hls]
  exact hkeep ls _ rfl

/-- A group with a lane that can run selects something to issue. -/
theorem Group.select_isSome {g : Group} (l : LaneId) (hst : g.lane[l].st = .live) (hy : g.lane[l].yld = false) : g.select.isNone = false := by
  obtain ⟨a, ha⟩ := Option.isSome_iff_exists.1 (Group.lowPc_isSome (g := g) l ((Group.getLsbD_runnable g l).2 ⟨hst, hy⟩))
  unfold Group.select
  rw [ha]
  rfl

/-- When no lane can run every yield bit clears (R90). -/
def Group.unyield (g : Group) : Group :=
  if g.runnable = 0 then { g with lane := Vector.ofFn fun i => { g.lane[i] with yld := false } } else g

/-- With no lane parked the watchdog clears (R95). -/
def Group.unwatch (g : Group) : Group := if g.parked = 0 then { g with elapsed := 0, sub := 0 } else g

/-- The state of a group whose lanes have changed (R86, R94, R96). -/
def Group.restate (g : Group) : Group :=
  if g.st = .ready || g.st = .held then
    if g.unexited = 0 then { g.sealOpen with st := .draining, hold := .none }
    else if g.select.isNone then { g with st := .held, hold := .parked } else g
  else g

theorem Group.settle_eq (g : Group) : g.settle = g.unyield.unwatch.restate := rfl

theorem Group.unyield_fields (g : Group) : ∃ lane, g.unyield = { g with lane } := by
  unfold Group.unyield
  split <;> exact ⟨_, rfl⟩

theorem Group.unwatch_fields (g : Group) : ∃ elapsed sub, g.unwatch = { g with elapsed, sub } := by
  unfold Group.unwatch
  split <;> exact ⟨_, _, rfl⟩

theorem Group.unwatch_keeps (g : Group) :
    g.unwatch.unexited = g.unexited ∧ g.unwatch.select = g.select ∧ g.unwatch.st = g.st ∧ g.unwatch.hold = g.hold := by
  obtain ⟨_, _, h⟩ := g.unwatch_fields
  rw [h]
  exact ⟨rfl, rfl, rfl, rfl⟩

theorem Group.restate_fields (g : Group) : ∃ sealDue batch st hold, g.restate = { g with sealDue, batch, st, hold } := by
  unfold Group.restate Group.sealOpen
  split_ifs <;> exact ⟨_, _, _, _, rfl⟩

theorem Group.unyield_lane (g : Group) (l : LaneId) :
    g.unyield.lane[l] = { g.lane[l] with yld := g.lane[l].yld && decide (g.runnable ≠ 0) } := by
  unfold Group.unyield
  split
  next h => simp [h]
  next h => rw [decide_eq_true h, Bool.and_true]

/-- With a live lane, a lane can run once the yield bits have cleared. -/
theorem Group.unyield_runs {g : Group} (l : LaneId) (h : g.lane[l].st = .live) :
    ∃ j : LaneId, g.unyield.lane[j].st = .live ∧ g.unyield.lane[j].yld = false := by
  by_cases h0 : g.runnable = 0
  · refine ⟨l, ?_, ?_⟩ <;> rw [Group.unyield_lane]
    · exact h
    · simp [h0]
  · have hex : ∃ j : LaneId, g.runnable.getLsbD j = true := by
      by_contra hno
      refine h0 (BitVec.eq_of_getLsbD_eq fun i hi => ?_)
      simpa using fun hj => hno ⟨⟨i, hi⟩, hj⟩
    obtain ⟨j, hj⟩ := hex
    obtain ⟨hst, hy⟩ := (Group.getLsbD_runnable g j).1 hj
    refine ⟨j, ?_, ?_⟩ <;> rw [Group.unyield_lane]
    · exact hst
    · dsimp only
      rw [hy, Bool.false_and]

theorem Group.settle_lane (g : Group) (l : LaneId) :
    g.settle.lane[l] = { g.lane[l] with yld := g.lane[l].yld && decide (g.runnable ≠ 0) } := by
  obtain ⟨_, _, hw⟩ := g.unyield.unwatch_fields
  obtain ⟨_, _, _, _, hr⟩ := g.unyield.unwatch.restate_fields
  rw [← Group.unyield_lane, Group.settle_eq, hr, hw]

/-- A group with a live lane settles without a change of its state (R86). -/
theorem Group.settle_st {g : Group} (l : LaneId) (h : g.lane[l].st = .live) : g.settle.st = g.st ∧ g.settle.hold = g.hold := by
  obtain ⟨j, hst, hy⟩ := Group.unyield_runs l h
  have hun : g.unyield.unexited ≠ 0 := Group.lanesWhere_ne_zero j (by rw [hst]; rfl)
  have hsel := Group.select_isSome j hst hy
  obtain ⟨_, hg⟩ := g.unyield_fields
  obtain ⟨hwun, hwsel, hwst, hwhold⟩ := g.unyield.unwatch_keeps
  have hrest : g.settle = g.unyield.unwatch := by
    rw [Group.settle_eq, Group.restate, hwun, hwsel, if_neg hun, hsel]
    exact ite_self _
  rw [hrest, hwst, hwhold, hg]
  exact ⟨rfl, rfl⟩

/-- A group whose lanes have all exited drains (R86, R96). -/
theorem Group.settle_drains {g : Group} (h : ∀ l : LaneId, g.lane[l].st = .exited) (hst : g.st = .ready ∨ g.st = .held) :
    g.settle.st = .draining := by
  have hun : g.unyield.unexited = 0 := by
    refine BitVec.eq_of_getLsbD_eq fun i hi => ?_
    have hbit := Group.getLsbD_lanesWhere g.unyield (fun l => l.st != .exited) ⟨i, hi⟩
    rw [Group.unyield_lane, h] at hbit
    exact hbit.trans BitVec.getLsbD_zero.symm
  obtain ⟨_, hg⟩ := g.unyield_fields
  obtain ⟨hwun, -, hwst, -⟩ := g.unyield.unwatch_keeps
  have hkeep : g.unyield.unwatch.st = g.st := by rw [hwst, hg]
  rw [Group.settle_eq, Group.restate, if_pos (by simpa [hkeep] using hst), hwun, if_pos hun]

/-! ### The end of an issue (R36, R89) -/

section
variable (s : State) (env : Env) (pc : LaneId → Word)

/-- Two groups wait for the same: until when, for which stop, and pinned or not. -/
def SameWaits (g h : Group) : Prop := g.sleepEnd = h.sleepEnd ∧ g.stopReq = h.stopReq ∧ g.pin = h.pin

theorem SameWaits.trans {a b c : Group} (h : SameWaits a b) (h' : SameWaits b c) : SameWaits a c := by
  obtain ⟨hsleep, hstop, hpin⟩ := h
  obtain ⟨hsleep', hstop', hpin'⟩ := h'
  exact ⟨hsleep.trans hsleep', hstop.trans hstop', hpin.trans hpin'⟩

/-- A group at the end of an issue, before its lanes settle (R36, R37). -/
def Group.paused (g : Group) (stall : BitVec 3) (t : Word) : Group :=
  { g with
    pend := g.pend.map fun p => { p with dist := p.dist + 1 + stall.toNat },
    lastIssue := t, stallEnd := t + 1 + BitVec.ofNat 64 stall.toNat,
    st := if stall = 0 then .ready else .held,
    hold := if stall = 0 then .none else .stall }

theorem Group.issued_eq (g : Group) (stall : BitVec 3) (t : Word) : g.issued stall t = (g.paused stall t).settle := rfl

theorem Group.paused_keeps (g : Group) (stall : BitVec 3) (t : Word) :
    (g.paused stall t).lane = g.lane ∧ (g.paused stall t).runnable = g.runnable := ⟨rfl, rfl⟩

theorem Group.paused_waits (g : Group) (stall : BitVec 3) (t : Word) : SameWaits (g.paused stall t) g := ⟨rfl, rfl, rfl⟩

/-- A group whose path moves on at the end of an issue (R37, R89). -/
def Group.moves (g : Group) (env : Env) (pc : LaneId → Word) : Group := (g.replaces env).advance env.path false pc

theorem Group.settle_waits (g : Group) : SameWaits g.settle g := by
  obtain ⟨_, hy⟩ := g.unyield_fields
  obtain ⟨_, _, hw⟩ := g.unyield.unwatch_fields
  obtain ⟨_, _, _, _, hr⟩ := g.unyield.unwatch.restate_fields
  rw [Group.settle_eq, hr, hw, hy]
  exact ⟨rfl, rfl, rfl⟩

theorem Group.moves_waits (g : Group) : SameWaits (g.moves env pc) g := by
  unfold Group.moves Group.replaces Group.advance Group.mapLanes SameWaits
  split <;> simp

theorem State.complete_grp_eq :
    (s.complete env false pc).grp env.k = (((s.grp env.k).moves env pc).paused env.f.stall s.time).settle := by
  rw [complete_grp, if_pos rfl, Group.issued_eq, Group.moves]

theorem Group.moves_lane (g : Group) (l : LaneId) : ∃ pcv tgt, (g.moves env pc).lane[l] = { g.lane[l] with pcv, tgt } := by
  rw [← lanes_of_group (replaces_lane g env)]
  unfold Group.moves Group.advance Group.mapLanes
  simp only [Fin.getElem_fin, Bool.false_eq_true, if_false, Vector.getElem_ofFn, Fin.eta]
  generalize (g.replaces env).lane[(l : Nat)] = x
  split_ifs
  · exact ⟨x.pcv, none, rfl⟩
  · exact ⟨pc l, none, rfl⟩
  · exact ⟨x.pcv, none, rfl⟩
  · exact ⟨x.pcv, x.tgt, rfl⟩

theorem Group.lanesWhere_congr {g h : Group} {p : Lane → Bool} (hp : ∀ l : LaneId, p g.lane[l] = p h.lane[l]) :
    g.lanesWhere p = h.lanesWhere p := congrArg BitVec.ofFnLE (funext hp)

theorem Group.moves_runnable (g : Group) : (g.moves env pc).runnable = g.runnable := by
  refine Group.lanesWhere_congr fun l => ?_
  obtain ⟨_, _, h⟩ := g.moves_lane env pc l
  rw [h]

/-- What the end of an issue leaves of a lane (R89, R90). -/
theorem State.complete_lane (l : LaneId) : ∃ pcv tgt, ((s.complete env false pc).grp env.k).lane[l]
    = { (s.grp env.k).lane[l] with pcv, tgt, yld := (s.grp env.k).lane[l].yld && decide ((s.grp env.k).runnable ≠ 0) } := by
  obtain ⟨pcv, tgt, h⟩ := (s.grp env.k).moves_lane env pc l
  obtain ⟨hlane, hrun⟩ := ((s.grp env.k).moves env pc).paused_keeps env.f.stall s.time
  refine ⟨pcv, tgt, ?_⟩
  rw [State.complete_grp_eq, Group.settle_lane, hrun, Group.moves_runnable, lanes_of_group hlane, h]

theorem State.complete_waits : SameWaits ((s.complete env false pc).grp env.k) (s.grp env.k) := by
  rw [State.complete_grp_eq]
  exact (Group.settle_waits _).trans ((Group.paused_waits ..).trans (Group.moves_waits ..))

/-- Without a stall a group with a live lane is ready again (R36, R86). -/
theorem State.complete_ready {l : LaneId} (hl : (s.grp env.k).lane[l].st = .live) (hs : env.f.stall = 0) :
    ((s.complete env false pc).grp env.k).st = .ready := by
  obtain ⟨_, _, h⟩ := (s.grp env.k).moves_lane env pc l
  obtain ⟨hlane, -⟩ := ((s.grp env.k).moves env pc).paused_keeps env.f.stall s.time
  rw [State.complete_grp_eq, (Group.settle_st l (by rw [lanes_of_group hlane, h]; exact hl)).1]
  exact if_pos hs

/-- With its last lanes exited a group drains (R96). -/
theorem State.complete_drains (h : ∀ l : LaneId, (s.grp env.k).lane[l].st = .exited) :
    ((s.complete env false pc).grp env.k).st = .draining := by
  obtain ⟨hlane, -⟩ := ((s.grp env.k).moves env pc).paused_keeps env.f.stall s.time
  rw [State.complete_grp_eq]
  refine Group.settle_drains (fun l => ?_) (ite_eq_or_eq _ _ _)
  obtain ⟨_, _, hl⟩ := (s.grp env.k).moves_lane env pc l
  rw [lanes_of_group hlane, hl]
  exact h l

end

/-! ### The lanes of an issue (R89, R118) -/

section
variable {maj : BitVec 7} {f : Fields} {s : State} {k : Nat} {env : Env}

theorem begin_path_live (h : begin maj f s k = .go env false) {l : LaneId} (hl : env.path.getLsbD l = true) :
    (s.grp env.k).lane[l].st = .live := by
  have hsel := (begin_select h).1
  rw [← (begin_k h).1] at hsel
  obtain ⟨-, hlive | hlive, -⟩ := select_path hsel l hl
  · cases hlive
  · exact hlive

theorem begin_e_path (h : begin maj f s k = .go env false) {l : LaneId} (hl : env.e.getLsbD l = true) : env.path.getLsbD l = true := by
  obtain ⟨-, -, -, he⟩ := begin_select h
  rw [he] at hl
  split at hl
  · exact hl
  · rw [BitVec.getLsbD_and, BitVec.getLsbD_and] at hl
    simp_all

/-- Some lane of the path executes. -/
theorem exists_lane_of_ne_zero {m : LaneMask} (h : m ≠ 0) : ∃ l : LaneId, m.getLsbD l = true := by
  by_contra hno
  refine h (BitVec.eq_of_getLsbD_eq fun i hi => ?_)
  simpa using fun hj => hno ⟨⟨i, hi⟩, hj⟩

/-- A path that moves on with its lanes live stands where each lane goes (R89). -/
theorem complete_path_pcv {s' : State} {pc : LaneId → Word} {l : LaneId} (hp : env.path.getLsbD l = true)
    (hst : (s'.grp env.k).lane[l].st = .live) : ((s'.complete env false pc).grp env.k).lane[l].pcv = pc l :=
  complete_pcv l hp (by rw [hst]; decide) (.inr hst)

/-- The path goes on where the lanes are as live as before the issue. -/
theorem complete_advances {s' : State} (h : begin maj f s k = .go env false)
    (hst : ∀ l : LaneId, (s'.grp env.k).lane[l].st = (s.grp env.k).lane[l].st) : Advances env (s'.complete env false fun _ => env.nxt) :=
  fun _ hl => complete_path_pcv hl ((hst _).trans (begin_path_live h hl))

end

end Sys2Proof.Machine
end

section
/-!
PROOF of O19: YIELD, SLEEP, EXIT, NOP, SAFEPT, PIN and UNPIN (R90, R122 to R126). What the body does to the lanes is what settles at
the end of its issue.
-/

namespace Sys2Proof.Machine

/-! ### Bodies that complete at once -/

section
variable {short long i : Fields → Instr} {maj : BitVec 7} {body : Env → State → Out} {f : Fields} {s s' : State} {env : Env}

/-- A body that changes the state completes with the path at the next instruction. -/
theorem Runs.next (h : Runs short long maj body) (hi : i ∈ [short, long]) (hiss : Issues (i f) s env) (hb : body env (turn s) = .next s') :
    exec (i f) s = .next (s'.complete env false fun _ => env.nxt) := by
  rw [h.exec_issue hi hiss, hb]
  rfl

/-- A body that leaves its group held completes before. -/
theorem Runs.held (h : Runs short long maj body) (hi : i ∈ [short, long]) (hiss : Issues (i f) s env) {w : Hold}
    (hb : body env (turn s) = .held w s') :
    exec (i f) s = .next ((s'.complete env false fun _ => env.nxt).modGrp env.k fun g => { g with st := .held, hold := w }) := by
  rw [h.exec_issue hi hiss, hb]
  rfl

end

theorem State.grp_modGrp_same (s : State) (k : Nat) (F : Group → Group) : (s.modGrp k F).grp k = F (s.grp k) := by
  rw [State.grp_modGrp, if_pos rfl]

@[simp] theorem Group.raiseSb_lane (g : Group) (n : Option Nat) : (g.raiseSb n).lane = g.lane := by
  cases n <;> rfl

theorem Group.mapLanes_lane (g : Group) (m : LaneMask) (F : LaneId → Lane → Lane) (l : LaneId) :
    (g.mapLanes m F).lane[l] = if m.getLsbD l then F l g.lane[l] else g.lane[l] := by
  simp [Group.mapLanes]

/-- A path that has moved on stays where it is when its group is held. -/
theorem Advances.held {env : Env} {t : State} {w : Hold} (h : Advances env t) :
    Advances env (t.modGrp env.k fun g => { g with st := .held, hold := w }) := by
  intro l hl
  rw [State.grp_modGrp_same]
  exact h l hl

/-! ### YIELD and SLEEP (R90, R122, R123) -/

theorem State.yieldE_lane (s : State) (env : Env) (l : LaneId) :
    ((s.yieldE env).grp env.k).lane[l] = { (s.grp env.k).lane[l] with yld := (s.grp env.k).lane[l].yld || env.e.getLsbD l } := by
  have hg : (s.yieldE env).grp env.k = (s.grp env.k).mapLanes env.e fun _ l => { l with yld := true } := by
    rw [State.yieldE, State.grp_modGrp, if_pos rfl]
  rw [hg, Group.mapLanes_lane]
  cases env.e.getLsbD l <;> simp

/-- After a YIELD a lane can run when it is live and neither had yielded nor executes. -/
theorem State.yieldE_runnable_ne_zero (s : State) (env : Env) : ((s.yieldE env).grp env.k).runnable ≠ 0
    ↔ ∃ l : LaneId, (s.grp env.k).lane[l].st = .live ∧ ((s.grp env.k).lane[l].yld || env.e.getLsbD l) = false := by
  have hrun (l : LaneId) : ((s.yieldE env).grp env.k).runnable.getLsbD l = true
      ↔ (s.grp env.k).lane[l].st = .live ∧ ((s.grp env.k).lane[l].yld || env.e.getLsbD l) = false := by
    rw [Group.getLsbD_runnable, State.yieldE_lane]
  constructor
  · intro h
    obtain ⟨l, hl⟩ := exists_lane_of_ne_zero h
    exact ⟨l, (hrun l).1 hl⟩
  · rintro ⟨l, hl⟩ h0
    have hbit := (hrun l).2 hl
    rw [h0] at hbit
    exact absurd hbit (by simp)

section
variable {i : Fields → Instr} {f : Fields} {s : State} {env : Env}

theorem yield_completes (hi : i ∈ [Instr.yield, .yieldExt]) (hiss : Issues (i f) s env) :
    let g := (turn s).grp env.k
    let yields (l : LaneId) : Bool := g.lane[l].yld || env.e.getLsbD l
    Completes (i f) s fun t => Advances env t
      ∧ (∀ l : LaneId, (t.grp env.k).lane[l].yld = true ↔ yields l = true ∧ ∃ l : LaneId, g.lane[l].st = .live ∧ yields l = false)
      ∧ (f.stall = 0 → (t.grp env.k).st = .ready) := by
  have hr : Runs .yield .yieldExt 0x24 yieldBody := {}
  have hst (l : LaneId) : (((turn s).yieldE env).grp env.k).lane[l].st = ((turn s).grp env.k).lane[l].st := by rw [State.yieldE_lane]
  refine ⟨_, hr.next hi hiss rfl, complete_advances (hr.go hi hiss) hst, fun l => ?_, fun hs => ?_⟩
  · obtain ⟨_, _, h⟩ := State.complete_lane ((turn s).yieldE env) env (fun _ => env.nxt) l
    rw [h, ← State.yieldE_runnable_ne_zero]
    dsimp only
    rw [State.yieldE_lane, Bool.and_eq_true, decide_eq_true_iff]
  · obtain ⟨l, hl⟩ := exists_lane_of_ne_zero hiss.some
    have hlive := begin_path_live (hr.go hi hiss) (begin_e_path (hr.go hi hiss) hl)
    exact State.complete_ready _ _ _ ((hst l).trans hlive) (by rw [(hr.env_eq hi hiss).2, hs])

theorem sleep_completes (hi : i ∈ [Instr.sleep, .sleepExt]) (hiss : Issues (i f) s env) (hpoi : (env.srcB ((turn s).grp env.k) 0).poi = 0) :
    let n := min (env.srcB ((turn s).grp env.k) 0).val.toNat (2 ^ 32 - 1)
    Completes (i f) s fun t => Advances env t ∧ (n ≠ 0 → (t.grp env.k).st = .held ∧ (t.grp env.k).hold = .sleep
      ∧ (t.grp env.k).sleepEnd = some (s.time + BitVec.ofNat 64 n)) := by
  intro n
  have hr : Runs .sleep .sleepExt 0x24 sleepBody := {}
  have hbad : (env.srcB ((turn s).grp env.k) 0).bad = false := by simp [Reg.bad, hpoi]
  have hst (l : LaneId) : ((((turn s).yieldE env).consume env.k 0).grp env.k).lane[l].st = ((turn s).grp env.k).lane[l].st := by
    rw [consume_grp, State.yieldE_lane]
  have hbody : sleepBody env (turn s) = if n = 0 then .next (((turn s).yieldE env).consume env.k 0)
      else .held .sleep ((((turn s).yieldE env).consume env.k 0).modGrp env.k fun g =>
        { g.raiseSb env.f.slot with sleepEnd := some (s.time + BitVec.ofNat 64 n), sleepSb := env.f.slot }) := by
    unfold sleepBody
    dsimp only
    rw [hbad]
    rfl
  by_cases hn : n = 0
  · rw [if_pos hn] at hbody
    exact ⟨_, hr.next hi hiss hbody, complete_advances (hr.go hi hiss) hst, fun h => absurd hn h⟩
  · rw [if_neg hn] at hbody
    refine ⟨_, hr.held hi hiss hbody, ?_, fun _ => ?_⟩
    · refine Advances.held (complete_advances (hr.go hi hiss) fun l => ?_)
      rw [State.grp_modGrp_same, ← hst l]
      exact congrArg Lane.st (lanes_of_group (Group.raiseSb_lane ..) l)
    · rw [State.grp_modGrp_same, (State.complete_waits ..).1, State.grp_modGrp_same]
      exact ⟨rfl, rfl, rfl⟩

/-! ### EXIT (R96, R124) -/

theorem exit_completes (hi : i ∈ [Instr.exit, .exitExt]) (hiss : Issues (i f) s env) :
    Completes (i f) s fun t =>
      (∀ l : LaneId, env.e.getLsbD l = true → (t.grp env.k).lane[l].st = .exited ∧ (t.grp env.k).lane[l].yld = false)
        ∧ (∀ l : LaneId, env.path.getLsbD l = true → env.e.getLsbD l = false → (t.grp env.k).lane[l].pcv = env.nxt)
        ∧ ((∀ l : LaneId, env.e.getLsbD l = false → ((turn s).grp env.k).lane[l].st = .exited) → (t.grp env.k).st = .draining) := by
  have hr : Runs .exit .exitExt 0x25 exitBody := {}
  have hlane (l : LaneId) : (((turn s).modGrp env.k fun g => g.mapLanes env.e fun _ l => { l with st := .exited, yld := false }).grp
      env.k).lane[l] = if env.e.getLsbD l then { ((turn s).grp env.k).lane[l] with st := .exited, yld := false }
        else ((turn s).grp env.k).lane[l] := by
    rw [State.grp_modGrp_same, Group.mapLanes_lane]
  refine ⟨_, hr.next hi hiss rfl, fun l hl => ?_, fun l hl he => complete_path_pcv hl ?_, fun hall => State.complete_drains _ _ _ fun l => ?_⟩
  · obtain ⟨_, _, h⟩ := State.complete_lane _ env (fun _ => env.nxt) l
    rw [h, hlane, if_pos hl]
    exact ⟨rfl, rfl⟩
  · rw [hlane, if_neg (Bool.eq_false_iff.1 he)]
    exact begin_path_live (hr.go hi hiss) hl
  · rw [hlane]
    cases he : env.e.getLsbD l with
    | true => rfl
    | false => exact hall l he

/-! ### NOP, SAFEPT, PIN and UNPIN (R124 to R126) -/

theorem nop_completes (hi : i ∈ [Instr.nop, .nopExt]) (hiss : Issues (i f) s env) : Completes (i f) s fun t => Advances env t := by
  have hr : Runs .nop .nopExt 0x26 nopBody := {}
  exact ⟨_, hr.next hi hiss rfl, complete_advances (hr.go hi hiss) fun _ => rfl⟩

theorem safept_completes (hi : i ∈ [Instr.safept, .safeptExt]) (hiss : Issues (i f) s env) :
    let g := (turn s).grp env.k
    let asked : Prop := ((s.ctx g.ctx).preempt).isSome
    Completes (i f) s fun t => Advances env t
      ∧ (asked → (t.grp env.k).st = .held ∧ (t.grp env.k).hold = .copies ∧ (t.grp env.k).stopReq = some .safePoint)
      ∧ (¬asked → (t.grp env.k).stopReq = g.stopReq) := by
  intro g asked
  have hr : Runs .safept .safeptExt 0x26 safeptBody := {}
  have hst (l : LaneId) : (((turn s).modGrp env.k fun g => { g with stopReq := some .safePoint }).grp env.k).lane[l].st
      = g.lane[l].st := by rw [State.grp_modGrp_same]
  by_cases ha : asked
  · refine ⟨_, hr.held hi hiss (if_pos ha), ?_, fun _ => ?_, fun h => absurd ha h⟩
    · exact Advances.held (complete_advances (hr.go hi hiss) hst)
    · rw [State.grp_modGrp_same, (State.complete_waits ..).2.1, State.grp_modGrp_same]
      exact ⟨rfl, rfl, rfl⟩
  · exact ⟨_, hr.next hi hiss (if_neg ha), complete_advances (hr.go hi hiss) fun _ => rfl, fun h => absurd h ha,
      fun _ => (State.complete_waits ..).2.1⟩

theorem pinFlag_completes {short long : Fields → Instr} {on : Bool} (hr : Runs short long 0x26 (pinFlagBody on)) (hi : i ∈ [short, long])
    (hiss : Issues (i f) s env) : Completes (i f) s fun t => Advances env t ∧ (t.grp env.k).pin = on := by
  have hst (l : LaneId) : (((turn s).modGrp env.k fun g => { g with pin := on }).grp env.k).lane[l].st
      = ((turn s).grp env.k).lane[l].st := by rw [State.grp_modGrp_same]
  refine ⟨_, hr.next hi hiss rfl, complete_advances (hr.go hi hiss) hst, ?_⟩
  rw [(State.complete_waits ..).2.2, State.grp_modGrp_same]

end

/-- Settles O19: each body's change of the lanes, the waits and the pin flag is what stands at the end of its issue. -/
theorem waitingAndIdleResults : Obligations.WaitingAndIdleResults := by
  refine ⟨fun f s env _ => ⟨fun i hi h => yield_completes hi h, fun i hi h hpoi => sleep_completes hi h hpoi, fun i hi h => exit_completes hi h⟩,
    fun f s env => ⟨fun i hi h => nop_completes hi h, fun i hi h => safept_completes hi h, fun i hi h => ?_, fun i hi h => ?_⟩⟩
  · exact pinFlag_completes (on := true) {} hi h
  · exact pinFlag_completes (on := false) {} hi h

end Sys2Proof.Machine
end

section
/-!
SUPPORT. A group-synchronous instruction executes for all lanes that are parked at it (R94).
-/

namespace Sys2Proof.Machine

/-! ### The issue of a group-synchronous instruction (R94) -/

theorem Group.park_sameRegs (g : Group) (path : LaneMask) : SameRegs (g.park path) g := by
  simp [Group.park, Group.mapLanes, SameRegs]

/-- The state in which a group-synchronous instruction executes: every lane of the path is parked, and the registers are as at the issue. -/
structure Parked (s s1 : State) (env : Env) : Prop where
  select : (s1.grp env.k).select = some { pc := env.pc, path := env.path, sync := true }
  regs : SameRegs (s1.grp env.k) ((turn s).grp env.k)
  all : env.e = env.path

section
variable {i : Fields → Instr} {maj : BitVec 7} {body : Env → State → Out} {f : Fields} {s s1 : State} {env : Env}

/-- A form, group-synchronous, runs a body under a major opcode. -/
structure RunsSync (i : Fields → Instr) (maj : BitVec 7) (body : Env → State → Out) : Prop where
  op : ∀ f, opOf (i f) = some (maj, f) := by intros; rfl
  run : ∀ f s, exec (i f) s = .next (issueSync maj f s body) := by intros; rfl

theorem RunsSync.env_eq (h : RunsSync i maj body) (hiss : IssuesSync (i f) s env) : env.maj = maj ∧ env.f = f := by
  simpa using hiss.op.symm.trans (h.op f)

/-- The checks before the issue have passed. -/
theorem RunsSync.shape (h : RunsSync i maj body) (hiss : IssuesSync (i f) s env) :
    env.k = s.cur ∧ shape maj f = some env.sh ∧ env.sh.fieldsOk f = true := by
  obtain ⟨hmaj, hf⟩ := h.env_eq hiss
  obtain ⟨env0, sync, hgo, hk, -, henv⟩ := hiss.go
  rw [hmaj, hf] at hgo
  have hsh : env.sh = env0.sh := by rw [henv]
  rw [hsh, ← hk]
  exact ⟨(begin_k hgo).1, (begin_select hgo).2.1, begin_fieldsOk hgo⟩

/-- Once parked, the lanes execute the body together. -/
theorem RunsSync.exec_issue (h : RunsSync i maj body) (hiss : IssuesSync (i f) s env) :
    ∃ s1, Parked s s1 env ∧ exec (i f) s = .next (finish s1 env true (body env s1)) := by
  obtain ⟨hmaj, hf⟩ := h.env_eq hiss
  obtain ⟨env0, sync, hgo, hk, hsel, henv⟩ := hiss.go
  rw [hmaj, hf] at hgo
  refine ⟨_, ⟨hsel, ?_, by rw [henv]⟩, (h.run f s).trans (congrArg _ ?_)⟩
  · cases sync
    · rw [if_neg Bool.false_ne_true, State.grp_modGrp_same]
      exact Group.park_sameRegs ..
    · exact SameRegs.refl _
  · have hpc : env.pc = env0.pc := by rw [henv]
    rw [← hk] at hsel
    unfold issueSync
    dsimp only
    rw [turn] at hgo hsel
    rw [State.modGrp_cur, hgo]
    dsimp only
    rw [hsel]
    dsimp only
    rw [if_pos (by simp [hpc]), ← henv, hk]
    rfl

/-- Registers that a group-synchronous instruction writes stand when it ends, and its lanes go on. -/
theorem Parked.finish_regs (h : Parked s s1 env) {g : Group} {fl : BitVec 6} {cons : Nat} (hg : g.lane = (s1.grp env.k).lane) :
    Advances env (finish s1 env true (.regs g fl cons)) ∧ SameRegs ((finish s1 env true (.regs g fl cons)).grp env.k) g := by
  refine ⟨fun l hl => ?_, finish_regs_sameRegs ..⟩
  obtain ⟨hlive, -, -⟩ := select_path h.select l hl
  exact finish_regs_pcv l hg hl hlive (.inl rfl)

theorem Parked.pt (h : Parked s s1 env) : (s1.grp env.k).pt = ((turn s).grp env.k).pt := by
  obtain ⟨-, -, -, -, -, -, -, hctl, -, -⟩ := h.regs
  rw [Group.pt, hctl]
  rfl

theorem toNat_ne_zero {n : Nat} {x : BitVec n} (h : x ≠ 0) : x.toNat ≠ 0 := fun h0 => h (BitVec.eq_of_toNat_eq h0)

theorem Group.wrV_lane (g : Group) (n : Nat) (m : LaneMask) (r : LaneId → Reg) : (g.wrV n m r).lane = g.lane := by
  simp only [Group.wrV]

/-- A body that writes v[D] in each lane. -/
theorem Parked.finish_vecOut (h : Parked s s1 env) (hpt : ((turn s).grp env.k).pt = false) (res : LaneId → LRes) :
    Advances env (finish s1 env true (vecOut env s1 res)) ∧ ∀ l : LaneId, env.e.getLsbD l = true →
      ((finish s1 env true (vecOut env s1 res)).grp env.k).rdV env.f.d.toNat l = (res l).r := by
  rw [vecOut_of_pt (h.pt.trans hpt)]
  obtain ⟨hadv, hregs⟩ := h.finish_regs (g := (s1.grp env.k).wrV env.f.d.toNat env.e fun l => (res l).r) (Group.wrV_lane ..)
  exact ⟨hadv, fun l hl => by rw [hregs.rdV, Group.rdV_wrV, if_pos ⟨rfl, hl⟩]⟩

theorem Group.wrS_lane (g : Group) (n : Nat) (r : Reg) : (g.wrS n r).lane = g.lane := by
  unfold Group.wrS
  split <;> rfl

theorem Group.wrP_lane (g : Group) (n : Nat) (m x : LaneMask) : (g.wrP n m x).lane = g.lane := by
  unfold Group.wrP
  split <;> rfl

/-- A body that writes s[D]. -/
theorem Parked.finish_wrS (h : Parked s s1 env) (r : Reg) (fl : BitVec 6) (cons : Nat) :
    Advances env (finish s1 env true (.regs ((s1.grp env.k).wrS env.f.d.toNat r) fl cons)) ∧
      ((finish s1 env true (.regs ((s1.grp env.k).wrS env.f.d.toNat r) fl cons)).grp env.k).rdS env.f.d.toNat
        = if env.f.d.toNat = 0 then {} else r := by
  obtain ⟨hadv, hregs⟩ := h.finish_regs (fl := fl) (cons := cons) (Group.wrS_lane (s1.grp env.k) env.f.d.toNat r)
  refine ⟨hadv, ?_⟩
  rw [hregs.rdS, Group.rdS_wrS, if_pos rfl]

/-- A body that writes p[D] in each lane. -/
theorem Parked.finish_wrP (h : Parked s s1 env) (x : LaneMask) (fl : BitVec 6) (cons : Nat) :
    Advances env (finish s1 env true (.regs ((s1.grp env.k).wrP env.f.d.toNat env.e x) fl cons)) ∧
      ∀ l : LaneId, env.e.getLsbD l = true → env.f.d ≠ 0 →
        (((finish s1 env true (.regs ((s1.grp env.k).wrP env.f.d.toNat env.e x) fl cons)).grp env.k).rdP env.f.d.toNat).getLsbD l
          = x.getLsbD l := by
  obtain ⟨hadv, hregs⟩ := h.finish_regs (fl := fl) (cons := cons) (Group.wrP_lane (s1.grp env.k) env.f.d.toNat env.e x)
  refine ⟨hadv, fun l hl hd => ?_⟩
  rw [hregs.rdP, Group.rdP_wrP, if_neg (toNat_ne_zero hd), if_pos rfl]
  simp only [BitVec.getLsbD_or, BitVec.getLsbD_and, BitVec.getLsbD_not, hl, Bool.not_true, Bool.and_false, Bool.and_true, Bool.false_or]

end

/-! ### Packed results without poison (R77) -/

theorem packPoi4_clean : ∀ es : List Elem, (∀ e ∈ es, e.2 = false) → packPoi4 es = 0
  | [], _ => rfl
  | [a], h => by simp [packPoi4, h a]
  | a :: b :: r, h => by simp [packPoi4, h a, h b, packPoi4_clean r fun e he => h e (by simp [he])]

/-- Elements without poison, packed. -/
theorem packReg_clean {w : Nat} {es : List Elem} (h : ∀ e ∈ es, e.2 = false) : (packReg w es).poi = 0 := by
  unfold packReg
  dsimp only
  rw [packPoi_clean w es h, packPoi4_clean es h, ite_self]
  rfl

/-- A register with an element for each position. -/
theorem elem_packReg_map {w j : Nat} (F : Nat → Elem) (hj : j < 64 / w) :
    elem (packReg w ((List.range (64 / w)).map F)) w j = (F j).1 % 2 ^ w := by
  rw [elem_packReg w _ j (by simpa using hj) (by simpa using Nat.mul_div_le 64 w)]
  simp

end Sys2Proof.Machine
end

section
/-!
PROOF of O16: BCAST, RRED, RSCAN and VOTE (R94, R116, R152 to R154). On registers without poison the body's elements are the codes of the
participants.
-/

namespace Sys2Proof.Machine

/-! ### Registers without poison -/

/-- No register of the group is poisoned. -/
def Group.Clean (g : Group) : Prop := ∀ (n : Nat) (l : LaneId), (g.rdV n l).poi = 0 ∧ (g.rdS n).poi = 0

theorem Group.Clean.srcA {g : Group} (h : g.Clean) (env : Env) (l : LaneId) : (env.srcA g l).poi = 0 := by
  unfold Env.srcA Group.rdOpd
  split
  · exact (h _ l).2
  · exact (h _ l).1
  · rfl

theorem SameRegs.srcA {g h : Group} (e : SameRegs g h) (env : Env) (l : LaneId) : env.srcA g l = env.srcA h l := by
  unfold Env.srcA Group.rdOpd
  split
  · exact e.rdS _
  · exact e.rdV _ l
  · rfl

theorem SameRegs.clean {g h : Group} (e : SameRegs g h) (hc : h.Clean) : g.Clean := fun n l => by
  rw [e.rdV, e.rdS]
  exact hc n l

/-! ### RRED and RSCAN (R153, R154) -/

theorem foldElem_clean (f : Fields) {xs : List Elem} (h : ∀ x ∈ xs, x.2 = false) : (foldElem f xs).1.2 = false := by
  have hany : xs.any Prod.snd = false := List.any_eq_false.2 fun x hx => by simp [h x hx]
  unfold foldElem
  dsimp only
  rw [hany]
  split <;> rfl

/-- The elements at one position of the lanes of a mask, as the reduction takes them. -/
def laneElems (env : Env) (g : Group) (w : Nat) (m : LaneMask) (j : Nat) : List Elem :=
  (laneList m).map fun l => (elem (env.srcA g l) w j, false)

theorem foldLanes_clean {g : Group} (env : Env) (hg : g.Clean) (m : LaneMask) :
    (foldLanes env g m).r = packReg (redWidth env.f)
      ((List.range (64 / redWidth env.f)).map fun j => (foldElem env.f (laneElems env g (redWidth env.f) m j)).1) := by
  have hcol (j : Nat) : ((laneList m).map fun l => let r := env.srcA g l
      (elem r (redWidth env.f) j, elemBad r (redWidth env.f) j)) = laneElems env g (redWidth env.f) m j :=
    List.map_congr_left fun l _ => Prod.ext rfl (elemBad_clean (hg.srcA env l) _ _)
  unfold foldLanes
  dsimp only
  rw [List.map_map]
  refine congrArg (packReg _) (List.map_congr_left fun j _ => ?_)
  exact congrArg (fun xs => (foldElem env.f xs).1) (hcol j)

section
variable {f : Fields} {s : State} {env : Env}

/-- What a reduction leaves in a register that was clean. -/
theorem foldLanes_result {g h : Group} (hg : SameRegs g h) (hc : h.Clean) (hf : env.f = f) (m : LaneMask) :
    (foldLanes env g m).r.poi = 0 ∧ ∀ j, j < 64 / redWidth f →
      elem (foldLanes env g m).r (redWidth f) j = (foldElem f (laneElems env h (redWidth f) m j)).1.1 % 2 ^ redWidth f := by
  have hsame (j : Nat) : laneElems env g (redWidth f) m j = laneElems env h (redWidth f) m j := by
    unfold laneElems
    refine List.map_congr_left fun l _ => ?_
    rw [hg.srcA]
  have hr := foldLanes_clean env (hg.clean hc) m
  rw [hf] at hr
  rw [hr]
  refine ⟨packReg_clean fun e he => ?_, fun j hj => by rw [elem_packReg_map _ hj, hsame]⟩
  obtain ⟨j, -, rfl⟩ := List.mem_map.1 he
  refine foldElem_clean f fun x hx => ?_
  obtain ⟨l, -, rfl⟩ := List.mem_map.1 hx
  rfl

end

section
variable {f : Fields} {s : State} {env : Env}

/-- A body that writes v[D] in each lane: where no register is poisoned, elements of its results are elements of v[D]. -/
theorem RunsSync.lanes {i : Fields → Instr} {maj : BitVec 7} {body : Env → State → Out} (hr : RunsSync i maj body) (hpt : NoPoisonTrap s)
    (hiss : IssuesSync (i f) s env) {res : Group → LaneId → LRes} (hb : ∀ s1, body env s1 = vecOut env s1 (res (s1.grp env.k)))
    {w : Nat} {F : Group → LaneId → Nat → Nat} (hres : ∀ g h l, SameRegs g h → h.Clean →
      (res g l).r.poi = 0 ∧ ∀ j, j < 64 / w → elem (res g l).r w j = F h l j) :
    LaneElems (i f) s env w (fun g _ => g.Clean) F := by
  obtain ⟨s1, hp, hexec⟩ := hr.exec_issue hiss
  rw [NoPoisonTrap, ← (hr.shape hiss).1] at hpt
  obtain ⟨hadv, hreg⟩ := hp.finish_vecOut hpt (res (s1.grp env.k))
  rw [hb] at hexec
  refine ⟨_, hexec, hadv, fun l hl hc => ?_⟩
  rw [hreg l hl]
  exact hres _ _ l hp.regs hc

theorem rred_lanes (hpt : NoPoisonTrap s) (hiss : IssuesSync (.rred f) s env) (hx : f.xf = 0) :
    LaneElems (.rred f) s env (redWidth f) (fun g _ => g.Clean) fun g _ j =>
      (foldElem f (laneElems env g (redWidth f) env.e j)).1.1 % 2 ^ redWidth f := by
  have hr : RunsSync .rred 0x56 rredBody := {}
  obtain ⟨-, hf⟩ := hr.env_eq hiss
  refine hr.lanes hpt hiss (res := fun g l => { foldLanes env g env.e with cons := badElems (redWidth env.f) (env.srcA g l) })
    (fun s1 => if_neg (by rw [hf, hx]; decide)) fun g h l hg hc => ?_
  exact foldLanes_result hg hc hf env.e

theorem rred_scalar (hpt : NoPoisonTrap s) (hiss : IssuesSync (.rred f) s env) (hx : f.xf = 1) :
    Completes (.rred f) s fun t => Advances env t ∧ (((turn s).grp env.k).Clean → f.d ≠ 0 → ∀ j, j < 64 / redWidth f →
      elem ((t.grp env.k).rdS f.d.toNat) (redWidth f) j
        = (foldElem f (laneElems env ((turn s).grp env.k) (redWidth f) env.e j)).1.1 % 2 ^ redWidth f) := by
  have hr : RunsSync .rred 0x56 rredBody := {}
  obtain ⟨-, hf⟩ := hr.env_eq hiss
  obtain ⟨s1, hp, hexec⟩ := hr.exec_issue hiss
  rw [NoPoisonTrap, ← (hr.shape hiss).1] at hpt
  have hb : rredBody env s1 = .regs ((s1.grp env.k).wrS env.f.d.toNat (foldLanes env (s1.grp env.k) env.e).r)
      (foldLanes env (s1.grp env.k) env.e).flags (consOf env.e fun l => badElems (redWidth env.f) (env.srcA (s1.grp env.k) l)) :=
    (if_pos (by rw [hf, hx])).trans (poisonGate_of_pt (hp.pt.trans hpt))
  rw [hb] at hexec
  obtain ⟨hadv, hreg⟩ := hp.finish_wrS (foldLanes env (s1.grp env.k) env.e).r (foldLanes env (s1.grp env.k) env.e).flags
    (consOf env.e fun l => badElems (redWidth env.f) (env.srcA (s1.grp env.k) l))
  refine ⟨_, hexec, hadv, fun hc hd j hj => ?_⟩
  rw [hf, if_neg (toNat_ne_zero hd)] at hreg
  rw [hf, hreg]
  exact (foldLanes_result hp.regs hc hf env.e).2 j hj

theorem rscan_lanes (hpt : NoPoisonTrap s) (hiss : IssuesSync (.rscan f) s env) :
    LaneElems (.rscan f) s env (redWidth f) (fun g _ => g.Clean) fun g l j =>
      (foldElem f (laneElems env g (redWidth f) (lanesTo env.e l (f.xf = 1)) j)).1.1 % 2 ^ redWidth f := by
  have hr : RunsSync .rscan 0x55 rscanBody := {}
  obtain ⟨-, hf⟩ := hr.env_eq hiss
  refine hr.lanes hpt hiss (res := fun g l =>
      { foldLanes env g (lanesTo env.e l (env.f.xf = 1)) with cons := badElems (redWidth env.f) (env.srcA g l) })
    (fun s1 => rfl) fun g h l hg hc => ?_
  rw [hf]
  exact foldLanes_result hg hc hf _

/-! ### BCAST (R152) -/

/-- The selector of a BCAST without poison: that of s[B] or of IMM32. -/
def bcastSel (f : Fields) (g : Group) : Nat := if f.xf = 1 then elem (g.rdS f.b.toNat) 16 0 else bits f.imm 0 16

theorem bcastSel_lt (f : Fields) (g : Group) : bcastSel f g < 2 ^ 16 := by
  unfold bcastSel
  split
  · exact elem_lt ..
  · exact Nat.mod_lt _ (by norm_num)

theorem shflxSel_clean {g : Group} (hc : g.Clean) (hx : env.f.xf ≠ 0) (l : LaneId) (e : Nat) :
    shflxSel env g l e = (bcastSel env.f g, false) := by
  unfold shflxSel bcastSel
  rw [if_neg hx]
  split
  · exact Prod.ext rfl (elemBad_clean (hc _ 0).2 _ _)
  · rfl

/-- The code that a selector names (R151). -/
def bcastCode (f : Fields) (g : Group) (w : Nat) : Nat :=
  if 2 ^ 15 ≤ bcastSel f g then 0 else elem (g.rdV f.a.toNat (laneOf (bcastSel f g / 16 % 32))) w (bcastSel f g % 16 % (64 / w))

theorem bcastCode_lt (f : Fields) (g : Group) (w : Nat) : bcastCode f g w < 2 ^ w := by
  unfold bcastCode
  split
  · positivity
  · exact elem_lt ..

theorem SameRegs.bcastCode {g h : Group} (e : SameRegs g h) (f : Fields) (w : Nat) : bcastCode f g w = bcastCode f h w := by
  unfold Machine.bcastCode bcastSel
  simp only [e.rdS, e.rdV]

/-- The element that BCAST sends to all. -/
def bcastElem (env : Env) (g : Group) (w : Nat) : Elem :=
  let sel := shflxSel env g 0 0
  let x := shflxGet env g w (if sel.2 then 0 else sel.1)
  (x.1, x.2 || sel.2)

theorem bcastElem_clean {g : Group} (hc : g.Clean) (hx : env.f.xf ≠ 0) (w : Nat) : bcastElem env g w = (bcastCode env.f g w, false) := by
  have hs := bcastSel_lt env.f g
  unfold bcastElem
  dsimp only
  rw [shflxSel_clean hc hx]
  dsimp only
  rw [if_neg Bool.false_ne_true, Bool.or_false]
  unfold shflxGet bcastCode
  by_cases h : 2 ^ 15 ≤ bcastSel env.f g
  · rw [if_pos (by omega), if_pos h]
  · rw [if_neg (by omega), if_neg h]
    exact Prod.ext rfl (elemBad_clean (hc _ _).1 _ _)

theorem fn_of_mkInstr_bcast (h : mkInstr 0x54 f = some (.bcast f)) : f.fn = 2 := by
  have hall : ∀ n, mkInstr 0x54 { f with fn := n } = some (.bcast { f with fn := n }) → n = 2 := by
    refine forall_fn ?_ ?_ ?_ ?_ <;> intro h <;> cases h
    rfl
  exact hall f.fn h

/-- A BCAST has its selector in s[B] or in IMM32 (R152). -/
theorem bcast_xf {sh : Shape} (hm : mkInstr 0x54 f = some (.bcast f)) (hsh : shape 0x54 f = some sh) (hok : sh.fieldsOk f = true) :
    f.xf ≠ 0 := by
  have hfn := fn_of_mkInstr_bcast hm
  intro hx
  have hok' := Shape.ok_of_fieldsOk hok
  have hshfl : shapeShfl f = some sh := hsh
  rw [shapeShfl, if_neg (by rw [hfn]; decide), if_neg (by rw [hfn]; decide)] at hshfl
  cases hshfl
  simp [hx, hfn] at hok'

theorem bcast_lanes (hpt : NoPoisonTrap s) (hiss : IssuesSync (.bcast f) s env) :
    LaneElems (.bcast f) s env (shflxWidth f.md.toNat) (fun g _ => g.Clean) fun g _ _ => bcastCode f g (shflxWidth f.md.toNat) := by
  have hr : RunsSync .bcast 0x54 bcastBody := {}
  obtain ⟨hmaj, hf⟩ := hr.env_eq hiss
  obtain ⟨-, hsh, hok⟩ := hr.shape hiss
  have hx := bcast_xf (by simpa [hmaj, hf] using hiss.form) hsh hok
  generalize hw : shflxWidth f.md.toNat = w
  refine hr.lanes hpt hiss (res := fun g _ =>
    { r := packReg w (List.replicate (64 / w) (bcastElem env g w)), cons := if (shflxSel env g 0 0).2 then 1 else 0 })
    (fun s1 => by rw [← hw, ← hf]; rfl) fun g h l hg hc => ?_
  rw [bcastElem_clean (hg.clean hc) (by rw [hf]; exact hx), hf, hg.bcastCode]
  refine ⟨packReg_clean fun e he => by rw [List.eq_of_mem_replicate he], fun j hj => ?_⟩
  rw [elem_packReg w _ j (by simpa using hj) (by simpa using Nat.mul_div_le 64 w), List.getElem_replicate]
  exact Nat.mod_eq_of_lt (bcastCode_lt ..)

/-! ### VOTE (R116) -/

/-- The lanes of a vote of which its predicate is true. -/
def votes (f : Fields) (g : Group) (e : LaneMask) : LaneMask := g.rdP f.a.toNat &&& e

theorem SameRegs.votes {g h : Group} (e : SameRegs g h) (f : Fields) (m : LaneMask) : votes f g m = votes f h m := by
  rw [Machine.votes, Machine.votes, e.rdP]

/-- Any of the lanes, or all of them. -/
def voteHolds (f : Fields) (m e : LaneMask) : Bool := (f.fn = 0 && m != 0) || (f.fn = 1 && m = e)

theorem voteBody_of_ballot {s1 : State} (h : env.f.fn = 2) : voteBody env s1
    = .regs ((s1.grp env.k).wrS env.f.d.toNat (.of ((votes env.f (s1.grp env.k) env.e).zeroExtend 64))) 0 0 := if_pos h

theorem voteBody_of_not_ballot {s1 : State} (h : env.f.fn ≠ 2) : voteBody env s1 = .regs ((s1.grp env.k).wrP env.f.d.toNat env.e
    (if voteHolds env.f (votes env.f (s1.grp env.k) env.e) env.e then allLanes else 0)) 0 0 := if_neg h

theorem vote_ballot (hiss : IssuesSync (.vote f) s env) (hfn : f.fn = 2) : Completes (.vote f) s fun t => Advances env t ∧
    (t.grp env.k).rdS f.d.toNat = if f.d = 0 then {} else .of ((votes f ((turn s).grp env.k) env.e).zeroExtend 64) := by
  have hr : RunsSync .vote 0x1E voteBody := {}
  obtain ⟨-, hf⟩ := hr.env_eq hiss
  obtain ⟨s1, hp, hexec⟩ := hr.exec_issue hiss
  rw [voteBody_of_ballot (by rw [hf, hfn]), hp.regs.votes] at hexec
  obtain ⟨hadv, hreg⟩ := hp.finish_wrS (.of ((votes env.f ((turn s).grp env.k) env.e).zeroExtend 64)) 0 0
  refine ⟨_, hexec, hadv, ?_⟩
  rw [hf] at hreg ⊢
  rw [hreg]
  exact if_congr ⟨fun h => BitVec.eq_of_toNat_eq h, congrArg BitVec.toNat⟩ rfl rfl

theorem vote_predicate (hiss : IssuesSync (.vote f) s env) (hfn : f.fn ≠ 2) : Completes (.vote f) s fun t => Advances env t ∧
    ∀ l : LaneId, env.e.getLsbD l = true → f.d ≠ 0 →
      ((t.grp env.k).rdP f.d.toNat).getLsbD l = voteHolds f (votes f ((turn s).grp env.k) env.e) env.e := by
  have hr : RunsSync .vote 0x1E voteBody := {}
  obtain ⟨-, hf⟩ := hr.env_eq hiss
  obtain ⟨s1, hp, hexec⟩ := hr.exec_issue hiss
  rw [voteBody_of_not_ballot (by rw [hf]; exact hfn), hp.regs.votes] at hexec
  obtain ⟨hadv, hreg⟩ := hp.finish_wrP
    (if voteHolds env.f (votes env.f ((turn s).grp env.k) env.e) env.e then allLanes else 0) 0 0
  refine ⟨_, hexec, hadv, fun l hl hd => ?_⟩
  rw [hf] at hreg ⊢
  rw [hreg l hl hd]
  cases voteHolds f (votes f ((turn s).grp env.k) env.e) env.e
  · exact BitVec.getLsbD_zero
  · exact (BitVec.getLsbD_allOnes ..).trans (decide_eq_true l.isLt)

theorem vote_completes (hiss : IssuesSync (.vote f) s env) : Completes (.vote f) s fun t => Advances env t ∧
    let yes := votes f ((turn s).grp env.k) env.e
    (f.fn = 2 → (t.grp env.k).rdS f.d.toNat = if f.d = 0 then {} else .of (yes.zeroExtend 64))
    ∧ ∀ l : LaneId, env.e.getLsbD l = true → f.d ≠ 0 →
        (f.fn = 0 → (((t.grp env.k).rdP f.d.toNat).getLsbD l = true ↔ yes ≠ 0))
        ∧ (f.fn = 1 → (((t.grp env.k).rdP f.d.toNat).getLsbD l = true ↔ yes = env.e)) := by
  by_cases hfn : f.fn = 2
  · obtain ⟨t, hexec, hadv, hreg⟩ := vote_ballot hiss hfn
    exact ⟨t, hexec, hadv, fun _ => hreg, fun l _ _ => ⟨fun h => absurd (h.symm.trans hfn) (by decide), fun h => absurd (h.symm.trans hfn) (by decide)⟩⟩
  · obtain ⟨t, hexec, hadv, hreg⟩ := vote_predicate hiss hfn
    refine ⟨t, hexec, hadv, fun h => absurd h hfn, fun l hl hd => ?_⟩
    rw [hreg l hl hd]
    exact ⟨fun h => by simp [voteHolds, h], fun h => by simp [voteHolds, h]⟩

end

/-- Settles O16: on registers without poison each body's results are what the participants' elements give. -/
theorem groupSynchronousResults : Obligations.GroupSynchronousResults :=
  ⟨fun _ _ _ hpt => ⟨fun h => bcast_lanes hpt h, fun h hx => rred_lanes hpt h hx, fun h hx => rred_scalar hpt h hx, fun h => rscan_lanes hpt h⟩,
    fun _ _ _ h => vote_completes h⟩

end Sys2Proof.Machine
end

section
/-!
SUPPORT. Bodies that start an operation or trap (R39, R98, R205), and the lanes of a mask in order.
-/

namespace Sys2Proof.Machine

/-! ### Traps and starts at the end of an issue (R39, R98) -/

theorem begin_can_trap {maj : BitVec 7} {f : Fields} {s : State} {k : Nat} {env : Env} {sync : Bool} (h : begin maj f s k = .go env sync) :
    ((s.grp env.k).st = .ready ∨ (s.grp env.k).st = .held) ∧ (s.grp env.k).trapReq = none := by
  have hmay : (s.grp k).mayIssue s.time = true := by
    by_contra hno
    unfold begin at h
    dsimp only at h
    rw [if_pos (by simpa using hno)] at h
    cases h
  rw [(begin_k h).1]
  simp only [Group.mayIssue, Bool.and_eq_true, Bool.or_eq_true, decide_eq_true_eq, Option.isNone_iff_eq_none] at hmay
  obtain ⟨⟨⟨⟨hst, hreq⟩, -⟩, -⟩, -⟩ := hmay
  exact ⟨hst.imp_right fun h => h.1.1, hreq⟩

/-- The parts of a group that a trap looks at (R98). -/
def SameTrap (g h : Group) : Prop := g.st = h.st ∧ g.trapReq = h.trapReq

theorem State.launch_grp (s : State) (env : Env) (op : Op) : (s.launch env op).grp env.k = (s.grp env.k).raiseSb env.f.slot :=
  State.grp_modGrp_same s env.k fun g => g.raiseSb env.f.slot

theorem State.launch_sameTrap (s : State) (env : Env) (op : Op) : SameTrap ((s.launch env op).grp env.k) (s.grp env.k) := by
  rw [State.launch_grp]
  cases env.f.slot <;> exact ⟨rfl, rfl⟩

section
variable {short long i : Fields → Instr} {maj : BitVec 7} {body : Env → State → Out} {f : Fields} {s s' : State} {env : Env}

/-- A body that traps. -/
theorem Runs.trap (h : Runs short long maj body) (hi : i ∈ [short, long]) (hiss : Issues (i f) s env) {cause : Nat} {addr : Word} {done : LaneMask}
    (hb : body env (turn s) = .trap cause addr done s') (hs : SameTrap (s'.grp env.k) ((turn s).grp env.k)) :
    Traps (i f) s env.k cause addr := by
  obtain ⟨hst, hreq⟩ := begin_can_trap (h.go hi hiss)
  obtain ⟨hst', hreq'⟩ := hs
  refine ⟨_, h.exec_issue hi hiss, ?_⟩
  rw [hb]
  exact State.trap_taken s' env.k cause addr done (by rw [hst']; exact hst) (hreq'.trans hreq)

/-- A body that starts an operation. -/
theorem Runs.start (h : Runs short long maj body) (hi : i ∈ [short, long]) (hiss : Issues (i f) s env) {op : Op}
    (hb : body env (turn s) = .start s' op) :
    exec (i f) s = .next ((s'.launch env op).complete env false fun _ => env.nxt) := by
  rw [h.exec_issue hi hiss, hb]
  rfl

/-- The operation that a body starts enters flight, and the path goes on. -/
theorem Runs.starts (h : Runs short long maj body) (hi : i ∈ [short, long]) (hiss : Issues (i f) s env) {op : Op}
    (hb : body env (turn s) = .start s' op) (hgrp : s'.grp env.k = (turn s).grp env.k) (hops : s'.ops = s.ops) {ls : List LaneId}
    (hlanes : op.lanes.map (fun x => x.lane) = ls.map fun l => l.val) (hwr : op.wr = regWrites env.sh env.f) {P : Op → Prop}
    (hP : ∀ o : Op, o.size = op.size → o.lanes = op.lanes → P o) {Q : LaneId → LaneOp → Prop}
    (hQ : ∀ (n : Nat) (l : LaneId) (x : LaneOp), ls[n]? = some l → op.lanes[n]? = some x → Q l x) :
    Starts (i f) s env op.kind ls P Q := by
  refine ⟨_, h.start hi hiss hb, complete_advances (h.go hi hiss) fun l => ?_, ?_⟩
  · rw [lanes_of_group (launch_lane s' env op), hgrp]
  · refine ⟨{ op with id := s'.nextId, k := env.k, f := env.f, sbs := env.f.slot, addr := env.pc, time := s'.time }, ?_, rfl, rfl, hwr, rfl,
      hP _ rfl rfl, hlanes, hQ⟩
    exact congrArg (· ++ _) hops

end

/-! ### The lanes of a mask in ascending order -/

theorem laneList_pairwise (m : LaneMask) : (laneList m).Pairwise (· < ·) := (List.pairwise_lt_finRange 32).filter _

/-- The first lane of a mask of which `F` finds something. -/
theorem findSome_laneList {α : Type} {m : LaneMask} {F : LaneId → Option α} {l : LaneId} {x : α} (hl : m.getLsbD l = true) (hF : F l = some x)
    (hlow : ∀ j : LaneId, m.getLsbD j = true → j < l → F j = none) : (laneList m).findSome? F = some x := by
  obtain ⟨pre, post, hsplit⟩ := List.append_of_mem ((mem_laneList m l).2 hl)
  refine List.findSome?_eq_some_iff.2 ⟨pre, l, post, hsplit, hF, fun j hj => hlow j ?_ ?_⟩
  · exact (mem_laneList m j).1 (by rw [hsplit]; exact List.mem_append_left _ hj)
  · have hpw := laneList_pairwise m
    rw [hsplit] at hpw
    exact (List.pairwise_append.1 hpw).2.2 j hj l List.mem_cons_self

end Sys2Proof.Machine
end

section
/-!
PROOF of O23: LDS, STS, LDB and STB (R99, R186, R187, R205, R209, R210). The checks of the lanes have a closed form: the lanes without a fault
in ascending order, and the first fault.
-/

namespace Sys2Proof.Machine

/-! ### The checks of lanes in a local space (R205, R209, R210) -/

/-- The fault of a lane's local access at an address. -/
def localFault (s : State) (g : Group) (kind : OpKind) (size : Nat) (a : Word) : Option Nat :=
  if a.toNat % size ≠ 0 then some causeAlign
  else if kind.space = .spad then (if (s.team g.team).wsize < a.toNat + size then some causeSpad else none)
  else if s.bmSize (s.ctx g.ctx).part < a.toNat + size then some causeBank else none

/-- What LDS, STS, LDB and STB ask of each lane. -/
def localReq (kind : OpKind) (env : Env) (g : Group) : MemReq :=
  { kind, size := sizeBytes (bits env.f.md 0 3), align := sizeBytes (bits env.f.md 0 3), acc := if kind.store then .store else .load,
    disp := env.f.disp
    data := fun l =>
      if kind.store then
        let parts := (List.range (sizeRegs (bits env.f.md 0 3))).map fun i =>
          regBytes (g.rdV (env.f.d.toNat + i) l) (min 8 (sizeBytes (bits env.f.md 0 3)))
        (parts.flatMap Prod.fst, parts.flatMap Prod.snd)
      else ([], []) }

/-- The access of a lane that has no fault. -/
def localLane (kind : OpKind) (env : Env) (g : Group) (l : LaneId) : LaneOp :=
  { lane := l, ea := addrOf env g env.f.imm.toInt l, data := ((localReq kind env g).data l).1, poi := ((localReq kind env g).data l).2,
    pa := (addrOf env g env.f.imm.toInt l).toNat }

/-- The kinds of LDS, STS, LDB and STB. -/
def OpKind.isLocal (kind : OpKind) : Prop := kind ∈ [OpKind.lds, .sts, .ldb, .stb]

theorem OpKind.isLocal.space {kind : OpKind} (h : kind.isLocal) : (kind.space = .spad ∨ kind.space = .bank) ∧ kind ≠ .bred := by
  have hall : ∀ k ∈ [OpKind.lds, .sts, .ldb, .stb], (k.space = .spad ∨ k.space = .bank) ∧ k ≠ .bred := by decide
  exact hall kind h

section
variable {env : Env} {s : State} {g : Group} {kind : OpKind} {l : LaneId}

theorem Env.ea_of_clean (h : AddrClean env g l) : env.ea g env.f.disp l = (addrOf env g env.f.imm.toInt l, 0) := by
  obtain ⟨ha, hb⟩ := h
  simp [Env.ea, Reg.bad, ha, hb, addrOf, Fields.disp]

/-- The check of a lane keeps its fault, or lets its access go. -/
theorem checkLane_local (hk : kind.isLocal) (h : AddrClean env g l) (c : Chk) : checkLane env g (localReq kind env g) c l =
    match localFault c.s g kind (sizeBytes (bits env.f.md 0 3)) (addrOf env g env.f.imm.toInt l) with
    | some x => c.fail x (addrOf env g env.f.imm.toInt l)
    | none => { c with go := c.go ++ [localLane kind env g l] } := by
  have hea : env.ea g (localReq kind env g).disp l = (addrOf env g env.f.imm.toInt l, 0) := Env.ea_of_clean h
  have hextra : (localReq kind env g).extra l = 0 := rfl
  unfold checkLane
  dsimp only
  rw [hea, hextra]
  dsimp only
  rw [if_neg (by decide)]
  unfold localFault
  by_cases halign : (addrOf env g env.f.imm.toInt l).toNat % sizeBytes (bits env.f.md 0 3) = 0
  · rw [if_neg (by simpa [localReq] using halign), if_neg (not_not.2 halign)]
    obtain ⟨hsp | hsp, hbred⟩ := hk.space
    · rw [show (localReq kind env g).kind.space = .spad from hsp, if_pos hsp]
      dsimp only
      rw [show (localReq kind env g).size = sizeBytes (bits env.f.md 0 3) from rfl]
      split <;> rfl
    · rw [show (localReq kind env g).kind.space = .bank from hsp, if_neg (c := kind.space = .spad) (by rw [hsp]; decide)]
      dsimp only
      rw [show (localReq kind env g).kind = kind from rfl, if_neg hbred,
        show (localReq kind env g).size = sizeBytes (bits env.f.md 0 3) from rfl]
      split <;> rfl
  · rw [if_pos (by simpa [localReq] using halign), if_pos halign]

/-- The fault of a lane with its address. -/
def laneFault (s : State) (kind : OpKind) (env : Env) (g : Group) (l : LaneId) : Option (Nat × Word) :=
  (localFault s g kind (sizeBytes (bits env.f.md 0 3)) (addrOf env g env.f.imm.toInt l)).map fun x => (x, addrOf env g env.f.imm.toInt l)

/-- The lanes of a local access as far as they are checked: the accesses of those without a fault, and the first fault (R99). -/
theorem foldl_checkLane_local (hk : kind.isLocal) (ls : List LaneId) (h : ∀ l ∈ ls, AddrClean env g l) (c : Chk) :
    ls.foldl (checkLane env g (localReq kind env g)) c =
      { c with
        go := c.go ++ (ls.filter fun l => (laneFault c.s kind env g l).isNone).map (localLane kind env g)
        fault := c.fault.or (ls.findSome? (laneFault c.s kind env g)) } := by
  induction ls generalizing c with
  | nil => simp
  | cons l ls ih =>
    obtain ⟨hl, hls⟩ := List.forall_mem_cons.1 h
    rw [List.foldl_cons, checkLane_local hk hl, List.findSome?_cons, List.filter_cons]
    cases hf : localFault c.s g kind (sizeBytes (bits env.f.md 0 3)) (addrOf env g env.f.imm.toInt l) with
    | none =>
      have hlf : laneFault c.s kind env g l = none := by rw [laneFault, hf]; rfl
      dsimp only
      rw [ih hls, hlf]
      simp
    | some x =>
      have hlf : laneFault c.s kind env g l = some (x, addrOf env g env.f.imm.toInt l) := by rw [laneFault, hf]; rfl
      dsimp only
      rw [ih hls, hlf]
      simp [Chk.fail]

end

/-! ### The body (R209) -/

section
variable {env : Env} {s : State} {kind : OpKind}

/-- The operation of a local access, before its lanes are known. -/
def localOp (kind : OpKind) (env : Env) : Op :=
  { id := 0, k := 0, kind, size := sizeBytes (bits env.f.md 0 3), wr := regWrites env.sh env.f }

/-- A state in which what the walker answered to the group is used up. -/
def State.walked (s : State) (k : Nat) : State := if (s.tile (siteOf k)).walks.any fun m => m.k = k then s.endWalks k else s

theorem withWalks_nil (env : Env) (s : State) (body : State → Out) : withWalks env s [] body = body (s.walked env.k) := rfl

theorem localReq_pages (hk : kind.isLocal) (g : Group) (ls : List LaneId) : (localReq kind env g).pages env g ls = [] := by
  unfold MemReq.pages
  rw [show (localReq kind env g).kind = kind from rfl]
  obtain ⟨hsp | hsp, -⟩ := hk.space <;> rw [hsp] <;> rfl

/-- A local access asks for no translation. -/
theorem moveBody_local (hk : kind.isLocal) (env : Env) (s : State) : moveBody kind env s =
    let t := s.walked env.k
    let c := checkLanes env t (localReq kind env (s.grp env.k)) (laneList env.e)
    if kind.space = .spad && c.go.any (fun o => t.rangeHeld (siteOf env.k) (s.grp env.k).team o.pa (sizeBytes (bits env.f.md 0 3)) kind.store)
    then .hold .range else memOut env (localOp kind env) c false := by
  have hall : ∀ k ∈ [OpKind.lds, .sts, .ldb, .stb], decide (k.space = .global) = false ∧ decide (k = .ld) = false ∧ k ≠ .ldc
      ∧ decide (k = .ldc) = false ∧ decide (k = .ldp) = false := by decide
  obtain ⟨hglob, hld, hldc, hldc', hldp⟩ := hall kind hk
  have hpol : bits ({} : Reg).val 16 4 = 0 ∧ ({} : Reg).bad = false ∧ ({} : Reg).val.toNat / 2 ^ 22 = 0 := by decide
  obtain ⟨hscope, hbad, hres⟩ := hpol
  unfold moveBody
  simp only [hglob, hld, hldc', hldp, hscope, hbad, hres, Bool.false_eq_true, if_false, Bool.false_and, Bool.or_false, Bool.false_or, if_neg hldc]
  rw [if_neg (by simp)]
  exact (congrArg (fun vas => withWalks env s vas _) (localReq_pages hk _ _)).trans (withWalks_nil ..)

/-- The end of the walker's answers leaves what a local access looks at. -/
theorem State.walked_keeps (s : State) (k : Nat) : (s.walked k).grp = s.grp ∧ (s.walked k).ops = s.ops
    ∧ laneFault (s.walked k) = laneFault s ∧ (s.walked k).rangeHeld = s.rangeHeld := by
  unfold State.walked
  split
  · refine ⟨rfl, rfl, rfl, ?_⟩
    funext site tk off n wr
    unfold State.rangeHeld State.endWalks State.endWalksAt
    rw [State.tile_modTile]
    split
    next h => rw [h]
    · rfl
  · exact ⟨rfl, rfl, rfl, rfl⟩

/-- Whether the range scoreboard holds the access of a lane (R209, R255). -/
def laneHeld (s : State) (kind : OpKind) (env : Env) (g : Group) (l : LaneId) : Bool :=
  s.rangeHeld (siteOf env.k) g.team (addrOf env g env.f.imm.toInt l).toNat (sizeBytes (bits env.f.md 0 3)) kind.store

/-- The lanes of a local access whose checks have ended. -/
def localChk (kind : OpKind) (env : Env) (s : State) : Chk :=
  { s := s.walked env.k
    go := ((laneList env.e).filter fun l => (laneFault s kind env (s.grp env.k) l).isNone).map (localLane kind env (s.grp env.k))
    fault := (laneList env.e).findSome? (laneFault s kind env (s.grp env.k)) }

theorem moveBody_of_clean (hk : kind.isLocal) (hclean : ∀ l : LaneId, env.e.getLsbD l = true → AddrClean env (s.grp env.k) l)
    (hfree : kind.space = .spad → ∀ l : LaneId, env.e.getLsbD l = true → laneHeld s kind env (s.grp env.k) l = false) :
    moveBody kind env s = memOut env (localOp kind env) (localChk kind env s) false := by
  obtain ⟨hgrp, -, hfault, hrange⟩ := s.walked_keeps env.k
  have hc : checkLanes env (s.walked env.k) (localReq kind env (s.grp env.k)) (laneList env.e) = localChk kind env s := by
    unfold checkLanes
    rw [hgrp, foldl_checkLane_local hk _ (fun l hl => hclean l ((mem_laneList _ l).1 hl)), hfault]
    rfl
  rw [moveBody_local hk]
  dsimp only
  rw [hc, hrange]
  refine if_neg fun h => ?_
  rw [Bool.and_eq_true, decide_eq_true_iff, List.any_eq_true] at h
  obtain ⟨hsp, o, ho, hheld⟩ := h
  obtain ⟨l, hl, rfl⟩ := List.mem_map.1 ho
  have hfree' := hfree hsp l ((mem_laneList _ l).1 (List.mem_filter.1 hl).1)
  exact absurd hheld (by rw [Bool.not_eq_true]; exact hfree')

/-- The operation of a local access with the lanes whose checks have passed. -/
def localOpOf (kind : OpKind) (env : Env) (s : State) (part team : Nat) : Op :=
  { localOp kind env with lanes := (localChk kind env s).go, part, team }

/-- Without a fault the operation starts. -/
theorem memOut_local_start (h : (localChk kind env s).fault = none) :
    ∃ part team, memOut env (localOp kind env) (localChk kind env s) false = .start ((s.walked env.k).consume env.k 0) (localOpOf kind env s part team) := by
  have hbad : (localChk kind env s).bad = [] := rfl
  unfold memOut
  simp only [h, hbad, List.bind_eq_flatMap, List.flatMap_nil, List.map_nil, ite_self, List.append_nil]
  exact ⟨_, _, rfl⟩

/-- A fault traps behind the operation of the lanes done so far (R99). -/
theorem memOut_local_trap {cause : Nat} {a : Word} (h : (localChk kind env s).fault = some (cause, a)) :
    ∃ done env' op, env'.k = env.k ∧ memOut env (localOp kind env) (localChk kind env s) false
      = .trap cause a done (((s.walked env.k).consume env.k 0).launch env' op) := by
  unfold memOut
  dsimp only
  rw [h]
  exact ⟨_, { env with f := { env.f with sbsV := false } }, _, rfl, rfl⟩

end

/-! ### The bytes of a store (R199, R204) -/

theorem leBytes_eq_map (n x : Nat) : leBytes n x = (List.range n).map fun j => BitVec.ofNat 8 (x / 2 ^ (8 * j) % 2 ^ 8) := by
  induction n generalizing x with
  | zero => rfl
  | succ n ih =>
    rw [leBytes, ih, List.range_succ_eq_map, List.map_cons, List.map_map]
    refine congrArg₂ List.cons ?_ (List.map_congr_left fun j _ => ?_)
    · exact BitVec.eq_of_toNat_eq (by simp)
    · rw [Function.comp, Nat.div_div_eq_div_mul, Nat.mul_succ, pow_add, Nat.mul_comm]
      rfl

/-- The registers of a store hold its bytes, for each size code of R204. -/
theorem store_bytes (g : Group) (r : Nat) (l : LaneId) {sz : Nat} (h : sz ≤ 5) :
    (List.range (sizeRegs sz)).flatMap (fun i => (regBytes (g.rdV (r + i) l) (min 8 (sizeBytes sz))).1) = vBytes g r (sizeBytes sz) l := by
  simp only [regBytes, leBytes_eq_map, vBytes, elem]
  interval_cases sz <;> rfl

section
variable {maj : BitVec 7} {f : Fields} {s : State} {k : Nat} {env : Env} {sync : Bool}

/-- A local move that issues has a size code of R204. -/
theorem localMove_size (hm : maj = 0x61 ∨ maj = 0x62) (h : begin maj f s k = .go env sync) : bits f.md 0 3 ≤ 5 := by
  have hok := Shape.ok_of_fieldsOk (begin_fieldsOk h)
  have hsh := (begin_select h).2.1
  have hbits : (f.md.extractLsb' 0 3).toNat = bits f.md 0 3 := rfl
  rcases hm with rfl | rfl
  · have hmem : shapeMem 0x61 f = some env.sh := hsh
    unfold shapeMem at hmem
    dsimp only at hmem
    rw [if_pos (by decide)] at hmem
    split at hmem
    · cases hmem
    · rw [← Option.some.inj hmem, hbits] at hok
      simp only [Bool.and_eq_true, decide_eq_true_eq] at hok
      exact hok.1.1
  · have hmem : shapeMem 0x62 f = some env.sh := hsh
    unfold shapeMem at hmem
    dsimp only at hmem
    rw [if_neg (by decide), if_pos rfl] at hmem
    split at hmem
    · cases hmem
    · rw [← Option.some.inj hmem, hbits] at hok
      simp only [Bool.and_eq_true, decide_eq_true_eq] at hok
      exact hok.1.1.trans (by decide)

end

/-! ### Issue (R99, R205) -/

/-- The check of a local access: aligned, and in the window or in bank memory (R186, R187, R205). -/
theorem local_iff {s : State} {k : Nat} {kind : OpKind} (hk : kind.isLocal) {a : Word} {size : Nat} :
    Local s k kind.space a size size size kind.store ↔ localFault s (s.grp k) kind size a = none
      ∧ (kind.space = .spad → s.rangeHeld (siteOf k) (s.grp k).team a.toNat size kind.store = false) := by
  unfold Local localFault
  rw [Nat.dvd_iff_mod_eq_zero]
  obtain ⟨hsp | hsp, -⟩ := hk.space <;> rw [hsp] <;> split_ifs <;> simp_all

theorem localFault_of_aligned {s : State} {g : Group} {kind : OpKind} {size : Nat} {a : Word} (hal : size ∣ a.toNat)
    (h : localFault s g kind size a ≠ none) : localFault s g kind size a = some (if kind.space = .spad then causeSpad else causeBank) := by
  unfold localFault at h ⊢
  rw [if_neg (not_not.2 (Nat.mod_eq_zero_of_dvd hal))] at h ⊢
  split_ifs at h ⊢
  · rfl
  · exact absurd rfl h
  · rfl
  · exact absurd rfl h

section
variable {i : Fields → Instr} {maj : BitVec 7} {kind : OpKind} {f : Fields} {s : State} {env : Env}

theorem localReq_data {g : Group} {l : LaneId} (h : kind.store = true) : ((localReq kind env g).data l).1
    = (List.range (sizeRegs (bits env.f.md 0 3))).flatMap fun j =>
        (regBytes (g.rdV (env.f.d.toNat + j) l) (min 8 (sizeBytes (bits env.f.md 0 3)))).1 := by
  simp [localReq, h, List.flatMap_map]

/-- A local move whose lanes all pass enters flight with an access for each. -/
theorem localMove_starts (hr : Runs i i maj (moveBody kind)) (hm : maj = 0x61 ∨ maj = 0x62) (hk : kind.isLocal) (hiss : Issues (i f) s env)
    (hok : ∀ l : LaneId, env.e.getLsbD l = true → AddrClean env ((turn s).grp env.k) l
      ∧ Local (turn s) env.k kind.space (addrOf env ((turn s).grp env.k) f.imm.toInt l) (sizeBytes (bits f.md 0 3))
        (sizeBytes (bits f.md 0 3)) (sizeBytes (bits f.md 0 3)) kind.store) :
    Starts (i f) s env kind (laneList env.e) (fun o => o.size = sizeBytes (bits f.md 0 3)) fun l x =>
      x.ea = addrOf env ((turn s).grp env.k) f.imm.toInt l ∧ x.pa = (addrOf env ((turn s).grp env.k) f.imm.toInt l).toNat
        ∧ x.phase = .waiting ∧ (kind.store = true → x.data = vBytes ((turn s).grp env.k) f.d.toNat (sizeBytes (bits f.md 0 3)) l) := by
  have hi : i ∈ [i, i] := List.mem_cons_self
  obtain ⟨-, rfl⟩ := hr.env_eq hi hiss
  have hnone (l : LaneId) (hl : env.e.getLsbD l = true) : laneFault (turn s) kind env ((turn s).grp env.k) l = none := by
    rw [laneFault, ((local_iff hk).1 (hok l hl).2).1]
    rfl
  have hfault : (localChk kind env (turn s)).fault = none :=
    List.findSome?_eq_none_iff.2 fun l hl => hnone l ((mem_laneList _ l).1 hl)
  have hgo : (localChk kind env (turn s)).go = (laneList env.e).map (localLane kind env ((turn s).grp env.k)) := by
    refine congrArg (List.map _) (List.filter_eq_self.2 fun l hl => ?_)
    rw [hnone l ((mem_laneList _ l).1 hl)]
    rfl
  have hbody := moveBody_of_clean (s := turn s) hk (fun l hl => (hok l hl).1)
    fun hsp l hl => ((local_iff hk).1 (hok l hl).2).2 hsp
  obtain ⟨part, team, hmem⟩ := memOut_local_start hfault
  obtain ⟨hgrp, hops, -, -⟩ := (turn s).walked_keeps env.k
  refine hr.starts hi hiss (hbody.trans hmem) (by rw [consume_grp, hgrp]) (by rw [consume_ops, hops]; rfl) ?_ rfl (fun o ho _ => ho) ?_
  · show (localChk kind env (turn s)).go.map _ = _
    rw [hgo, List.map_map]
    rfl
  · intro n l x hl hx
    have hx' : ((laneList env.e).map (localLane kind env ((turn s).grp env.k)))[n]? = some x := by rw [← hgo]; exact hx
    rw [List.getElem?_map, hl] at hx'
    obtain rfl := Option.some.inj hx'
    refine ⟨rfl, rfl, rfl, fun hst => ?_⟩
    exact (localReq_data hst).trans (store_bytes _ _ l (localMove_size hm (hr.go hi hiss)))

/-- The lowest lane that is misaligned or outside traps. -/
theorem localMove_traps (hr : Runs i i maj (moveBody kind)) (hk : kind.isLocal) (hiss : Issues (i f) s env)
    (hclean : ∀ l : LaneId, env.e.getLsbD l = true → AddrClean env ((turn s).grp env.k) l
      ∧ (turn s).rangeHeld (siteOf env.k) ((turn s).grp env.k).team (addrOf env ((turn s).grp env.k) f.imm.toInt l).toNat
        (sizeBytes (bits f.md 0 3)) kind.store = false)
    {l : LaneId} (hl : env.e.getLsbD l = true) {cause : Nat}
    (hf : localFault (turn s) ((turn s).grp env.k) kind (sizeBytes (bits f.md 0 3)) (addrOf env ((turn s).grp env.k) f.imm.toInt l) = some cause)
    (hlow : ∀ m : LaneId, env.e.getLsbD m = true → m < l → Local (turn s) env.k kind.space
      (addrOf env ((turn s).grp env.k) f.imm.toInt m) (sizeBytes (bits f.md 0 3)) (sizeBytes (bits f.md 0 3)) (sizeBytes (bits f.md 0 3))
      kind.store) : Traps (i f) s env.k cause (addrOf env ((turn s).grp env.k) f.imm.toInt l) := by
  have hi : i ∈ [i, i] := List.mem_cons_self
  obtain ⟨-, rfl⟩ := hr.env_eq hi hiss
  have hfault : (localChk kind env (turn s)).fault = some (cause, addrOf env ((turn s).grp env.k) env.f.imm.toInt l) := by
    refine findSome_laneList hl (by rw [laneFault, hf]; rfl) fun m hm hlt => ?_
    rw [laneFault, ((local_iff hk).1 (hlow m hm hlt)).1]
    rfl
  have hbody := moveBody_of_clean (s := turn s) hk (fun l hl => (hclean l hl).1) fun _ l hl => (hclean l hl).2
  obtain ⟨done, env', op, henv, hmem⟩ := memOut_local_trap hfault
  obtain ⟨hgrp, -, -, -⟩ := (turn s).walked_keeps env.k
  refine hr.trap hi hiss (hbody.trans hmem) ?_
  have hlaunch := State.launch_sameTrap (((turn s).walked env.k).consume env.k 0) env' op
  rwa [henv, consume_grp, hgrp] at hlaunch

/-- What a local move does with its lanes: it starts, or the lowest lane with a fault traps. -/
theorem localMove_issues (hr : Runs i i maj (moveBody kind)) (hm : maj = 0x61 ∨ maj = 0x62) (hk : kind.isLocal) {sp : Space} {wr : Bool} {cause : Nat}
    (hsp : kind.space = sp) (hwr : kind.store = wr) (hcause : cause = if kind.space = .spad then causeSpad else causeBank)
    (hiss : Issues (i f) s env) :
    let g := (turn s).grp env.k
    let size := 2 ^ bits f.md 0 3
    let a := addrOf env g f.imm.toInt
    let ok (l : LaneId) : Prop := AddrClean env g l ∧ Local (turn s) env.k sp (a l) size size size wr
    ((∀ l : LaneId, env.e.getLsbD l = true → ok l) → Starts (i f) s env kind (laneList env.e) (fun o => o.size = size) fun l x =>
        x.ea = a l ∧ x.pa = (a l).toNat ∧ x.phase = .waiting ∧ (wr = true → x.data = vBytes g f.d.toNat size l))
      ∧ ∀ l : LaneId, env.e.getLsbD l = true → (∀ m : LaneId, env.e.getLsbD m = true → m < l → ok m) →
          (∀ m : LaneId, env.e.getLsbD m = true → AddrClean env g m ∧ (turn s).rangeHeld (siteOf env.k) g.team (a m).toNat size wr = false) →
            (¬size ∣ (a l).toNat → Traps (i f) s env.k 0x0B (a l))
            ∧ (size ∣ (a l).toNat → ¬ok l → Traps (i f) s env.k cause (a l)) := by
  subst hsp hwr
  refine ⟨fun hok => localMove_starts hr hm hk hiss hok, fun l hl hlow hclean => ⟨fun hal => ?_, fun hal hno => ?_⟩⟩
  · exact localMove_traps hr hk hiss hclean hl (if_pos fun h => hal (Nat.dvd_of_mod_eq_zero h)) fun m hm hlt => (hlow m hm hlt).2
  · refine localMove_traps hr hk hiss hclean hl ?_ fun m hm hlt => (hlow m hm hlt).2
    have hfault : localFault (turn s) ((turn s).grp env.k) kind (sizeBytes (bits f.md 0 3))
        (addrOf env ((turn s).grp env.k) f.imm.toInt l) ≠ none := fun h =>
      hno ⟨(hclean l hl).1, (local_iff hk).2 ⟨h, fun _ => (hclean l hl).2⟩⟩
    rw [hcause]
    exact localFault_of_aligned hal hfault

end

/-- Settles O23: the lanes' checks leave every access, or the first fault. -/
theorem localMovesIssue : Obligations.LocalMovesIssue := by
  intro e he
  simp only [List.mem_cons, List.not_mem_nil, or_false] at he
  rcases he with rfl | rfl | rfl | rfl
  · exact fun f s env h _ => localMove_issues (maj := 0x61) (i := .lds) {} (.inl rfl) (by simp [OpKind.isLocal]) rfl rfl rfl h
  · exact fun f s env h _ => localMove_issues (maj := 0x61) (i := .sts) {} (.inl rfl) (by simp [OpKind.isLocal]) rfl rfl rfl h
  · exact fun f s env h _ => localMove_issues (maj := 0x62) (i := .ldb) {} (.inr rfl) (by simp [OpKind.isLocal]) rfl rfl rfl h
  · exact fun f s env h _ => localMove_issues (maj := 0x62) (i := .stb) {} (.inr rfl) (by simp [OpKind.isLocal]) rfl rfl rfl h

end Sys2Proof.Machine
end

section
/-!
SUPPORT. The home agent looks at neither tiles nor groups (R195, R198, R356): a read there gives the same answer whatever stands in
them, and leaves them as they were; a write leaves the groups.
-/

namespace Sys2Proof.Machine

/-! ### Reads at the home -/

/-- A state with other tiles and groups. -/
def State.over (s : State) (T : SMap Tile) (G : SMap Group) : State := { s with tiles := T, groups := G }

theorem State.over_self (s : State) : s.over s.tiles s.groups = s := rfl

/-- A change of a state that neither looks at the tiles and groups nor changes them. -/
def Apart (F : State → State) : Prop := ∀ s T G, F (s.over T G) = (F s).over T G

theorem Apart.groups {F : State → State} (h : Apart F) (s : State) : (F s).groups = s.groups := by
  conv_lhs => rw [← s.over_self, h]
  rfl

theorem Apart.comp {F H : State → State} (hF : Apart F) (hH : Apart H) : Apart fun s => H (F s) := fun s T G => by
  dsimp only
  rw [hF, hH]

theorem Apart.ite {c : State → Prop} [∀ s, Decidable (c s)] {F H : State → State} (hc : ∀ s T G, c (s.over T G) ↔ c s) (hF : Apart F)
    (hH : Apart H) : Apart fun s => if c s then F s else H s := fun s T G => by
  dsimp only
  by_cases h : c s
  · rw [if_pos h, if_pos ((hc s T G).2 h), hF]
  · rw [if_neg h, if_neg fun h' => h ((hc s T G).1 h'), hH]

theorem Apart.foldl {α : Type} {f : State → α → State} (h : ∀ a, Apart fun s => f s a) (l : List α) : Apart fun s => l.foldl f s := by
  induction l with
  | nil => exact fun _ _ _ => rfl
  | cons a l ih => exact (h a).comp ih

theorem Apart.id : Apart fun s => s := fun _ _ _ => rfl

theorem State.ctxCount_apart (c : Nat) (i : Fin 8) (n : Nat) : Apart fun s => s.ctxCount c i n := by
  unfold State.ctxCount
  exact Apart.ite (fun _ _ _ => Iff.rfl) Apart.id fun _ _ _ => rfl

theorem State.eccCount_apart (c n1 n2 : Nat) : Apart fun s => s.eccCount c n1 n2 :=
  (State.ctxCount_apart c 0 n1).comp (State.ctxCount_apart c 1 n2)

theorem State.eccMeet_apart (c : Nat) (x : Store) (w : Nat) : Apart fun s => s.eccMeet c x w := by
  intro s T G
  unfold State.eccMeet
  dsimp only
  rw [show (s.over T G).ecc = s.ecc from rfl]
  split
  · rfl
  · exact State.ctxCount_apart c 0 1 { s with ecc := smSet 0 s.ecc (2 ^ 60 * x.num + w) 0 } T G
  · have hset (u : State) : (u.over T G).setStore x ((u.over T G).bytesOf x) (smSet false ((u.over T G).poiOf x) w true)
        = (u.setStore x (u.bytesOf x) (smSet false (u.poiOf x) w true)).over T G := by cases x <;> rfl
    refine Eq.trans ?_ (State.ctxCount_apart c 1 1 _ T G)
    exact congrArg (fun u : State => u.ctxCount c 1 1) (hset { s with ecc := smSet 0 s.ecc (2 ^ 60 * x.num + w) 0 })

/-- The words of a mask, by number. -/
def maskWords (e : BitVec 32) : List Nat := (List.range 32).filter fun i => e.getLsbD i

/-- The words of an L2 line whose errors are met (R198). -/
def State.l2Met (s : State) (ln : Nat) (m : BitVec 32) : State :=
  let x := smGet {} s.l2 ln
  { s with
    l2 := smSet {} s.l2 ln { x with err1 := x.err1 &&& ~~~m, err2 := x.err2 &&& ~~~m }
    mpoi := (maskWords (x.err2 &&& m)).foldl (fun p i => smSet false p (32 * ln + i) true) s.mpoi }

theorem State.l2Meet_eq (s : State) (c ln : Nat) (m : BitVec 32) : s.l2Meet c ln m =
    if (smGet {} s.l2 ln).err1 &&& m = 0 && (smGet {} s.l2 ln).err2 &&& m = 0 then s
    else (s.l2Met ln m).eccCount c (maskWords ((smGet {} s.l2 ln).err1 &&& m)).length (maskWords ((smGet {} s.l2 ln).err2 &&& m)).length := rfl

theorem State.l2Meet_apart (c ln : Nat) (m : BitVec 32) : Apart fun s => s.l2Meet c ln m := by
  simp only [State.l2Meet_eq]
  exact Apart.ite (fun _ _ _ => Iff.rfl) Apart.id fun s T G => State.eccCount_apart c _ _ (s.l2Met ln m) T G

theorem State.l2Clean_apart (c ln : Nat) : Apart fun s => s.l2Clean c ln := by
  unfold State.l2Clean
  refine Apart.ite (fun _ _ _ => Iff.rfl) Apart.id fun s T G => ?_
  have hmeet := State.l2Meet_apart c ln (sectorWords (smGet {} s.l2 ln).dirty) s T G
  dsimp only at hmeet ⊢
  rw [show (s.over T G).l2 = s.l2 from rfl, hmeet]
  rfl

theorem State.l2Make_apart (c ln : Nat) : Apart fun s => s.l2Make c ln := by
  unfold State.l2Make
  refine Apart.ite (fun _ _ _ => Iff.rfl) Apart.id fun s T G => ?_
  dsimp only
  rw [show (s.over T G).l2Set ln = s.l2Set ln from rfl]
  split
  next v _ =>
    have hclean := State.l2Clean_apart c v s T G
    dsimp only at hclean
    rw [hclean]
    rfl
  · rfl

theorem State.l2Fetch_apart (c pa n : Nat) (wr : Bool) : Apart fun s => s.l2Fetch c pa n wr := by
  intro s T G
  exact Apart.foldl (fun i => State.eccMeet_apart c .hbm (pa / 256 * 32 + i)) _ s T G

theorem State.l2Touch_apart (c pa n cls : Nat) (wr : Bool) : Apart fun s => s.l2Touch c pa n cls wr := by
  unfold State.l2Touch
  refine Apart.ite (fun _ _ _ => Iff.rfl) Apart.id fun s T G => ?_
  have hmeet (m : BitVec 32) := (State.l2Make_apart c (pa / 256)).comp (State.l2Meet_apart c (pa / 256) m) s T G
  dsimp only at hmeet ⊢
  rw [hmeet]
  rfl

/-- The words of a store that are read (R198). -/
theorem wordsMet_apart (c : Nat) (x : Store) (a n : Nat) : Apart fun s => (wordsOf a n).foldl (fun s w => s.eccMeet c x w) s :=
  Apart.foldl (State.eccMeet_apart c x) _

/-- A read at the home answers the same whatever the tiles and groups are, and keeps them. -/
theorem State.homeRd_over (s : State) (T : SMap Tile) (G : SMap Group) (tag c pa n cls : Nat) :
    (s.over T G).homeRd tag c pa n cls = ((s.homeRd tag c pa n cls).1.over T G, (s.homeRd tag c pa n cls).2) := by
  have hl2 := (State.l2Fetch_apart c pa n false).comp (State.l2Touch_apart c pa n cls false) s T G
  have hst := wordsMet_apart c .hbm pa n s T G
  dsimp only at hl2 hst
  unfold State.homeRd State.rdStore
  rw [show (s.over T G).owns tag pa = s.owns tag pa from rfl, show (s.over T G).hasL2 (pa / 2 ^ 32) = s.hasL2 (pa / 2 ^ 32) from rfl]
  dsimp only
  rw [hl2, hst]
  split
  · split <;> rfl
  · rfl

end Sys2Proof.Machine
end

section
/-!
SUPPORT. A write at the home leaves its bytes in memory, and groups as they were (R195, R208, R356).
-/

namespace Sys2Proof.Machine

/-! ### Writes at the home -/

/-- A state with the groups and the memory of another. -/
def SameHome (s t : State) : Prop := t.groups = s.groups ∧ t.mem = s.mem

theorem SameHome.refl (s : State) : SameHome s s := ⟨rfl, rfl⟩

theorem SameHome.trans {s t u : State} (h : SameHome s t) (h' : SameHome t u) : SameHome s u := ⟨h'.1.trans h.1, h'.2.trans h.2⟩

/-- A fold of steps that keep groups and memory keeps them. -/
theorem SameHome.foldl {α : Type} {f : State → α → State} (h : ∀ s a, SameHome s (f s a)) (l : List α) (s : State) : SameHome s (l.foldl f s) :=
  ⟨foldl_unchanged State.groups (fun s a => (h s a).1) l s, foldl_unchanged State.mem (fun s a => (h s a).2) l s⟩

theorem State.hostInval_sameHome (s : State) (pas : List Nat) : SameHome s (s.hostInval pas) := by
  refine SameHome.foldl (fun s ln => ?_) _ s
  split <;> exact ⟨rfl, rfl⟩

theorem State.runTouch_sameHome (s : State) (c cls : Nat) (r : List WByte) : SameHome s (s.runTouch c cls r) := by
  cases r with
  | nil => exact .refl s
  | cons b bs =>
    have htouch := (State.l2Fetch_apart c b.1 (b :: bs).length true).comp (State.l2Touch_apart c b.1 (b :: bs).length cls true)
    exact ⟨htouch.groups s, (State.l2Touch_mem ..).trans (State.l2Fetch_mem ..)⟩

theorem State.noteLines_sameHome (s : State) (lns : List Nat) : SameHome s (s.noteLines lns) := by
  unfold State.noteLines
  split
  · exact .refl s
  · refine SameHome.foldl (fun s ln => ?_) _ s
    split
    · exact .refl s
    · split <;> exact ⟨rfl, rfl⟩

/-- The words that a write does not fill are met first (R198). -/
theorem State.eccMeet_sameHome (s : State) (c : Nat) (x : Store) (w : Nat) : SameHome s (s.eccMeet c x w) :=
  ⟨(State.eccMeet_apart c x w).groups s, State.eccMeet_mem ..⟩

/-- Memory with bytes written. -/
def memPut (m : Memory) (bs : List WByte) : Memory := bs.foldl (fun m b => memSet m b.1 b.2.1) m

theorem State.putBytes_home {s t : State} (h : SameHome s t) (bs : List WByte) :
    (t.putBytes .hbm bs).groups = s.groups ∧ (t.putBytes .hbm bs).mem = memPut s.mem bs := by
  obtain ⟨hg, hm⟩ := h
  exact ⟨hg, congrArg (memPut · bs) hm⟩

theorem State.wrStore_home (s : State) (c : Nat) (bs : List WByte) :
    (s.wrStore c .hbm bs).groups = s.groups ∧ (s.wrStore c .hbm bs).mem = memPut s.mem bs := by
  refine State.putBytes_home (SameHome.foldl (fun s w => ?_) _ s) bs
  split
  · exact ⟨rfl, rfl⟩
  · exact s.eccMeet_sameHome ..

theorem State.chanWr_home (s : State) (c : Nat) (bs : List WByte) (cls : Nat) :
    (s.chanWr c bs cls).groups = s.groups ∧ (s.chanWr c bs cls).mem = memPut s.mem bs := by
  cases bs with
  | nil => exact ⟨rfl, rfl⟩
  | cons b bs =>
    have hput : ∀ t, t = (if s.hasL2 (b.1 / 2 ^ 32) then ((byteRuns (b :: bs)).foldl (fun s r => s.runTouch c cls r) s).putBytes .hbm (b :: bs)
        else s.wrStore c .hbm (b :: bs)) → t.groups = s.groups ∧ t.mem = memPut s.mem (b :: bs) := by
      rintro _ rfl
      split
      · exact State.putBytes_home (SameHome.foldl (fun s r => s.runTouch_sameHome c cls r) _ s) _
      · exact s.wrStore_home c _
    obtain ⟨hg, hm⟩ := hput _ rfl
    obtain ⟨hg', hm'⟩ := State.noteLines_sameHome _ [b.1 / 64]
    exact ⟨hg'.trans hg, hm'.trans hm⟩

/-- A device write of a partition to a frame that it owns is performed (R356). -/
theorem State.homeWr_of_owns {s : State} {tag a : Nat} (c cls : Nat) {bs : List WByte} (hbs : bs.head?.map Prod.fst = some a)
    (h : s.owns tag a = true) : ∃ t, s.homeWr tag c bs cls = (t, true) ∧ t.groups = s.groups ∧ t.mem = memPut s.mem bs := by
  cases bs with
  | nil => cases hbs
  | cons b bs =>
    obtain rfl := Option.some.inj hbs
    obtain ⟨hg, hm⟩ := (s.hostInval ((b :: bs).map Prod.fst)).chanWr_home c (b :: bs) cls
    obtain ⟨hg', hm'⟩ := s.hostInval_sameHome ((b :: bs).map Prod.fst)
    refine ⟨_, ?_, hg.trans hg', hm.trans (congrArg (memPut · _) hm')⟩
    unfold State.homeWr State.homePut
    dsimp only
    rw [if_pos h]
    rfl

theorem State.orderWr_sameHome (s : State) (p : Nat) (rep : Option Nat) (op : Nat) (who : Option Nat) (c core lane : Nat) (bs : List WByte) :
    SameHome s (s.orderWr p rep op who c core lane bs) := by
  unfold State.orderWr
  split
  · exact .refl s
  · refine SameHome.foldl (fun s r => ?_) _ s
    split <;> exact ⟨rfl, rfl⟩

theorem State.l1Update_sameHome (s : State) (core p : Nat) (o : LaneOp) : SameHome s (s.l1Update core p o) := by
  unfold State.l1Update
  dsimp only
  split <;> exact ⟨rfl, rfl⟩

/-! ### The bytes of a write -/

theorem memGet_memPut_below (m : Memory) (v : List Byte) (ps : List Bool) {a x : Nat} (h : x < a) :
    memGet (memPut m (wbytes a v ps)) x = memGet m x := by
  induction v generalizing m a ps with
  | nil => rfl
  | cons b v ih =>
    refine (ih (memSet m a b) ps.tail (Nat.lt_succ_of_lt h)).trans ?_
    rw [memGet_memSet, if_neg (by omega)]

/-- The bytes stand where they were written. -/
theorem memGet_memPut (m : Memory) (v : List Byte) (ps : List Bool) (a : Nat) {j : Nat} {b : Byte} (h : v[j]? = some b) :
    memGet (memPut m (wbytes a v ps)) (a + j) = b := by
  induction v generalizing m a ps j with
  | nil => cases h
  | cons c v ih =>
    cases j with
    | zero =>
      obtain rfl := Option.some.inj h
      refine (memGet_memPut_below (memSet m a c) v ps.tail (Nat.lt_succ_self a)).trans ?_
      rw [memGet_memSet, if_pos rfl]
    | succ j =>
      have := ih (memSet m a c) ps.tail (a + 1) h
      rwa [Nat.add_assoc, Nat.add_comm 1] at this

/-! ### What a translated access looks at (R191, R333) -/

section
variable (s : State) (T : SMap Tile)

theorem State.cutFrom_over (G : SMap Group) (p d n t : Nat) : (s.over T G).cutFrom p d n t = s.cutFrom p d n t := by
  induction n generalizing t with
  | zero => rfl
  | succ n ih =>
    unfold State.cutFrom
    rw [show (s.over T G).nextLink p t d = s.nextLink p t d from rfl]
    split
    · rfl
    · rw [ih]
      rfl

theorem State.cutBoth_over (G : SMap Group) (p a b : Nat) : (s.over T G).cutBoth p a b = s.cutBoth p a b := by
  unfold State.cutBoth State.cut
  rw [State.cutFrom_over, State.cutFrom_over]
  rfl

theorem State.spillNow_over (G : SMap Group) (k p : Nat) (lo : LaneOp) (x : Xlate) : (s.over T G).spillNow k p lo x = s.spillNow k p lo x := by
  unfold State.spillNow
  rw [show (s.over T G).homeSite ((s.over T G).seqPa p lo.rep lo.pa) = s.homeSite (s.seqPa p lo.rep lo.pa) from rfl, State.cutBoth_over]
  rfl

end

section
variable {s : State} {k : Nat}

theorem State.walked_eq (s : State) (k : Nat) : ∃ T, s.walked k = s.over T s.groups := by
  unfold State.walked
  split
  · exact ⟨_, rfl⟩
  · exact ⟨_, s.over_self.symm⟩

theorem State.walked_tlb (s : State) (k t : Nat) : ((s.walked k).tile t).tlb = (s.tile t).tlb := by
  unfold State.walked
  split
  · unfold State.endWalks State.endWalksAt
    rw [State.tile_modTile]
    split
    next h => rw [h]
    · rfl
  · rfl

theorem Maps.walked {a : Word} {acc : Acc1} {e : TlbEnt} (h : Maps s k a acc e) (j : Nat) : Maps (s.walked j) k a acc e := by
  obtain ⟨ha, hfind, hleaf⟩ := h
  refine ⟨ha, ?_, hleaf⟩
  obtain ⟨T, hT⟩ := s.walked_eq j
  unfold State.tlbFind at hfind ⊢
  rw [State.walked_tlb, hT]
  exact hfind

/-- An access whose page the TLB has does not wait for the walker (R191). -/
theorem Maps.missing {a : Word} {acc : Acc1} {e : TlbEnt} (h : Maps s k a acc e) :
    s.missing k (s.ctx (s.grp k).ctx).part [a.toNat] = [] := by
  obtain ⟨-, hfind, -⟩ := h
  simp [State.missing, State.missingAt, hfind]

theorem withWalks_of_missing {env : Env} {vas : List Nat} {body : State → Out}
    (h : s.missing env.k (s.ctx (s.grp env.k).ctx).part vas = []) : withWalks env s vas body = body (s.walked env.k) := by
  unfold withWalks
  dsimp only
  rw [h]
  rfl

end

end Sys2Proof.Machine
end

section
/-!
PROOF of O18: CALL, CALLX and RET (R97, R120). Each lane of E changes itself alone, so the lanes one after the other leave what each leaves by
itself; a spill is one write at the home, or one store in flight, and a fill one read there.
-/

namespace Sys2Proof.Machine

/-! ### One lane -/

theorem getLsbD_one_shiftLeft_iff (l j : LaneId) : ((1 <<< l.val : LaneMask)).getLsbD j = true ↔ j = l := by
  revert l j
  decide

theorem laneList_one_shiftLeft (l : LaneId) : laneList (1 <<< l.val) = [l] := by
  revert l
  decide

/-- A group in which one lane has changed. -/
def Group.setLane (g : Group) (l : LaneId) (F : Lane → Lane) : Group := g.mapLanes (1 <<< l.val) fun _ x => F x

theorem Group.setLane_lane (g : Group) (l j : LaneId) (F : Lane → Lane) :
    (g.setLane l F).lane[j] = if j = l then F g.lane[j] else g.lane[j] := by
  rw [Group.setLane, Group.mapLanes_lane]
  exact if_congr (getLsbD_one_shiftLeft_iff l j) rfl rfl

/-! ### The lanes one after the other (R99, R120) -/

/-- A lane is done and goes to `t`; of the group only its own lane has changed. -/
def LaneDone (one : State → LaneId → CallRes) (k : Nat) (s : State) (l : LaneId) (F : Lane → Lane) (t : Word) : Prop :=
  ∃ s', one s l = .done s' t ∧ s'.grp k = (s.grp k).setLane l F

section
variable {one : State → LaneId → CallRes} {k : Nat} {g : Group} {F : LaneId → Lane → Lane} {T : LaneId → Word} {s s' : State} {l : LaneId}

/-- What a lane finds of the group after other lanes are done. -/
def Untouched (g h : Group) (l : LaneId) : Prop := (∃ lane, h = { g with lane }) ∧ h.lane[l] = g.lane[l]

theorem callLanes_append_done {ls : List LaneId} {t : Word} (h : one (callLanes one ls s).s l = .done s' t) :
    callLanes one (ls ++ [l]) s = { callLanes one ls s with s := s', done := (callLanes one ls s).done ++ [(l, t)] } := by
  unfold callLanes at h ⊢
  rw [List.foldl_append, List.foldl_cons, List.foldl_nil, h]

theorem callLanes_one_done {t : Word} (h : one s l = .done s' t) : callLanes one [l] s = { s := s', done := [(l, t)] } :=
  callLanes_append_done (ls := []) h

theorem callLanes_one_fault {c : Nat} {a : Word} (h : one s l = .fault s' c a) : callLanes one [l] s = { s := s', fault := some (c, a) } := by
  unfold callLanes
  rw [List.foldl_cons, List.foldl_nil, h]
  rfl

/-- Lanes that are each done leave what each leaves by itself. -/
theorem callLanes_done (ls : List LaneId) (hnd : ls.Nodup) (hs : s.grp k = g)
    (hone : ∀ (u : State) (l : LaneId), l ∈ ls → Untouched g (u.grp k) l → LaneDone one k u l (F l) (T l)) :
    ∃ s', callLanes one ls s = { s := s', done := ls.map fun l => (l, T l) } ∧ (∃ lane, s'.grp k = { g with lane })
      ∧ ∀ j : LaneId, (s'.grp k).lane[j] = if j ∈ ls then F j g.lane[j] else g.lane[j] := by
  induction ls using List.reverseRecOn with
  | nil => exact ⟨s, rfl, ⟨_, hs⟩, fun j => by rw [hs]; rfl⟩
  | append_singleton ls l ih =>
    obtain ⟨hls, -, hdis⟩ := List.nodup_append.1 hnd
    have hl : l ∉ ls := fun h => hdis l h l (List.mem_singleton_self l) rfl
    obtain ⟨u, hu, ⟨lane, hbody⟩, hlane⟩ := ih hls fun u j hj => hone u j (List.mem_append_left _ hj)
    have hul : (u.grp k).lane[l] = g.lane[l] := by rw [hlane, if_neg hl]
    obtain ⟨u', hdone, hgrp⟩ := hone u l (List.mem_append_right _ (List.mem_singleton_self l)) ⟨⟨lane, hbody⟩, hul⟩
    refine ⟨u', ?_, ⟨_, by rw [hgrp, hbody]; rfl⟩, fun j => ?_⟩
    · rw [callLanes_append_done (s' := u') (t := T l) (by rw [hu]; exact hdone), hu, List.map_append]
      rfl
    · rw [hgrp, Group.setLane_lane, hlane]
      by_cases hj : j = l
      · subst hj
        simp [hl]
      · simp [hj]

/-- The target of a lane that is done. -/
theorem find_done {ls : List LaneId} (hl : l ∈ ls) : (ls.map fun l => (l, T l)).find? (fun x => x.1 = l) = some (l, T l) := by
  induction ls with
  | nil => cases hl
  | cons j ls ih =>
    by_cases hj : j = l
    · subst hj
      simp
    · rw [List.map_cons, List.find?_cons_of_neg (by simpa using hj)]
      exact ih ((List.mem_cons.1 hl).resolve_left fun h => hj h.symm)

end

/-! ### The body of a call or a return (R99, R120) -/

section
variable {push : Bool} {one : Env → State → LaneId → CallRes} {env : Env} {s s' : State}

/-- The pages that a call or return may have to walk. -/
def spillPages (env : Env) (g : Group) (push : Bool) : List Nat := (laneList env.e).filterMap fun l => (spillAt g l push).map BitVec.toNat

/-- Where a lane goes: a lane that is done to its target (R99). -/
def callTarget (done : List (LaneId × Word)) (g : Group) (nxt : Word) (l : LaneId) : Word :=
  match done.find? fun x => x.1 = l with
  | some x => x.2
  | none => g.doneTarget nxt l

theorem callTarget_of_mem {ls : List LaneId} {T : LaneId → Word} {g : Group} {nxt : Word} {l : LaneId} (hl : l ∈ ls) :
    callTarget (ls.map fun l => (l, T l)) g nxt l = T l := by
  unfold callTarget
  rw [find_done hl]

theorem callBody_done {done : List (LaneId × Word)}
    (hm : s.missing env.k (s.ctx (s.grp env.k).ctx).part (spillPages env (s.grp env.k) push) = [])
    (hc : callLanes (one env) (laneList env.e) (s.walked env.k) = { s := s', done }) :
    callBody push one env s = .pcs s' (callTarget done (s.grp env.k) env.nxt) := by
  unfold callBody
  dsimp only
  refine (withWalks_of_missing hm).trans ?_
  rw [hc]
  rfl

theorem callBody_fault {c : Nat} {a : Word}
    (hm : s.missing env.k (s.ctx (s.grp env.k).ctx).part (spillPages env (s.grp env.k) push) = [])
    (hc : callLanes (one env) (laneList env.e) (s.walked env.k) = { s := s', fault := some (c, a) }) :
    callBody push one env s = .trap c a (s.grp env.k).donemask s' := by
  unfold callBody
  dsimp only
  refine (withWalks_of_missing hm).trans ?_
  rw [hc]
  rfl

end

/-! ### The end of an issue that moves lanes (R89) -/

section
variable {short long i : Fields → Instr} {maj : BitVec 7} {f : Fields} {s s' : State} {env : Env} {pc : LaneId → Word} {l : LaneId}

/-- The state in which a body that moves lanes completes: its result has no register to wait for. -/
def State.moving (s s' : State) (env : Env) : State := if env.sh.lat = 0 then s' else s'.modGrp env.k fun g => g.pushPend env s.time 0

theorem State.moving_lane (s s' : State) (env : Env) : ((s.moving s' env).grp env.k).lane = (s'.grp env.k).lane := by
  unfold State.moving
  split
  · rfl
  · rw [State.grp_modGrp_same]
    exact Group.raiseSb_lane (s'.grp env.k) env.f.slot

theorem State.moving_mem_ops (s s' : State) (env : Env) : (s.moving s' env).mem = s'.mem ∧ (s.moving s' env).ops = s'.ops := by
  unfold State.moving
  split <;> exact ⟨rfl, rfl⟩

/-- What a body that moves lanes leaves of a lane. -/
structure Moved (s' t : State) (env : Env) (pc : LaneId → Word) : Prop where
  lane : ∀ l : LaneId, (t.grp env.k).lane[l].hw = (s'.grp env.k).lane[l].hw ∧ (t.grp env.k).lane[l].spilled = (s'.grp env.k).lane[l].spilled
    ∧ (t.grp env.k).lane[l].st = (s'.grp env.k).lane[l].st
  pcv : ∀ l : LaneId, env.path.getLsbD l = true → (s'.grp env.k).lane[l].st = .live → (t.grp env.k).lane[l].pcv = pc l
  mem : t.mem = s'.mem
  ops : t.ops = s'.ops

theorem complete_moved (s s' : State) (env : Env) (pc : LaneId → Word) : Moved s' ((s.moving s' env).complete env false pc) env pc := by
  have hlane (l : LaneId) : ((s.moving s' env).grp env.k).lane[l] = (s'.grp env.k).lane[l] := lanes_of_group (State.moving_lane ..) l
  obtain ⟨hmem, hops⟩ := s.moving_mem_ops s' env
  refine ⟨fun l => ?_, fun l hl hst => ?_, hmem, hops⟩
  · obtain ⟨_, _, h⟩ := State.complete_lane (s.moving s' env) env pc l
    rw [h, ← hlane]
    exact ⟨rfl, rfl, rfl⟩
  · exact complete_path_pcv hl (by rw [hlane]; exact hst)

theorem Runs.moved {body : Env → State → Out} (h : Runs short long maj body) (hi : i ∈ [short, long]) (hiss : Issues (i f) s env)
    (hb : body env (turn s) = .pcs s' pc) : Completes (i f) s fun t => Moved s' t env pc := by
  refine ⟨_, h.exec_issue hi hiss, ?_⟩
  rw [hb]
  exact complete_moved (turn s) s' env pc

end

/-! ### Targets (R117, R119) -/

theorem f18_eq_offset18 (f : Fields) : f18 f = offset18 f := by
  unfold f18 offset18
  refine congrArg BitVec.toInt (BitVec.eq_of_toNat_eq ?_)
  have ha := (f.a.extractLsb' 0 6).isLt
  have hb := (f.b.extractLsb' 0 6).isLt
  have hd := (f.d.extractLsb' 0 6).isLt
  rw [BitVec.toNat_append, BitVec.toNat_append, ← Nat.shiftLeft_add_eq_or_of_lt hd, ← Nat.shiftLeft_add_eq_or_of_lt ha, BitVec.toNat_ofNat]
  simp only [bits, Nat.shiftLeft_eq]
  omega

theorem target_eq_wordTarget (env : Env) : env.target (f18 env.f) = wordTarget env (offset18 env.f) := by
  rw [f18_eq_offset18]
  unfold Env.target wordTarget
  rw [BitVec.toNat_ofInt]
  rfl

theorem badTarget_eq_false {t : Word} (halign : 4 ∣ t.toNat) (hlt : t.toNat < 2 ^ 56) : badTarget t = false := by
  simp only [badTarget, Nat.mod_eq_zero_of_dvd halign, Nat.div_eq_of_lt hlt]
  rfl

/-! ### Calls with room (R97, R120) -/

section
variable {env : Env} {s : State} {g : Group} {l : LaneId} {t : Word}

/-- A lane that has pushed its return address. -/
def Lane.push (nxt : Word) (n : BitVec 32) (hw : List Word) (x : Lane) : Lane := { x with hw := nxt :: hw, spilled := n }

theorem pushCall_of_room (h : (s.grp env.k).lane[l].hw.length < 8) : pushCall env s l t = .done
    (s.modGrp env.k fun g => g.setLane l (Lane.push env.nxt (s.grp env.k).lane[l].spilled (s.grp env.k).lane[l].hw)) t :=
  if_pos h

theorem spillPages_eq_nil {push : Bool} (h : ∀ l : LaneId, env.e.getLsbD l = true → spillAt g l push = none) : spillPages env g push = [] := by
  refine List.filterMap_eq_nil_iff.2 fun l hl => ?_
  rw [h l ((mem_laneList _ l).1 hl)]
  rfl

/-- A lane with room in its hardware stack spills nothing (R97). -/
theorem spillAt_of_room (h : g.lane[l].hw.length < 8) : spillAt g l true = none := by
  have hc : (decide (g.lane[l].hw.length < 8) || decide (g.lane[l].spilled.toNat = g.bind.spillCap)) = true := by
    rw [decide_eq_true h, Bool.true_or]
  exact if_pos hc

theorem missing_nil (k p : Nat) : s.missing k p [] = [] := rfl

end

section
variable {short long i : Fields → Instr} {maj : BitVec 7} {one : Env → State → LaneId → CallRes} {push : Bool} {f : Fields} {s : State} {env : Env}
  {F : LaneId → Lane → Lane} {T : LaneId → Word}

/-- A call or return whose lanes are each done, with no page to walk. -/
theorem Runs.call_done (hr : Runs short long maj (callBody push one)) (hi : i ∈ [short, long]) (hiss : Issues (i f) s env)
    (hpages : ∀ l : LaneId, env.e.getLsbD l = true → spillAt ((turn s).grp env.k) l push = none)
    (hone : ∀ (u : State) (l : LaneId), env.e.getLsbD l = true → Untouched ((turn s).grp env.k) (u.grp env.k) l →
      LaneDone (one env) env.k u l (F l) (T l)) :
    Completes (i f) s fun t => ∃ s' pc, Moved s' t env pc ∧ ∀ l : LaneId, env.e.getLsbD l = true →
      (s'.grp env.k).lane[l] = F l ((turn s).grp env.k).lane[l] ∧ pc l = T l := by
  obtain ⟨hgrp, -⟩ := (turn s).walked_keeps env.k
  obtain ⟨s', hc, -, hlane⟩ := callLanes_done (s := (turn s).walked env.k) (laneList env.e) (laneList_pairwise env.e).nodup (congrFun hgrp env.k)
    fun u l hl hu => hone u l ((mem_laneList _ l).1 hl) hu
  have hm : (turn s).missing env.k ((turn s).ctx ((turn s).grp env.k).ctx).part (spillPages env ((turn s).grp env.k) push) = [] := by
    rw [spillPages_eq_nil hpages, missing_nil]
  obtain ⟨t, hexec, ht⟩ := hr.moved hi hiss (callBody_done hm hc)
  refine ⟨t, hexec, s', _, ht, fun l hl => ?_⟩
  have hmem := (mem_laneList _ l).2 hl
  exact ⟨by rw [hlane, if_pos hmem], callTarget_of_mem hmem⟩

/-- Calls push the return address and go to their targets. -/
theorem calls_of_room (hr : Runs short long maj (callBody true one)) (hi : i ∈ [short, long]) (hiss : Issues (i f) s env)
    (hroom : ∀ l : LaneId, env.e.getLsbD l = true → ((turn s).grp env.k).lane[l].hw.length < 8)
    (hone : ∀ (u : State) (l : LaneId), env.e.getLsbD l = true → Untouched ((turn s).grp env.k) (u.grp env.k) l →
      one env u l = pushCall env u l (T l)) :
    Completes (i f) s fun t => (∀ l : LaneId, env.e.getLsbD l = true → (t.grp env.k).lane[l].hw = env.nxt :: ((turn s).grp env.k).lane[l].hw)
      ∧ ∀ l : LaneId, env.e.getLsbD l = true → (t.grp env.k).lane[l].pcv = T l := by
  have hgo := hr.go hi hiss
  obtain ⟨t, hexec, s', pc, ht, hl⟩ := hr.call_done hi hiss (T := T) (F := fun l =>
      Lane.push env.nxt ((turn s).grp env.k).lane[l].spilled ((turn s).grp env.k).lane[l].hw)
    (fun l hl => spillAt_of_room (hroom l hl)) fun u l hl hu => by
      refine ⟨_, (hone u l hl hu).trans (pushCall_of_room (by rw [hu.2]; exact hroom l hl)), ?_⟩
      rw [State.grp_modGrp_same, hu.2]
  refine ⟨t, hexec, fun l he => ?_, fun l he => ?_⟩
  · rw [(ht.lane l).1, (hl l he).1]
    rfl
  · rw [ht.pcv l (begin_e_path hgo he) ?_, (hl l he).2]
    rw [(hl l he).1]
    exact begin_path_live hgo (begin_e_path hgo he)

/-- CALL (R120). -/
theorem call_of_room (hi : i ∈ [Instr.call, .callExt]) (hiss : Issues (i f) s env)
    (hroom : ∀ l : LaneId, env.e.getLsbD l = true → ((turn s).grp env.k).lane[l].hw.length < 8) :
    Completes (i f) s fun t => (∀ l : LaneId, env.e.getLsbD l = true → (t.grp env.k).lane[l].hw = env.nxt :: ((turn s).grp env.k).lane[l].hw)
      ∧ ∀ l : LaneId, env.e.getLsbD l = true → (t.grp env.k).lane[l].pcv = wordTarget env (offset18 f) := by
  have hr : Runs .call .callExt 0x21 (callBody true callOne) := {}
  obtain ⟨-, rfl⟩ := hr.env_eq hi hiss
  rw [← target_eq_wordTarget]
  exact calls_of_room (T := fun _ => env.target (f18 env.f)) hr hi hiss hroom fun _ _ _ _ => rfl

/-- CALLX (R119, R120). -/
theorem callx_of_room (hi : i ∈ [Instr.callx, .callxExt]) (hiss : Issues (i f) s env)
    (hroom : ∀ l : LaneId, env.e.getLsbD l = true → ((turn s).grp env.k).lane[l].hw.length < 8)
    (htgt : ∀ l : LaneId, env.e.getLsbD l = true → let t := (env.srcA ((turn s).grp env.k) l).val + f.imm.signExtend 64
      (env.srcA ((turn s).grp env.k) l).poi = 0 ∧ 4 ∣ t.toNat ∧ t.toNat < 2 ^ 56) :
    Completes (i f) s fun t => (∀ l : LaneId, env.e.getLsbD l = true → (t.grp env.k).lane[l].hw = env.nxt :: ((turn s).grp env.k).lane[l].hw)
      ∧ ∀ l : LaneId, env.e.getLsbD l = true →
        (t.grp env.k).lane[l].pcv = (env.srcA ((turn s).grp env.k) l).val + f.imm.signExtend 64 := by
  have hr : Runs .callx .callxExt 0x21 (callBody true callxOne) := {}
  obtain ⟨-, rfl⟩ := hr.env_eq hi hiss
  refine calls_of_room (T := fun l => (env.srcA ((turn s).grp env.k) l).val + env.f.imm.signExtend 64) hr hi hiss hroom fun u l hl hu => ?_
  obtain ⟨⟨lane, hbody⟩, -⟩ := hu
  obtain ⟨hpoi, halign, hlt⟩ := htgt l hl
  have hsrc : env.srcA (u.grp env.k) l = env.srcA ((turn s).grp env.k) l := by rw [hbody]; rfl
  have hreg : regTarget env (u.grp env.k) l = ((env.srcA ((turn s).grp env.k) l).val + env.f.imm.signExtend 64, false) := by
    have hclean : (env.srcA ((turn s).grp env.k) l).bad = false := by simp [Reg.bad, hpoi]
    unfold regTarget
    dsimp only
    rw [hsrc, hclean]
    rfl
  have hgood : badTarget ((env.srcA ((turn s).grp env.k) l).val + env.f.imm.signExtend 64) = false := badTarget_eq_false halign hlt
  unfold callxOne
  dsimp only
  rw [hreg]
  dsimp only
  rw [hgood]
  rfl

/-- RET from the hardware stack, or at call depth 0 (R97, R120). -/
def Lane.pop (hw : List Word) (x : Lane) : Lane :=
  match hw with
  | _ :: r => { x with hw := r }
  | [] => { x with st := .exited, yld := false }

theorem popRet_done {u : State} {g : Group} {l : LaneId} (hu : (u.grp env.k).lane[l] = g.lane[l])
    (h : (∃ a r, g.lane[l].hw = a :: r ∧ 4 ∣ a.toNat) ∨ g.lane[l].hw = [] ∧ g.lane[l].spilled = 0) :
    LaneDone (popRet env) env.k u l (Lane.pop g.lane[l].hw) (g.lane[l].hw.headD env.nxt) := by
  unfold LaneDone popRet
  dsimp only
  rw [hu]
  obtain ⟨a, r, hw, halign⟩ | ⟨hw, hsp⟩ := h
  · rw [hw]
    refine ⟨u.modGrp env.k fun g => g.setLane l (Lane.pop (a :: r)), ?_, State.grp_modGrp_same ..⟩
    exact if_neg (by simp [Nat.mod_eq_zero_of_dvd halign])
  · rw [hw]
    refine ⟨u.modGrp env.k fun g => g.setLane l (Lane.pop []), ?_, State.grp_modGrp_same ..⟩
    exact if_pos hsp

theorem ret_completes (hi : i ∈ [Instr.ret, .retExt]) (hiss : Issues (i f) s env)
    (hall : ∀ l : LaneId, env.e.getLsbD l = true → (∃ a r, ((turn s).grp env.k).lane[l].hw = a :: r ∧ 4 ∣ a.toNat)
      ∨ ((turn s).grp env.k).lane[l].hw = [] ∧ ((turn s).grp env.k).lane[l].spilled = 0) :
    Completes (i f) s fun t => ∀ l : LaneId, env.e.getLsbD l = true →
      (∀ a r, ((turn s).grp env.k).lane[l].hw = a :: r → (t.grp env.k).lane[l].pcv = a ∧ (t.grp env.k).lane[l].hw = r)
        ∧ (((turn s).grp env.k).lane[l].hw = [] → (t.grp env.k).lane[l].st = .exited) := by
  have hr : Runs .ret .retExt 0x22 (callBody false popRet) := {}
  have hgo := hr.go hi hiss
  have hpages (l : LaneId) (hl : env.e.getLsbD l = true) : spillAt ((turn s).grp env.k) l false = none := by
    obtain ⟨a, r, hw, -⟩ | ⟨hw, hsp⟩ := hall l hl
    · exact if_neg (by rw [hw]; simp)
    · exact if_neg (by rw [hw, hsp]; simp)
  obtain ⟨t, hexec, s', pc, ht, hl⟩ := hr.call_done hi hiss hpages fun u l hl hu => popRet_done hu.2 (hall l hl)
  refine ⟨t, hexec, fun l he => ⟨fun a r hw => ?_, fun hw => ?_⟩⟩
  · obtain ⟨hlane, hpc⟩ := hl l he
    rw [hw] at hlane hpc
    have hlive := begin_path_live hgo (begin_e_path hgo he)
    exact ⟨(ht.pcv l (begin_e_path hgo he) (by rw [hlane]; exact hlive)).trans hpc, by rw [(ht.lane l).1, hlane]; rfl⟩
  · obtain ⟨hlane, -⟩ := hl l he
    rw [hw] at hlane
    rw [(ht.lane l).2.2, hlane]
    rfl

end

end Sys2Proof.Machine
end

section
/-!
PROOF of O18, second part: a full hardware stack spills its oldest entry, an empty one fills from the spill region (R97, R120).
-/

namespace Sys2Proof.Machine

/-! ### No room in the spill region (R97) -/

section
variable {env : Env} {u : State} {l : LaneId} {t : Word}

theorem pushCall_no_room (hlen : (u.grp env.k).lane[l].hw.length = 8)
    (hcap : (u.grp env.k).lane[l].spilled.toNat = (u.grp env.k).bind.spillCap) :
    pushCall env u l t = .fault u causeSpill (spillAddr causePerm (spillEntry (u.grp env.k) l (u.grp env.k).bind.spillCap)) := by
  unfold pushCall
  dsimp only
  rw [if_neg (by omega), if_pos hcap, hcap]

theorem spillAt_no_room {g : Group} (hcap : g.lane[l].spilled.toNat = g.bind.spillCap) : spillAt g l true = none := by
  have hc : (decide (g.lane[l].hw.length < 8) || decide (g.lane[l].spilled.toNat = g.bind.spillCap)) = true := by
    rw [decide_eq_true hcap, Bool.or_true]
  exact if_pos hc

end

theorem spillPages_one {env : Env} {g : Group} {l : LaneId} {push : Bool} (he : env.e = 1 <<< l.val) :
    spillPages env g push = ((spillAt g l push).map BitVec.toNat).toList := by
  unfold spillPages
  rw [he, laneList_one_shiftLeft, List.filterMap_cons, List.filterMap_nil]
  cases (spillAt g l push).map BitVec.toNat <;> rfl

/-- CALL with a full hardware stack and no room in the spill region (R97). -/
theorem call_no_room {f : Fields} {i : Fields → Instr} {s : State} {env : Env} (hi : i ∈ [Instr.call, .callExt]) (hiss : Issues (i f) s env)
    (l : LaneId) (he : env.e = 1 <<< l.val) (hlen : ((turn s).grp env.k).lane[l].hw.length = 8)
    (hcap : ((turn s).grp env.k).lane[l].spilled.toNat = ((turn s).grp env.k).bind.spillCap) :
    Traps (i f) s env.k causeSpill (spillAddr causePerm (spillEntry ((turn s).grp env.k) l ((turn s).grp env.k).bind.spillCap)) := by
  have hr : Runs .call .callExt 0x21 (callBody true callOne) := {}
  have hgrp : ((turn s).walked env.k).grp env.k = (turn s).grp env.k := congrFun ((turn s).walked_keeps env.k).1 env.k
  have hone := pushCall_no_room (env := env) (u := (turn s).walked env.k) (l := l) (t := env.target (f18 env.f))
    (by rw [hgrp]; exact hlen) (by rw [hgrp]; exact hcap)
  rw [hgrp] at hone
  have hlanes := callLanes_one_fault (one := callOne env) hone
  rw [← laneList_one_shiftLeft, ← he] at hlanes
  refine hr.trap hi hiss (callBody_fault ?_ hlanes) (by rw [hgrp]; exact ⟨rfl, rfl⟩)
  rw [spillPages_one he, spillAt_no_room hcap]
  rfl

/-! ### A spill or fill that nothing is in the way of (R97, R191, R206) -/

/-- The 8-byte access of a spill or fill at entry `n` of a lane's spill region, as a TLB entry translates it. -/
def stackLane (g : Group) (l : LaneId) (n : Nat) (e : TlbEnt) : LaneOp := spillLane l (spillEntry g l n) (e.xlate (spillEntry g l n).toNat)

/-- Where a spill or fill of a group is at home. -/
def State.stackHome (s : State) (k : Nat) (lo : LaneOp) : Nat := s.seqPa (s.ctx (s.grp k).ctx).part lo.rep lo.pa

/-- The TLB translates entry `n` of a lane's spill region, the access waits for no other, and L1 holds none of its bytes dirty. -/
structure StackReady (s : State) (k : Nat) (l : LaneId) (n : Nat) (acc : Acc1) (e : TlbEnt) (st : Bool) : Prop where
  maps : Maps s k (spillEntry (s.grp k) l n) acc e
  free : s.spillWaits k (stackLane (s.grp k) l n e) st = false
  clean : (s.l1 (coreOf k) (l1Key (s.ctx (s.grp k).ctx).part (spillEntry (s.grp k) l n).toNat)).dirty
    &&& lineMask ((spillEntry (s.grp k) l n).toNat % 64) 8 = 0

section
variable {s : State} {k : Nat} {l : LaneId} {n : Nat} {acc : Acc1} {e : TlbEnt} {st : Bool}

/-- The walker changes nothing that a spill or fill looks at. -/
theorem StackReady.walked (h : StackReady s k l n acc e st) : StackReady (s.walked k) k l n acc e st := by
  obtain ⟨hmaps, hfree, hclean⟩ := h
  have hmaps' := Maps.walked hmaps k
  obtain ⟨T, hT⟩ := s.walked_eq k
  rw [hT] at hmaps' ⊢
  exact ⟨hmaps', hfree, hclean⟩

theorem StackReady.check (h : StackReady s k l n acc e st) :
    s.globalCheck (siteOf k) (s.ctx (s.grp k).ctx).part (spillEntry (s.grp k) l n) acc
      = (s, .ok (e.xlate (spillEntry (s.grp k) l n).toNat)) := State.globalCheck_of_maps h.maps

theorem StackReady.flush (h : StackReady s k l n acc e st) :
    s.l1Flush (coreOf k) (s.ctx (s.grp k).ctx).part (spillEntry (s.grp k) l n).toNat 8 = s := by
  unfold State.l1Flush
  rw [if_neg]
  simp [h.clean]

end

/-! ### One lane at its spill region (R97, R120) -/

section
variable {env : Env} {s u : State} {l : LaneId} {e : TlbEnt} {t : Word}

/-- A lone lane that is done at an entry of its spill region (R97, R120). -/
theorem Runs.lane_done {short long i : Fields → Instr} {maj : BitVec 7} {one : Env → State → LaneId → CallRes} {push : Bool} {f : Fields}
    (hr : Runs short long maj (callBody push one)) (hi : i ∈ [short, long]) (hiss : Issues (i f) s env) (he : env.e = 1 <<< l.val)
    {a : Word} {acc : Acc1} (hat : spillAt ((turn s).grp env.k) l push = some a) (hmaps : Maps (turn s) env.k a acc e) {v : State} {F : Lane → Lane}
    (hone : one env ((turn s).walked env.k) l = .done (v.modGrp env.k fun g => g.setLane l F) t) (hgroups : v.groups = (turn s).groups)
    (hF : ∀ x, (F x).st = x.st) :
    Completes (i f) s fun t' => (t'.grp env.k).lane[l].pcv = t ∧ (t'.grp env.k).lane[l].hw = (F ((turn s).grp env.k).lane[l]).hw
      ∧ (t'.grp env.k).lane[l].spilled = (F ((turn s).grp env.k).lane[l]).spilled ∧ t'.mem = v.mem ∧ t'.ops = v.ops := by
  have hgo := hr.go hi hiss
  have hpath : env.path.getLsbD l = true := begin_e_path hgo (by rw [he]; exact (getLsbD_one_shiftLeft_iff l l).2 rfl)
  have hlanes := callLanes_one_done (one := one env) hone
  rw [← laneList_one_shiftLeft, ← he] at hlanes
  have hmiss : (turn s).missing env.k ((turn s).ctx ((turn s).grp env.k).ctx).part (spillPages env ((turn s).grp env.k) push) = [] := by
    rw [spillPages_one he, hat]
    exact Maps.missing hmaps
  obtain ⟨t', hexec, ht⟩ := hr.moved hi hiss (callBody_done hmiss hlanes)
  have hvg : v.grp env.k = (turn s).grp env.k := by unfold State.grp; rw [hgroups]
  obtain ⟨hhw, hsp, -⟩ := ht.lane l
  have hpc := ht.pcv l hpath
  rw [State.grp_modGrp_same, Group.setLane_lane, if_pos rfl, hvg] at hhw hsp hpc
  refine ⟨t', hexec, ?_, hhw, hsp, ht.mem, ht.ops⟩
  rw [hpc ((hF _).trans (begin_path_live hgo hpath))]
  exact callTarget_of_mem (ls := [l]) (T := fun _ => t) (List.mem_singleton_self l)

/-! ### Spills (R97, R208) -/

/-- What a spill leaves: with nothing in the way the oldest entry stands at the home, and otherwise its store is in flight. -/
structure Spilled (u v : State) (k p home : Nat) (lo : LaneOp) (x : Xlate) (data : List Byte) : Prop where
  groups : v.groups = u.groups
  mem : u.spillNow k p lo x = true → v.mem = memPut u.mem (wbytes home data [])
  ops : u.spillNow k p lo x = false → ∃ o ∈ v.ops, o.k = k ∧ o.kind = .st ∧ o.size = 8 ∧ o.lanes = [{ lo with data }]

theorem wbytes_head (a n x : Nat) : (wbytes a (leBytes (n + 1) x) []).head?.map Prod.fst = some a := rfl

theorem State.l1Update_owns (s : State) (core p : Nat) (o : LaneOp) (tag a : Nat) : (s.l1Update core p o).owns tag a = s.owns tag a := by
  unfold State.l1Update
  dsimp only
  split <;> rfl

/-- The write of a spill at a home that the partition owns, after the copy in L1 is updated. -/
theorem State.homeWr_l1Update {p a : Nat} (core c : Nat) (o : LaneOp) {bs : List WByte} (hbs : bs.head?.map Prod.fst = some a)
    (h : u.owns p a = true) : ∃ v, (u.l1Update core p o).homeWr p c bs 0 = (v, true) ∧ v.groups = u.groups ∧ v.mem = memPut u.mem bs := by
  obtain ⟨v, hwr, hgroups, hmem⟩ := State.homeWr_of_owns (s := u.l1Update core p o) c 0 hbs ((u.l1Update_owns core p o p a).trans h)
  obtain ⟨hgroups', hmem'⟩ := u.l1Update_sameHome core p o
  exact ⟨v, hwr, hgroups.trans hgroups', by rw [hmem, hmem']⟩

theorem pushCall_spills (hlen : (u.grp env.k).lane[l].hw.length = 8)
    (hcap : (u.grp env.k).lane[l].spilled.toNat ≠ (u.grp env.k).bind.spillCap)
    (h : StackReady u env.k l (u.grp env.k).lane[l].spilled.toNat .store e true)
    {lo : LaneOp} (hlo : lo = stackLane (u.grp env.k) l (u.grp env.k).lane[l].spilled.toNat e)
    {x : Xlate} (hx : x = e.xlate (spillEntry (u.grp env.k) l (u.grp env.k).lane[l].spilled.toNat).toNat)
    (how : u.owns (u.ctx (u.grp env.k).ctx).part (u.stackHome env.k lo) = true ∨ u.spillNow env.k (u.ctx (u.grp env.k).ctx).part lo x = false) :
    ∃ v, pushCall env u l t = .done (v.modGrp env.k fun g =>
          g.setLane l (Lane.push env.nxt ((u.grp env.k).lane[l].spilled + 1) (u.grp env.k).lane[l].hw.dropLast)) t
      ∧ Spilled u v env.k (u.ctx (u.grp env.k).ctx).part (u.stackHome env.k lo) lo x (leBytes 8 ((u.grp env.k).lane[l].hw.getLastD 0).toNat) := by
  have hfree := h.free
  rw [← hlo] at hfree
  unfold pushCall
  dsimp only
  rw [if_neg (by omega), if_neg hcap, h.check]
  dsimp only
  rw [h.flush, ← hx, show spillLane l (spillEntry (u.grp env.k) l (u.grp env.k).lane[l].spilled.toNat) x = lo by rw [hlo, hx]; rfl, hfree]
  cases hnow : u.spillNow env.k (u.ctx (u.grp env.k).ctx).part lo x with
  | true =>
    have howns := how.resolve_right (by rw [hnow]; exact Bool.noConfusion)
    obtain ⟨w, hwr, hgroups, hmem⟩ := State.homeWr_l1Update (coreOf env.k) (u.grp env.k).ctx
      { lo with data := leBytes 8 ((u.grp env.k).lane[l].hw.getLastD 0).toNat }
      (wbytes_head (u.stackHome env.k lo) 7 ((u.grp env.k).lane[l].hw.getLastD 0).toNat) howns
    unfold State.stackHome at hwr
    rw [hwr]
    obtain ⟨hgroups', hmem'⟩ := w.orderWr_sameHome (u.ctx (u.grp env.k).ctx).part lo.rep w.nextId (w.whoOf (u.grp env.k).team env.k)
      (u.grp env.k).ctx (coreOf env.k) l
      (wbytes (u.stackHome env.k lo) (leBytes 8 ((u.grp env.k).lane[l].hw.getLastD 0).toNat) [])
    exact ⟨_, rfl, hgroups'.trans hgroups, fun _ => hmem'.trans hmem, fun h => absurd (hnow.symm.trans h) Bool.noConfusion⟩
  | false =>
    exact ⟨_, rfl, rfl, fun h => absurd (hnow.symm.trans h) Bool.noConfusion,
      fun _ => ⟨_, List.mem_append_right _ (List.mem_singleton_self _), rfl, rfl, rfl, rfl⟩⟩

/-- The same after the walker, which stands apart from all a spill looks at. -/
theorem pushCall_walked_spills (hlen : (s.grp env.k).lane[l].hw.length = 8)
    (hcap : (s.grp env.k).lane[l].spilled.toNat ≠ (s.grp env.k).bind.spillCap)
    (h : StackReady s env.k l (s.grp env.k).lane[l].spilled.toNat .store e true)
    {lo : LaneOp} (hlo : lo = stackLane (s.grp env.k) l (s.grp env.k).lane[l].spilled.toNat e)
    {x : Xlate} (hx : x = e.xlate (spillEntry (s.grp env.k) l (s.grp env.k).lane[l].spilled.toNat).toNat)
    (how : s.owns (s.ctx (s.grp env.k).ctx).part (s.stackHome env.k lo) = true ∨ s.spillNow env.k (s.ctx (s.grp env.k).ctx).part lo x = false) :
    ∃ v, pushCall env (s.walked env.k) l t = .done (v.modGrp env.k fun g =>
          g.setLane l (Lane.push env.nxt ((s.grp env.k).lane[l].spilled + 1) (s.grp env.k).lane[l].hw.dropLast)) t
      ∧ Spilled s v env.k (s.ctx (s.grp env.k).ctx).part (s.stackHome env.k lo) lo x (leBytes 8 ((s.grp env.k).lane[l].hw.getLastD 0).toNat) := by
  have hw := h.walked
  obtain ⟨T, hT⟩ := s.walked_eq env.k
  rw [hT] at hw ⊢
  have hnow := s.spillNow_over T s.groups env.k (s.ctx (s.grp env.k).ctx).part lo x
  obtain ⟨v, hv, hgroups, hmem, hops⟩ := pushCall_spills (u := s.over T s.groups) (env := env) (t := t) hlen hcap hw hlo hx
    (how.imp_right hnow.trans)
  exact ⟨v, hv, hgroups, fun h => hmem (hnow.trans h), fun h => hops (hnow.trans h)⟩

theorem spillAt_full {g : Group} (hlen : g.lane[l].hw.length = 8) (hcap : g.lane[l].spilled.toNat ≠ g.bind.spillCap) :
    spillAt g l true = some (spillEntry g l g.lane[l].spilled.toNat) := by
  have hc : ¬(decide (g.lane[l].hw.length < 8) || decide (g.lane[l].spilled.toNat = g.bind.spillCap)) = true := by
    rw [decide_eq_false (by omega), decide_eq_false hcap]
    exact Bool.false_ne_true
  exact if_neg hc

/-- CALL with a full hardware stack and room in the spill region (R97). -/
theorem call_spills {f : Fields} {i : Fields → Instr} (hi : i ∈ [Instr.call, .callExt]) (hiss : Issues (i f) s env)
    (he : env.e = 1 <<< l.val) (hlen : ((turn s).grp env.k).lane[l].hw.length = 8)
    (hcap : ((turn s).grp env.k).lane[l].spilled.toNat ≠ ((turn s).grp env.k).bind.spillCap)
    (h : StackReady (turn s) env.k l ((turn s).grp env.k).lane[l].spilled.toNat .store e true)
    {lo : LaneOp} (hlo : lo = stackLane ((turn s).grp env.k) l ((turn s).grp env.k).lane[l].spilled.toNat e)
    {x : Xlate} (hx : x = e.xlate (spillEntry ((turn s).grp env.k) l ((turn s).grp env.k).lane[l].spilled.toNat).toNat)
    {p : Nat} (hp : p = ((turn s).ctx ((turn s).grp env.k).ctx).part)
    (how : (turn s).owns p ((turn s).seqPa p lo.rep lo.pa) = true ∨ (turn s).spillNow env.k p lo x = false) :
    Completes (i f) s fun t => (t.grp env.k).lane[l].pcv = wordTarget env (offset18 f)
      ∧ (t.grp env.k).lane[l].hw = env.nxt :: ((turn s).grp env.k).lane[l].hw.dropLast
      ∧ (t.grp env.k).lane[l].spilled = ((turn s).grp env.k).lane[l].spilled + 1
      ∧ ((turn s).spillNow env.k p lo x = true → ∀ j b, (leBytes 8 (((turn s).grp env.k).lane[l].hw.getLastD 0).toNat)[j]? = some b →
          memGet t.mem ((turn s).seqPa p lo.rep lo.pa + j) = b)
      ∧ ((turn s).spillNow env.k p lo x = false → ∃ o ∈ t.ops, o.k = env.k ∧ o.kind = .st ∧ o.size = 8
          ∧ o.lanes = [{ lo with data := leBytes 8 (((turn s).grp env.k).lane[l].hw.getLastD 0).toNat }]) := by
  subst hp
  have hr : Runs .call .callExt 0x21 (callBody true callOne) := {}
  obtain ⟨-, rfl⟩ := hr.env_eq hi hiss
  obtain ⟨v, hv, hgroups, hmem, hops⟩ := pushCall_walked_spills (s := turn s) (env := env) (t := env.target (f18 env.f)) hlen hcap h hlo hx how
  obtain ⟨t, hexec, hpc, hhw, hsp, htmem, htops⟩ := hr.lane_done hi hiss he (spillAt_full hlen hcap) h.maps hv hgroups fun _ => rfl
  refine ⟨t, hexec, by rw [hpc, target_eq_wordTarget], hhw, hsp, fun h j b hj => ?_, fun h => by rw [htops]; exact hops h⟩
  rw [htmem]
  exact (congrArg (memGet · _) (hmem h)).trans (memGet_memPut _ _ _ _ hj)

/-! ### Fills (R97) -/

/-- A lane that has read a return address from its spill region. -/
def Lane.refill (x : Lane) : Lane := { x with spilled := x.spilled - 1 }

theorem popRet_fills (hhw : (u.grp env.k).lane[l].hw = []) (hsp : (u.grp env.k).lane[l].spilled ≠ 0)
    (h : StackReady u env.k l ((u.grp env.k).lane[l].spilled.toNat - 1) .load e false)
    {lo : LaneOp} (hlo : lo = stackLane (u.grp env.k) l ((u.grp env.k).lane[l].spilled.toNat - 1) e) (htgt : lo.tgt = 0)
    (hcut : u.cutBoth (u.ctx (u.grp env.k).ctx).part (siteOf env.k) (u.homeSite (u.stackHome env.k lo)) = false)
    (hfill : (u.grp env.k).lane[l].fill = none) {v : List Byte} {ps : List Bool} {w : State}
    (hrd : u.homeRd (u.ctx (u.grp env.k).ctx).part (u.grp env.k).ctx (u.stackHome env.k lo) 8 0 = (w, some (v, ps))) (hps : ps.any id = false)
    (halign : 4 ∣ leNat v) :
    popRet env u l = .done (w.modGrp env.k fun g => g.setLane l Lane.refill) (BitVec.ofNat 64 (leNat v)) := by
  have hfree := h.free
  rw [← hlo] at hfree
  have halign' : ¬((BitVec.ofNat 64 (leNat v)).toNat % 4 != 0) = true := by
    rw [BitVec.toNat_ofNat, bne_iff_ne]
    omega
  unfold State.stackHome at hcut hrd
  unfold popRet
  dsimp only
  rw [hhw]
  dsimp only
  rw [if_neg hsp, h.check]
  dsimp only
  rw [show spillLane l (spillEntry (u.grp env.k) l ((u.grp env.k).lane[l].spilled.toNat - 1)) (e.xlate _) = lo from hlo.symm, hfree, htgt, hcut,
    hfill, h.flush, hrd]
  simp only [hps]
  exact if_neg halign'

/-- The same after the walker, which stands apart from all a fill looks at. -/
theorem popRet_walked_fills (hhw : (s.grp env.k).lane[l].hw = []) (hsp : (s.grp env.k).lane[l].spilled ≠ 0)
    (h : StackReady s env.k l ((s.grp env.k).lane[l].spilled.toNat - 1) .load e false)
    {lo : LaneOp} (hlo : lo = stackLane (s.grp env.k) l ((s.grp env.k).lane[l].spilled.toNat - 1) e) (htgt : lo.tgt = 0)
    (hcut : s.cutBoth (s.ctx (s.grp env.k).ctx).part (siteOf env.k) (s.homeSite (s.stackHome env.k lo)) = false)
    (hfill : (s.grp env.k).lane[l].fill = none) {v : List Byte} {ps : List Bool}
    (hrd : (s.homeRd (s.ctx (s.grp env.k).ctx).part (s.grp env.k).ctx (s.stackHome env.k lo) 8 0).2 = some (v, ps)) (hps : ps.any id = false)
    (halign : 4 ∣ leNat v) :
    ∃ w : State, popRet env (s.walked env.k) l = .done (w.modGrp env.k fun g => g.setLane l Lane.refill) (BitVec.ofNat 64 (leNat v))
      ∧ w.groups = s.groups := by
  have hw := h.walked
  obtain ⟨T, hT⟩ := s.walked_eq env.k
  rw [hT] at hw ⊢
  have hread := s.homeRd_over T s.groups (s.ctx (s.grp env.k).ctx).part (s.grp env.k).ctx (s.stackHome env.k lo) 8 0
  rw [hrd] at hread
  exact ⟨_, popRet_fills (u := s.over T s.groups) hhw hsp hw hlo htgt ((s.cutBoth_over ..).trans hcut) hfill hread hps halign, rfl⟩

theorem spillAt_empty {g : Group} (hhw : g.lane[l].hw = []) (hsp : g.lane[l].spilled ≠ 0) :
    spillAt g l false = some (spillEntry g l (g.lane[l].spilled.toNat - 1)) := by
  refine if_pos ?_
  rw [hhw, bne_iff_ne.2 hsp]
  rfl

/-- RET with an empty hardware stack and entries in the spill region (R97). -/
theorem ret_fills {f : Fields} {i : Fields → Instr} (hi : i ∈ [Instr.ret, .retExt]) (hiss : Issues (i f) s env)
    (he : env.e = 1 <<< l.val) (hhw : ((turn s).grp env.k).lane[l].hw = []) (hsp : ((turn s).grp env.k).lane[l].spilled ≠ 0)
    (h : StackReady (turn s) env.k l (((turn s).grp env.k).lane[l].spilled.toNat - 1) .load e false)
    {lo : LaneOp} (hlo : lo = stackLane ((turn s).grp env.k) l (((turn s).grp env.k).lane[l].spilled.toNat - 1) e) (htgt : lo.tgt = 0)
    {p : Nat} (hp : p = ((turn s).ctx ((turn s).grp env.k).ctx).part)
    (hcut : (turn s).cutBoth p (siteOf env.k) ((turn s).homeSite ((turn s).seqPa p lo.rep lo.pa)) = false)
    (hfill : ((turn s).grp env.k).lane[l].fill = none) {v : List Byte} {ps : List Bool}
    (hrd : ((turn s).homeRd p ((turn s).grp env.k).ctx ((turn s).seqPa p lo.rep lo.pa) 8 0).2 = some (v, ps)) (hps : ps.any id = false)
    (halign : 4 ∣ leNat v) :
    Completes (i f) s fun t => (t.grp env.k).lane[l].pcv = BitVec.ofNat 64 (leNat v) ∧ (t.grp env.k).lane[l].hw = []
      ∧ (t.grp env.k).lane[l].spilled = ((turn s).grp env.k).lane[l].spilled - 1 := by
  subst hp
  have hr : Runs .ret .retExt 0x22 (callBody false popRet) := {}
  obtain ⟨w, hw, hgroups⟩ := popRet_walked_fills (s := turn s) (env := env) hhw hsp h hlo htgt hcut hfill hrd hps halign
  obtain ⟨t, hexec, hpc, hhw', hsp', -⟩ := hr.lane_done hi hiss he (spillAt_empty hhw hsp) h.maps hw hgroups fun _ => rfl
  exact ⟨t, hexec, hpc, hhw'.trans hhw, hsp'⟩

end

/-- Settles O18. Each lane of E is done by itself, which gives the calls with room and the returns. A lone lane with a full hardware stack traps
where its spill region is full, and otherwise leaves its oldest entry at the home or in flight; with an empty one it reads its entry there. -/
theorem callResults : Obligations.CallResults := by
  unfold Obligations.CallResults
  refine fun f s env _ => ⟨fun i hi hiss hroom => call_of_room hi hiss hroom, fun i hi hiss hroom htgt => callx_of_room hi hiss hroom htgt,
    fun i hi hiss l he hlen hcap => call_no_room hi hiss l he hlen hcap, fun i l e hiss he => ⟨?_, ?_⟩,
    fun i hi hiss hall => ret_completes hi hiss hall⟩
  · rintro (rfl | rfl) <;> rw [if_neg (by simp)] <;> intro hlen hcap hmaps hfree how hclean
    · exact call_spills (i := Instr.call) (by simp) hiss he hlen hcap ⟨hmaps, hfree, hclean⟩ rfl rfl rfl how
    · exact call_spills (i := Instr.callExt) (by simp) hiss he hlen hcap ⟨hmaps, hfree, hclean⟩ rfl rfl rfl how
  · rintro (rfl | rfl) <;> rw [if_pos (by simp)] <;> intro hhw hsp hmaps htgt hfree hcut hfill hclean v ps hrd hps halign
    · exact ret_fills (i := Instr.ret) (by simp) hiss he hhw hsp ⟨hmaps, hfree, hclean⟩ rfl htgt rfl hcut hfill hrd hps halign
    · exact ret_fills (i := Instr.retExt) (by simp) hiss he hhw hsp ⟨hmaps, hfree, hclean⟩ rfl htgt rfl hcut hfill hrd hps halign

end Sys2Proof.Machine
end

section
/-!
RULES that O2, O5 and O6 share: forms whose body depends on their fields, and results of scalar, lane and predicate instructions for any
operation (R107 to R115).
-/

namespace Sys2Proof.Machine

/-! ### Bodies that depend on the fields -/

/-- Bodies that agree on the environment of an issue do the same. -/
theorem issueWith_congr {maj : BitVec 7} {f : Fields} {s : State} {b b' : Env → State → Out} (h : ∀ env u, env.f = f → b env u = b' env u) :
    issueWith maj f s b = issueWith maj f s b' := by
  unfold issueWith
  dsimp only
  split
  · rfl
  · split
    next => rfl
    next => rfl
    next => rfl
    next env sync hgo => rw [h env _ (begin_k hgo).2.1]

/-- A form, short and long, whose body depends on its own fields. -/
theorem runs_of_fields {short long : Fields → Instr} {maj : BitVec 7} (body : Fields → Env → State → Out)
    (shortOp : ∀ f, opOf (short f) = some (maj, f) := by intros; rfl) (longOp : ∀ f, opOf (long f) = some (maj, f) := by intros; rfl)
    (runShort : ∀ f s, exec (short f) s = .next (issueWith maj f s (body f)) := by intros; rfl)
    (runLong : ∀ f s, exec (long f) s = .next (issueWith maj f s (body f)) := by intros; rfl) :
    Runs short long maj fun env => body env.f env := by
  have hown (f : Fields) (s : State) : issueWith maj f s (body f) = issueWith maj f s fun env => body env.f env :=
    issueWith_congr fun env u h => by rw [h]
  exact ⟨shortOp, longOp, fun f s => (runShort f s).trans (congrArg _ (hown f s)), fun f s => (runLong f s).trans (congrArg _ (hown f s))⟩

/-! ### Results -/

section
variable {short long i : Fields → Instr} {maj : BitVec 7} {body : Env → State → Out} {f : Fields} {s : State} {env : Env} {op : IOp}
  {uns : Bool} {g : IArgs → Int}

/-- A body that writes a predicate: each executing lane holds its bit, and the path goes on. -/
theorem Runs.predOut (h : Runs short long maj body) (hi : i ∈ [short, long]) (hiss : Issues (i f) s env) (hpt : NoPoisonTrap s)
    {res : LaneId → Bool × Nat × BitVec 6} (hb : body env (turn s) = Machine.predOut env (turn s) res) {ok : Group → LaneId → Prop}
    {p : Group → LaneId → Bool} (hres : ∀ l : LaneId, ok ((turn s).grp env.k) l → (res l).1 = p ((turn s).grp env.k) l) :
    PredResult (i f) s env ok p := by
  obtain ⟨hadv, hbit⟩ := finish_predOut (res := res) (h.go hi hiss) hpt
  rw [← hb] at hadv hbit
  exact ⟨_, h.exec_issue hi hiss, hadv, fun l hl hok => (hbit l hl).trans (by rw [hres l hok])⟩

/-- A body that writes an integer result to s[D], whose operation narrows to the code of `g`. -/
theorem Runs.scalarResult (h : Runs short long maj body) (hi : i ∈ [short, long]) (hiss : Issues (i f) s env) (hpt : NoPoisonTrap s)
    (hb : body env (turn s) = scalarInt op uns env (turn s))
    (hg : ∀ a b c : Reg, narrow 64 uns env.f.md[2] (op.f (argsAt 64 uns a b c 0)) = narrow 64 uns env.f.md[2] (g (argsAt 64 uns a b c 0))) :
    ScalarResult (i f) s env uns g := by
  obtain ⟨t, hexec, hadv, hreg⟩ := h.scalOut hi hiss hpt hb
  refine ⟨t, hexec, hadv, fun hclean => hreg.trans ?_⟩
  have hd : env.f.d.toNat = 0 ↔ env.f.d = 0 := BitVec.toNat_inj (y := 0)
  simp only [hd, intReg_64_clean hclean, hg]

/-- A body that writes an integer result in each lane, whose operation narrows to the code of `g`. -/
theorem Runs.laneResult (h : Runs short long maj body) (hi : i ∈ [short, long]) (hiss : Issues (i f) s env) (hpt : NoPoisonTrap s)
    (hb : body env (turn s) = laneInt op uns env (turn s))
    (hg : ∀ (a b c : Reg) (j : Nat), narrow (intWidth env.f) uns env.f.md[2] (op.f (argsAt (intWidth env.f) uns a b c j))
      = narrow (intWidth env.f) uns env.f.md[2] (g (argsAt (intWidth env.f) uns a b c j))) :
    LaneResult (i f) s env uns g := by
  obtain ⟨t, hexec, hadv, hreg⟩ := h.vecOut hi hiss hpt hb
  refine ⟨t, hexec, hadv, fun l hl hclean => ?_⟩
  rw [hreg l hl]
  exact ⟨intReg_poi hclean (eight_le_intWidth env.f), fun j hj => (elem_intReg_clean hclean hj).trans (hg ..)⟩

end

/-- The code of a natural number without SAT (R66). -/
theorem narrow_natCast (w : Nat) (uns : Bool) (n : Nat) : narrow w uns false (n : Int) = n % 2 ^ w := by
  show ((n : Int) % 2 ^ w).toNat = n % 2 ^ w
  exact_mod_cast Int.toNat_natCast (n % 2 ^ w)

end Sys2Proof.Machine
end

section
/-!
PROOF of O2: the scalar-only and lane-only integer forms and IDOT4 (R111, R112).
-/

namespace Sys2Proof.Machine

/-! ### SROT and INOT -/

/-- A rotation as a sum: the bits shifted out at the top come in at the bottom. -/
theorem rotate_toNat {a n : Nat} (ha : a < 2 ^ 64) (hn : n < 64) :
    (a * 2 ^ n + a / 2 ^ (64 - n)) % 2 ^ 64 = ((BitVec.ofNat 64 a).rotateLeft n).toNat := by
  have hpow : 2 ^ (64 - n) * 2 ^ n = 2 ^ 64 := by rw [← pow_add]; congr 1; omega
  have hq : a / 2 ^ (64 - n) < 2 ^ n := Nat.div_lt_of_lt_mul (by rwa [hpow])
  have hr : a % 2 ^ (64 - n) < 2 ^ (64 - n) := Nat.mod_lt _ (Nat.two_pow_pos _)
  have hsplit : a * 2 ^ n % 2 ^ 64 = a % 2 ^ (64 - n) * 2 ^ n := by rw [← hpow, Nat.mul_mod_mul_right]
  have hlt : a % 2 ^ (64 - n) * 2 ^ n + a / 2 ^ (64 - n) < 2 ^ 64 := by
    calc a % 2 ^ (64 - n) * 2 ^ n + a / 2 ^ (64 - n) < (a % 2 ^ (64 - n) + 1) * 2 ^ n := by rw [Nat.succ_mul]; omega
      _ ≤ 2 ^ (64 - n) * 2 ^ n := Nat.mul_le_mul_right _ hr
      _ = 2 ^ 64 := hpow
  calc (a * 2 ^ n + a / 2 ^ (64 - n)) % 2 ^ 64 = a % 2 ^ (64 - n) * 2 ^ n + a / 2 ^ (64 - n) := by
        rw [← Nat.mod_add_mod, hsplit, Nat.mod_eq_of_lt hlt]
    _ = (a <<< n) % 2 ^ 64 ||| a >>> (64 - n) := by
        rw [Nat.shiftLeft_eq, hsplit, Nat.shiftRight_eq_div_pow, ← Nat.shiftLeft_eq, Nat.shiftLeft_add_eq_or_of_lt hq]
    _ = ((BitVec.ofNat 64 a).rotateLeft n).toNat := by
        rw [BitVec.toNat_rotateLeft, BitVec.toNat_ofNat, Nat.mod_eq_of_lt ha, Nat.mod_eq_of_lt hn]

theorem narrow_rot (uns : Bool) (a b c : Reg) : narrow 64 uns false (opRot.f (argsAt 64 uns a b c 0))
    = narrow 64 uns false (((BitVec.ofNat 64 (elem a 64 0)).rotateLeft (elem b 64 0 % 64)).toNat : Int) := by
  rw [narrow_natCast, Nat.mod_eq_of_lt (BitVec.isLt _), ← rotate_toNat (elem_lt a 64 0) (Nat.mod_lt _ (by decide))]
  exact narrow_natCast ..

/-- The complement of a code (R112). -/
theorem narrow_not (w : Nat) (uns : Bool) {a : Nat} (ha : a < 2 ^ w) :
    narrow w uns false (-1 - (a : Int)) = narrow w uns false ((2 ^ w - 1 - a : Nat) : Int) := by
  have hcast : ((2 ^ w - 1 - a : Nat) : Int) = -1 - (a : Int) + 2 ^ w := by
    have h1 : ((2 ^ w : Nat) : Int) = 2 ^ w := by norm_cast
    omega
  show ((-1 - (a : Int)) % 2 ^ w).toNat = (((2 ^ w - 1 - a : Nat) : Int) % 2 ^ w).toNat
  rw [hcast, Int.add_emod_right]

/-- The instructions of 0x19 have no SAT (R33). -/
theorem no_sat_of_begin_0x19 {f : Fields} {s : State} {k : Nat} {env : Env} {sync : Bool} (h : begin 0x19 f s k = .go env sync) :
    f.md[2] = false := by
  have hok := Shape.ok_of_fieldsOk (begin_fieldsOk h)
  have hsh := (begin_select h).2.1
  generalize env.sh = sh at hok hsh
  have hshape : shape 0x19 f = if f.fn = 3 then none else
      some { d := oVw 1, a := oVr 1, ok := intMod f false true && f.xf == 0 && f.imm == 0, lat := 3 } := rfl
  rw [hshape] at hsh
  split at hsh
  · cases hsh
  · cases hsh
    simp only [intMod, Bool.and_eq_true, Bool.false_or, Bool.not_eq_true'] at hok
    exact hok.1.1.1.2

/-! ### IDOT4 -/

theorem signed_eq_reading (uns : Bool) (e : Nat) : (if !uns then sext e 8 else (e : Int)) = reading 8 uns e := by
  cases uns
  · exact sext_eq_reading 8 e
  · rfl

/-- Element `j` of IDOT4 on clean sources: the addend and the four byte products. -/
theorem dotElem_clean {a b c : Reg} (h : Clean a b c) (ua ub : Bool) (j : Nat) :
    dotElem (!ua) (!ub) a b c j = ((narrow 32 false false (reading 32 false (elem c 32 j)
      + reading 8 ua (elem a 8 (4 * j + 0)) * reading 8 ub (elem b 8 (4 * j + 0))
      + reading 8 ua (elem a 8 (4 * j + 1)) * reading 8 ub (elem b 8 (4 * j + 1))
      + reading 8 ua (elem a 8 (4 * j + 2)) * reading 8 ub (elem b 8 (4 * j + 2))
      + reading 8 ua (elem a 8 (4 * j + 3)) * reading 8 ub (elem b 8 (4 * j + 3))), false), 0) := by
  obtain ⟨ha, hb, hc⟩ := h
  have hrange : List.range 4 = [0, 1, 2, 3] := rfl
  simp only [dotElem, elemBad_clean ha, elemBad_clean hb, elemBad_clean hc, signed_eq_reading, hrange, List.map_cons, List.map_nil, List.sum_cons,
    List.sum_nil, add_zero, ← add_assoc, narrow_wrap]
  rw [sext_eq_reading]
  rfl

theorem idot4_elems {i : Fields → Instr} {f : Fields} {s : State} {env : Env} (hi : i ∈ [Instr.idot4, .idot4Ext]) (hiss : Issues (i f) s env)
    (hpt : NoPoisonTrap s) :
    LaneElems (i f) s env 32 (CleanAt env) fun g l j =>
      let a (k : Nat) : Int := reading 8 (decide (f.fn = 1)) (elem (env.srcA g l) 8 (4 * j + k))
      let b (k : Nat) : Int := reading 8 (decide (f.fn ≠ 0)) (elem (env.srcB g l) 8 (4 * j + k))
      narrow 32 false false (reading 32 false (elem (env.srcC g l) 32 j) + a 0 * b 0 + a 1 * b 1 + a 2 * b 2 + a 3 * b 3) := by
  have hr : Runs .idot4 .idot4Ext 0x1B dotBody := {}
  obtain ⟨-, rfl⟩ := hr.env_eq hi hiss
  have hsigns : (env.f.fn != 1) = !decide (env.f.fn = 1) ∧ decide (env.f.fn = 0) = !decide (env.f.fn ≠ 0) := by
    generalize env.f.fn = n
    revert n
    decide
  obtain ⟨t, hexec, hadv, hreg⟩ := hr.vecOut hi hiss hpt rfl
  refine ⟨t, hexec, hadv, fun l hl hclean => ?_⟩
  dsimp only
  rw [hreg l hl, hsigns.1, hsigns.2]
  simp only [dotElem_clean hclean, List.map_map]
  refine ⟨packReg_clean fun e he => ?_, fun j hj => ?_⟩
  · obtain ⟨j, -, rfl⟩ := List.mem_map.1 he
    rfl
  · exact (elem_packReg_map _ hj).trans (Nat.mod_eq_of_lt (narrow_lt ..))

/-! ### Forms whose body depends on their fields -/

theorem runs_slea : Runs .slea .sleaExt 0x16 fun env => scalarInt (opLea env.f) true env :=
  runs_of_fields fun f => scalarInt (opLea f) true

theorem runs_scmp : Runs .scmp .scmpExt 0x17 fun env => scalarInt opCmp (env.f.fn.getLsbD 0) env :=
  runs_of_fields fun f => scalarInt opCmp (f.fn.getLsbD 0)

theorem runs_imad : Runs .imad .imadExt 0x18 fun env => laneInt opMad (env.f.fn.getLsbD 0) env :=
  runs_of_fields fun f => laneInt opMad (f.fn.getLsbD 0)

theorem runs_isad : Runs .isad .isadExt 0x1A fun env => laneInt opSad (env.f.fn.getLsbD 0) env :=
  runs_of_fields fun f => laneInt opSad (f.fn.getLsbD 0)

/-- Settles O2: each form runs its operation, which narrows to the code of the exact result; only the rotation and the complement are written
in another way. -/
theorem scalarAndLaneOnlyResults : Obligations.ScalarAndLaneOnlyResults := by
  refine ⟨fun f s env hpt hmd => ⟨fun i hi hiss => ?_, fun i hi hiss => ?_, fun i hi hiss => ?_, fun i hi hiss => ?_⟩,
    fun f s env hpt => ⟨fun i hi hiss => ?_, fun i hi hiss => ?_, fun i hi hiss => ?_, fun i hi hiss => ?_, fun i hi hiss => ?_⟩,
    fun i hi f s env hiss hpt => idot4_elems hi hiss hpt⟩
  · have hr : Runs .sandn .sandnExt 0x14 (scalarInt opAndn false) := {}
    exact hr.scalarResult hi hiss hpt rfl fun _ _ _ => rfl
  · have hr : Runs .srot .srotExt 0x15 (scalarInt opRot true) := {}
    obtain ⟨-, rfl⟩ := hr.env_eq hi hiss
    refine hr.scalarResult hi hiss hpt rfl fun a b c => ?_
    rw [hmd]
    exact narrow_rot true a b c
  · obtain ⟨-, rfl⟩ := runs_slea.env_eq hi hiss
    exact runs_slea.scalarResult hi hiss hpt rfl fun _ _ _ => rfl
  · obtain ⟨-, rfl⟩ := runs_scmp.env_eq hi hiss
    exact runs_scmp.scalarResult hi hiss hpt rfl fun _ _ _ => rfl
  · obtain ⟨-, rfl⟩ := runs_imad.env_eq hi hiss
    exact runs_imad.laneResult hi hiss hpt rfl fun _ _ _ _ => rfl
  · obtain ⟨-, rfl⟩ := runs_isad.env_eq hi hiss
    exact runs_isad.laneResult hi hiss hpt rfl fun _ _ _ _ => rfl
  · have hr : Runs .iabs .iabsExt 0x19 (laneInt opAbs false) := {}
    exact hr.laneResult hi hiss hpt rfl fun _ _ _ _ => rfl
  · have hr : Runs .ineg .inegExt 0x19 (laneInt opNeg false) := {}
    exact hr.laneResult hi hiss hpt rfl fun _ _ _ _ => rfl
  · have hr : Runs .inot .inotExt 0x19 (laneInt opNot false) := {}
    have hsat := no_sat_of_begin_0x19 (hr.go hi hiss)
    obtain ⟨-, rfl⟩ := hr.env_eq hi hiss
    refine hr.laneResult hi hiss hpt rfl fun a b c j => ?_
    rw [hsat]
    exact narrow_not _ _ (elem_lt a _ j)

end Sys2Proof.Machine
end

section
/-!
PROOF of O5: bit fields and selects (R109, R110).
-/

namespace Sys2Proof.Machine

/-! ### BFX and BFI (R109) -/

theorem narrow_opBfx (b : Word) (uns uns' v : Bool) (w : Nat) (ra rb rc : Reg) (j : Nat) :
    narrow w uns' false ((opBfx b uns).f (argsAt w v ra rb rc j)) = fieldRead uns b w (elem ra w j) := by
  refine congrArg (fun t : Int => (t % 2 ^ w).toNat) ?_
  simp only [← reading_eq_ite]
  rfl

/-- The bits of a number with `n` bits from bit `pos` replaced. -/
theorem testBit_replaced (c a pos n i : Nat) :
    (c - c / 2 ^ pos % 2 ^ n * 2 ^ pos + a % 2 ^ n * 2 ^ pos).testBit i
      = if pos ≤ i ∧ i < pos + n then a.testBit (i - pos) else c.testBit i := by
  have hc : c = 2 ^ pos * (2 ^ n * (c / 2 ^ pos / 2 ^ n) + c / 2 ^ pos % 2 ^ n) + c % 2 ^ pos := by rw [Nat.div_add_mod, Nat.div_add_mod]
  have hlow : c % 2 ^ pos < 2 ^ pos := Nat.mod_lt _ (Nat.two_pow_pos _)
  have hmid : c / 2 ^ pos % 2 ^ n < 2 ^ n := Nat.mod_lt _ (Nat.two_pow_pos _)
  have hnew : a % 2 ^ n < 2 ^ n := Nat.mod_lt _ (Nat.two_pow_pos _)
  generalize c / 2 ^ pos % 2 ^ n = m at hc hmid ⊢
  generalize c / 2 ^ pos / 2 ^ n = h at hc
  generalize c % 2 ^ pos = r at hc hlow
  have hval : c - m * 2 ^ pos + a % 2 ^ n * 2 ^ pos = 2 ^ pos * (2 ^ n * h + a % 2 ^ n) + r := by
    have hsub : c - m * 2 ^ pos = 2 ^ pos * (2 ^ n * h) + r := by
      rw [hc, Nat.mul_add, Nat.mul_comm m]
      omega
    rw [hsub, Nat.mul_add, Nat.mul_comm (a % 2 ^ n)]
    omega
  rw [hval, hc]
  simp only [Nat.testBit_two_pow_mul_add _ hlow, Nat.testBit_two_pow_mul_add _ hmid, Nat.testBit_two_pow_mul_add _ hnew,
    Nat.testBit_mod_two_pow]
  rcases Nat.lt_or_ge i pos with h1 | h1
  · simp [h1, Nat.not_le.2 h1]
  rcases Nat.lt_or_ge i (pos + n) with h2 | h2
  · have h3 : i - pos < n := by omega
    simp [h1, h2, h3, Nat.not_lt.2 h1]
  · have h3 : ¬i - pos < n := by omega
    simp [h1, h3, Nat.not_lt.2 h1, Nat.not_lt.2 h2]

theorem fieldWritten_opBfi {b : Word} {uns v : Bool} {w : Nat} {ra rb rc : Reg} {j : Nat} :
    fieldWritten b w (elem ra w j) (elem rc w j) (narrow w uns false ((opBfi b).f (argsAt w v ra rb rc j))) := by
  intro i hi
  refine Eq.trans ?_ (testBit_replaced ..)
  refine (congrArg (Nat.testBit · i) (narrow_natCast w uns _)).trans ?_
  simp only [Nat.testBit_mod_two_pow, hi, decide_true, Bool.true_and]
  rfl

/-- A field operation on clean sources is the integer operation of its specification. -/
theorem fieldReg_clean (op : Word → IOp) (w : Nat) (uns : Bool) {a b c : Reg} (h : Clean a b c) :
    fieldReg op w uns a b c = intReg (op b.val) w uns false a {} c ∧ Clean a {} c := by
  obtain ⟨ha, hb, hc⟩ := h
  refine ⟨if_neg ?_, ha, rfl, hc⟩
  simp [Reg.bad, hb]

section
variable {short long i : Fields → Instr} {maj : BitVec 7} {op : Word → IOp} {body : Env → State → Out} {f : Fields} {s : State} {env : Env}

/-- A scalar field form on clean sources. -/
theorem Runs.scalarField (h : Runs short long maj body) (hi : i ∈ [short, long]) (hiss : Issues (i f) s env) (hpt : NoPoisonTrap s)
    (hb : body env (turn s) = fieldForm op env (turn s)) (hfn : f.fn.getLsbD 1 = true) (hclean : CleanAt env ((turn s).grp env.k) 0) :
    let g := (turn s).grp env.k
    Completes (i f) s fun t => Advances env t ∧ (t.grp env.k).rdS env.f.d.toNat = if env.f.d = 0 then {} else
      .of (BitVec.ofNat 64 (narrow 64 false false ((op (env.srcB g 0).val).f (argsAt 64 false (env.srcA g 0) {} (env.srcC g 0) 0)))) := by
  obtain ⟨-, rfl⟩ := h.env_eq hi hiss
  obtain ⟨t, hexec, hadv, hreg⟩ := h.scalOut hi hiss hpt (hb.trans (if_pos hfn))
  obtain ⟨hfield, hclean'⟩ := fieldReg_clean op 64 false hclean
  refine ⟨t, hexec, hadv, hreg.trans ?_⟩
  rw [hfield, intReg_64_clean hclean']
  exact if_congr (BitVec.toNat_inj (y := 0)) rfl rfl

/-- A lane field form, on the lanes with clean sources. -/
theorem Runs.laneField (h : Runs short long maj body) (hi : i ∈ [short, long]) (hiss : Issues (i f) s env) (hpt : NoPoisonTrap s)
    (hb : body env (turn s) = fieldForm op env (turn s)) (hfn : f.fn.getLsbD 1 = false) :
    LaneElems (i f) s env (intWidth env.f) (CleanAt env) fun g l j => narrow (intWidth env.f) false false
      ((op (env.srcB g l).val).f (argsAt (intWidth env.f) false (env.srcA g l) {} (env.srcC g l) j)) := by
  obtain ⟨-, rfl⟩ := h.env_eq hi hiss
  obtain ⟨t, hexec, hadv, hreg⟩ := h.vecOut hi hiss hpt (hb.trans (if_neg (by rw [hfn]; exact Bool.false_ne_true)))
  refine ⟨t, hexec, hadv, fun l hl hclean => ?_⟩
  obtain ⟨hfield, hclean'⟩ := fieldReg_clean op (intWidth env.f) false hclean
  dsimp only
  rw [hreg l hl, hfield]
  exact ⟨intReg_poi hclean' (eight_le_intWidth env.f), fun j hj => elem_intReg_clean hclean' hj⟩

end

theorem runs_sbfx : Runs .sbfx .sbfxExt 0x10 fun env => fieldForm (fun b => opBfx b (env.f.fn.getLsbD 0)) env :=
  runs_of_fields fun f => fieldForm fun b => opBfx b (f.fn.getLsbD 0)

theorem runs_ibfx : Runs .ibfx .ibfxExt 0x10 fun env => fieldForm (fun b => opBfx b (env.f.fn.getLsbD 0)) env :=
  runs_of_fields fun f => fieldForm fun b => opBfx b (f.fn.getLsbD 0)

/-! ### Selects (R110) -/

/-- A copied register without poison has the elements of its source. -/
theorem movReg_clean {w : Nat} (uns : Bool) {r : Reg} (h : r.poi = 0) (hw : 8 ≤ w) :
    (intReg opMov w uns false {} r {}).r.poi = 0 ∧ ∀ j, j < 64 / w → elem (intReg opMov w uns false {} r {}).r w j = elem r w j := by
  have hclean : Clean {} r {} := ⟨rfl, h, rfl⟩
  refine ⟨intReg_poi hclean hw, fun j hj => (elem_intReg_clean hclean hj).trans ?_⟩
  exact (narrow_natCast w uns (elem r w j)).trans (Nat.mod_eq_of_lt (elem_lt ..))

/-- A register without poison is copied whole. -/
theorem movReg_64_clean (uns : Bool) {r : Reg} (h : r.poi = 0) : (intReg opMov 64 uns false {} r {}).r = .of r.val := by
  have hclean : Clean {} r {} := ⟨rfl, h, rfl⟩
  rw [intReg_64_clean hclean]
  have hval : elem r 64 0 = r.val.toNat := by simpa [elem] using r.val.isLt
  refine congrArg Reg.of (BitVec.eq_of_toNat_eq ?_)
  rw [BitVec.toNat_ofNat, show opMov.f (argsAt 64 uns {} r {} 0) = (elem r 64 0 : Int) from rfl, narrow_natCast, hval, Nat.mod_mod]
  exact Nat.mod_eq_of_lt r.val.isLt

/-- A register with any poison is copied as a poisoned 0. -/
theorem movReg_64_poisoned (uns : Bool) {r : Reg} (h : r.poi ≠ 0) : (intReg opMov 64 uns false {} r {}).r = .poisoned := by
  have hbad : elemBad r 64 0 = true := by
    have h0 := toNat_ne_zero h
    have hlt := r.poi.isLt
    have h8 : max 1 (64 / 8) = 8 := rfl
    simp only [elemBad, h8, Nat.mul_zero, Nat.zero_div, Nat.pow_zero, Nat.div_one, bne_iff_ne]
    omega
  have hrange : List.range (64 / 64) = [0] := rfl
  simp only [intReg, intElem, hrange, List.map_cons, List.map_nil, hbad]
  rfl

/-- What SSEL writes: a poisoned condition chooses no source. -/
def selReg (a b c : Reg) : LRes :=
  if c.bad then { r := .poisoned, cons := 1 } else intReg opMov 64 true false {} (if c.val != 0 then a else b) {}

theorem selScalar_eq (env : Env) (s : State) : selScalar env s
    = scalOut env s (selReg (env.srcA (s.grp env.k) 0) (env.srcB (s.grp env.k) 0) (env.srcC (s.grp env.k) 0)) := by
  unfold selScalar selReg
  dsimp only
  split <;> rfl

section
variable {a b c r : Reg}

theorem selReg_clean (hr : r = if c.val ≠ 0 then a else b) (hc : c.poi = 0) (h : r.poi = 0) : (selReg a b c).r = .of r.val := by
  subst hr
  have hcond : ¬c.bad = true := by simp [Reg.bad, hc]
  rw [selReg, if_neg hcond, ← movReg_64_clean true h]
  simp

theorem selReg_poisoned (hr : r = if c.val ≠ 0 then a else b) (h : c.poi ≠ 0 ∨ r.poi ≠ 0) : (selReg a b c).r = .poisoned := by
  subst hr
  unfold selReg
  by_cases hc : c.poi = 0
  · have hcond : ¬c.bad = true := by simp [Reg.bad, hc]
    rw [if_neg hcond, ← movReg_64_poisoned true (h.resolve_left (not_not.2 hc))]
    simp
  · exact congrArg LRes.r (if_pos (bne_iff_ne.2 hc))

end

/-- Settles O5: a field form on clean sources is the operation of its specification, and a select copies the source that it chooses. -/
theorem bitFieldAndSelectResults : Obligations.BitFieldAndSelectResults := by
  refine ⟨fun f s env hpt => ⟨fun hfn hclean => ⟨fun i hi hiss => ?_, fun i hi hiss => ?_⟩,
      fun hfn => ⟨fun i hi hiss => ?_, fun i hi hiss => ?_⟩⟩,
    fun f s env hpt => ⟨fun i hi hiss => ?_, fun i hi hiss => ?_⟩⟩
  · obtain ⟨t, hexec, hadv, hreg⟩ := runs_sbfx.scalarField hi hiss hpt rfl hfn hclean
    obtain ⟨-, rfl⟩ := runs_sbfx.env_eq hi hiss
    rw [narrow_opBfx] at hreg
    exact ⟨t, hexec, hadv, hreg⟩
  · have hr : Runs .sbfi .sbfiExt 0x11 (fieldForm opBfi) := {}
    obtain ⟨t, hexec, hadv, hreg⟩ := hr.scalarField hi hiss hpt rfl hfn hclean
    refine ⟨t, hexec, hadv, ?_⟩
    split
    next hd => exact hreg.trans (if_pos hd)
    next hd =>
      rw [hreg, if_neg hd]
      simp only [Reg.of, BitVec.toNat_ofNat, Nat.mod_eq_of_lt (narrow_lt ..)]
      exact fieldWritten_opBfi
  · obtain ⟨t, hexec, hadv, hreg⟩ := runs_ibfx.laneField hi hiss hpt rfl hfn
    obtain ⟨-, rfl⟩ := runs_ibfx.env_eq hi hiss
    simp only [narrow_opBfx] at hreg
    exact ⟨t, hexec, hadv, hreg⟩
  · have hr : Runs .ibfi .ibfiExt 0x11 (fieldForm opBfi) := {}
    obtain ⟨t, hexec, hadv, hreg⟩ := hr.laneField hi hiss hpt rfl hfn
    refine ⟨t, hexec, hadv, fun l hl hclean j hj => ?_⟩
    obtain ⟨-, helem⟩ := hreg l hl hclean
    rw [helem j hj]
    exact fieldWritten_opBfi
  · intro g r
    have hr : Runs .ssel .sselExt 0x13 selScalar := {}
    obtain ⟨t, hexec, hadv, hreg⟩ := hr.scalOut hi hiss hpt (selScalar_eq env (turn s))
    have hd : env.f.d.toNat = 0 ↔ env.f.d = 0 := BitVec.toNat_inj (y := 0)
    rw [if_congr hd rfl rfl] at hreg
    refine ⟨t, hexec, hadv, fun hc hclean => hreg.trans ?_, fun hbad => hreg.trans ?_⟩
    · rw [selReg_clean (r := r) rfl hc hclean]
    · rw [selReg_poisoned (r := r) rfl hbad]
  · intro chosen
    have hr : Runs .isel .iselExt 0x13 selLane := {}
    obtain ⟨t, hexec, hadv, hreg⟩ := hr.vecOut hi hiss hpt rfl
    refine ⟨t, hexec, hadv, fun l hl hclean => ?_⟩
    rw [hreg l hl]
    exact movReg_clean true hclean (eight_le_intWidth env.f)

end Sys2Proof.Machine
end

section
/-!
PROOF of O6: PSETI, PLOP and PMOV (R113 to R115).
-/

namespace Sys2Proof.Machine

/-- The condition codes of PSETI as propositions that are decided (R113). -/
def condOf (c : Nat) (x y : Int) : Bool :=
  match c with
  | 0 => decide (x = y)
  | 1 => decide (x ≠ y)
  | 2 => decide (x < y)
  | 3 => decide (x ≤ y)
  | 4 => decide (y < x)
  | _ => decide (y ≤ x)

theorem condHolds_eq_condOf : ∀ (c : Nat) (x y : Int), condHolds c x y = condOf c x y
  | 1, _, _ => decide_not.symm
  | 0, _, _ | 2, _, _ | 3, _, _ | 4, _, _ | _ + 5, _, _ => rfl

/-- PLOP reads bit 2 × pA + pB of its table (R114). -/
theorem plopIndex (a b : Bool) : (if a then 2 else 0) + (if b then 1 else 0) = 2 * a.toNat + b.toNat := by
  cases a <;> cases b <;> rfl

/-- Settles O6: each body writes its predicate in every executing lane. -/
theorem predicateResults : Obligations.PredicateResults := by
  refine fun f s env hpt => ⟨fun i hi hiss => ?_, fun i hi hiss => ?_, fun i hi hiss => ?_, fun i hi hiss => ?_⟩
  · have hr : Runs .pseti .psetiExt 0x1C psetiBody := {}
    obtain ⟨-, rfl⟩ := hr.env_eq hi hiss
    refine hr.predOut hi hiss hpt rfl fun l hclean => ?_
    obtain ⟨ha, hb, -⟩ := hclean
    simp only [elemBad_clean ha, elemBad_clean hb, reading_eq_ite, condHolds_eq_condOf]
    rfl
  · have hr : Runs .plop .plopExt 0x1D plopBody := {}
    obtain ⟨-, rfl⟩ := hr.env_eq hi hiss
    exact hr.predOut hi hiss hpt rfl fun l _ => congrArg env.f.md.getLsbD (plopIndex ..)
  · have hr : Runs .pmov .pmovExt 0x1D pmovBody := {}
    obtain ⟨-, rfl⟩ := hr.env_eq hi hiss
    exact hr.predOut hi hiss hpt rfl fun l _ => rfl
  · have hr : Runs .pmovMask .pmovMaskExt 0x1D pmovMaskBody := {}
    obtain ⟨-, rfl⟩ := hr.env_eq hi hiss
    refine hr.predOut hi hiss hpt rfl fun l hpoi => ?_
    have hclean : (env.srcB ((turn s).grp env.k) 0).bad = false := by simp [Reg.bad, hpoi]
    rw [hclean]
    rfl

end Sys2Proof.Machine
end

section
/-!
PROOF of O17: BRA, BRP, BRX and LOOP (R117 to R119, R121). A body that moves lanes says where each lane of the path goes; what is left is the
condition of BRP over E, the targets of BRX and the counter of LOOP.
-/

namespace Sys2Proof.Machine

/-! ### The end of an issue that branches (R89) -/

theorem State.moving_sameRegs (s s' : State) (env : Env) : SameRegs ((s.moving s' env).grp env.k) (s'.grp env.k) := by
  unfold State.moving
  split
  · exact SameRegs.refl _
  · rw [State.grp_modGrp_same]
    exact pushPend_sameRegs ..

section
variable {short long i : Fields → Instr} {maj : BitVec 7} {body : Env → State → Out} {f : Fields} {s s' : State} {env : Env}
  {pc : LaneId → Word}

/-- A body that moves the lanes of its path and leaves them live: each stands where the body sends it, and the registers are those of the body. -/
theorem Runs.branches (h : Runs short long maj body) (hi : i ∈ [short, long]) (hiss : Issues (i f) s env)
    (hb : body env (turn s) = .pcs s' pc) (hlane : (s'.grp env.k).lane = ((turn s).grp env.k).lane) :
    Completes (i f) s fun t => (∀ l : LaneId, env.path.getLsbD l = true → (t.grp env.k).lane[l].pcv = pc l)
      ∧ SameRegs (t.grp env.k) (s'.grp env.k) := by
  refine ⟨_, h.exec_issue hi hiss, ?_⟩
  rw [hb]
  refine ⟨fun l hl => ?_, ?_⟩
  · refine (complete_moved (turn s) s' env pc).pcv l hl ?_
    rw [lanes_of_group hlane]
    exact begin_path_live (h.go hi hiss) hl
  · exact (complete_sameRegs ..).trans ((turn s).moving_sameRegs s' env)

end

/-! ### Targets at word offsets (R117) -/

theorem f12_eq_offset12 (f : Fields) : f12 f = offset12 f := by
  unfold f12 offset12
  refine congrArg BitVec.toInt (BitVec.eq_of_toNat_eq ?_)
  have ha := (f.a.extractLsb' 0 6).isLt
  have hb := (f.b.extractLsb' 0 6).isLt
  rw [BitVec.toNat_append, ← Nat.shiftLeft_add_eq_or_of_lt ha, BitVec.toNat_ofNat]
  simp only [bits, Nat.shiftLeft_eq]
  omega

theorem target12_eq_wordTarget (env : Env) : env.target (f12 env.f) = wordTarget env (offset12 env.f) := by
  rw [f12_eq_offset12]
  unfold Env.target wordTarget
  rw [BitVec.toNat_ofInt]
  rfl

/-! ### The condition of BRP (R118) -/

theorem and_ne_zero_iff (p e : LaneMask) : p &&& e ≠ 0 ↔ ∃ l : LaneId, e.getLsbD l = true ∧ p.getLsbD l = true := by
  constructor
  · intro h
    obtain ⟨l, hl⟩ := exists_lane_of_ne_zero h
    rw [BitVec.getLsbD_and, Bool.and_eq_true] at hl
    exact ⟨l, hl.2, hl.1⟩
  · rintro ⟨l, he, hp⟩ h0
    have hl : (p &&& e).getLsbD l = true := by rw [BitVec.getLsbD_and, he, hp]; rfl
    rw [h0] at hl
    exact absurd hl (by simp)

theorem and_eq_right_iff (p e : LaneMask) : p &&& e = e ↔ ∀ l : LaneId, e.getLsbD l = true → p.getLsbD l = true := by
  constructor
  · intro h l hl
    rw [← h, BitVec.getLsbD_and, Bool.and_eq_true] at hl
    exact hl.1
  · intro h
    refine BitVec.eq_of_getLsbD_eq fun i hi => ?_
    rw [BitVec.getLsbD_and]
    cases he : e.getLsbD i with
    | false => exact Bool.and_false _
    | true => rw [h ⟨i, hi⟩ he]; rfl

/-- Whether BRP branches: some, every, no, or not every lane of E has the predicate. -/
def brpTakes (x : BitVec 2) (p e : LaneMask) : Bool :=
  match x.toNat with
  | 0 => p &&& e != 0
  | 1 => p &&& e = e
  | 2 => p &&& e = 0
  | _ => p &&& e != e

theorem brpBody_eq (env : Env) (s : State) : brpBody env s = .pcs s
    (if brpTakes env.f.xf ((s.grp env.k).rdP env.f.d.toNat) env.e then env.goTo (env.target (f12 env.f)) else fun _ => env.nxt) := rfl

/-- The condition of BRP as R118 has it, lane by lane. -/
def BrpHolds (x : BitVec 2) (p e : LaneMask) : Prop :=
  match x.toNat with
  | 0 => ∃ l : LaneId, e.getLsbD l = true ∧ p.getLsbD l = true
  | 1 => ∀ l : LaneId, e.getLsbD l = true → p.getLsbD l = true
  | 2 => ∀ l : LaneId, e.getLsbD l = true → p.getLsbD l = false
  | _ => ∃ l : LaneId, e.getLsbD l = true ∧ p.getLsbD l = false

theorem brpTakes_iff (p e : LaneMask) (x : BitVec 2) : brpTakes x p e = true ↔ BrpHolds x p e := by
  have hany := and_ne_zero_iff p e
  have hall := and_eq_right_iff p e
  refine forall_fn (P := fun x => brpTakes x p e = true ↔ BrpHolds x p e) ?_ ?_ ?_ ?_ x
  · exact bne_iff_ne.trans hany
  · exact decide_eq_true_iff.trans hall
  · refine decide_eq_true_iff.trans ((not_iff_not.2 hany).symm.trans not_not |>.symm.trans ?_)
    simp [BrpHolds]
  · refine bne_iff_ne.trans ((not_congr hall).trans ?_)
    simp [BrpHolds]

/-! ### The targets of BRX (R119) -/

theorem regTarget_of_clean {env : Env} {g : Group} {l : LaneId} (h : (env.srcA g l).poi = 0) :
    regTarget env g l = ((env.srcA g l).val + env.f.imm.signExtend 64, false) := by
  have hclean : (env.srcA g l).bad = false := by simp [Reg.bad, h]
  unfold regTarget
  dsimp only
  rw [hclean]
  rfl

theorem badTarget_eq_true {t : Word} (h : ¬(4 ∣ t.toNat ∧ t.toNat < 2 ^ 56)) : badTarget t = true := by
  simp only [badTarget, Bool.or_eq_true, bne_iff_ne]
  omega

/-- The first lane of a mask that satisfies a condition. -/
theorem find_laneList {m : LaneMask} {p : LaneId → Bool} {l : LaneId} (hl : m.getLsbD l = true) (hp : p l = true)
    (hlow : ∀ j : LaneId, m.getLsbD j = true → j < l → p j = false) : (laneList m).find? p = some l := by
  rw [List.find?_eq_findSome?_guard]
  exact findSome_laneList hl (by simp [Option.guard, hp]) fun j hj hlt => by simp [Option.guard, hlow j hj hlt]

section
variable {env : Env} {s : State}

/-- With sr.ctl.pt = 0 a lane of E with a bad target, the first of them, is a fault (R119). -/
theorem brxBody_of_bad (hpt : (s.grp env.k).pt = false) {l : LaneId} (hl : env.e.getLsbD l = true)
    (hbad : badTarget (regTarget env (s.grp env.k) l).1 = true)
    (hlow : ∀ j : LaneId, env.e.getLsbD j = true → j < l → badTarget (regTarget env (s.grp env.k) j).1 = false) :
    ∃ n, brxBody env s = .trap causeAlign (regTarget env (s.grp env.k) l).1 0 (s.consume env.k n) := by
  unfold brxBody
  dsimp only
  rw [poisonGate_of_pt hpt, find_laneList (p := fun l => badTarget (regTarget env (s.grp env.k) l).1) hl hbad hlow]
  exact ⟨_, rfl⟩

/-- Without a bad target the lanes of E go to their targets (R119). -/
theorem brxBody_of_good (hpt : (s.grp env.k).pt = false)
    (hgood : ∀ l : LaneId, env.e.getLsbD l = true → badTarget (regTarget env (s.grp env.k) l).1 = false) :
    ∃ n, brxBody env s = .pcs (s.consume env.k n) fun l => if env.e.getLsbD l then (regTarget env (s.grp env.k) l).1 else env.nxt := by
  have hnone : (laneList env.e).find? (fun l => badTarget (regTarget env (s.grp env.k) l).1) = none :=
    List.find?_eq_none.2 fun l hl => by rw [hgood l ((mem_laneList _ l).1 hl)]; exact Bool.false_ne_true
  unfold brxBody
  dsimp only
  rw [poisonGate_of_pt hpt, hnone]
  exact ⟨_, rfl⟩

end

/-! ### The four branches -/

section
variable {i : Fields → Instr} {f : Fields} {s : State} {env : Env}

theorem bra_completes (hi : i ∈ [Instr.bra, .braExt]) (hiss : Issues (i f) s env) :
    Completes (i f) s fun t => GoesTo env t fun _ => wordTarget env (offset18 f) := by
  have hr : Runs .bra .braExt 0x20 braBody := {}
  obtain ⟨-, rfl⟩ := hr.env_eq hi hiss
  obtain ⟨t, hexec, hpc, -⟩ := hr.branches hi hiss rfl rfl
  rw [← target_eq_wordTarget]
  exact ⟨t, hexec, hpc⟩

theorem brp_completes (hi : i ∈ [Instr.brp, .brpExt]) (hiss : Issues (i f) s env) :
    Completes (i f) s fun t =>
      (BrpHolds f.xf (((turn s).grp env.k).rdP f.d.toNat) env.e → GoesTo env t fun _ => wordTarget env (offset12 f))
        ∧ (¬BrpHolds f.xf (((turn s).grp env.k).rdP f.d.toNat) env.e → Advances env t) := by
  have hr : Runs .brp .brpExt 0x20 brpBody := {}
  obtain ⟨-, rfl⟩ := hr.env_eq hi hiss
  obtain ⟨t, hexec, hpc, -⟩ := hr.branches hi hiss (brpBody_eq env (turn s)) rfl
  rw [← brpTakes_iff, ← target12_eq_wordTarget]
  refine ⟨t, hexec, fun h => ?_, fun h => ?_⟩
  · rwa [if_pos h] at hpc
  · rwa [if_neg h] at hpc

theorem brx_completes (hi : i ∈ [Instr.brx, .brxExt]) (hiss : Issues (i f) s env) (hpt : NoPoisonTrap s) {tgt : LaneId → Word}
    (htgt : ∀ l : LaneId, env.e.getLsbD l = true → (regTarget env ((turn s).grp env.k) l).1 = tgt l)
    (hgood : ∀ l : LaneId, env.e.getLsbD l = true → badTarget (tgt l) = false) :
    Completes (i f) s fun t => GoesTo env t tgt := by
  have hr : Runs .brx .brxExt 0x20 brxBody := {}
  rw [NoPoisonTrap, ← hr.env_k hi hiss] at hpt
  obtain ⟨n, hb⟩ := brxBody_of_good hpt fun l hl => by rw [htgt l hl]; exact hgood l hl
  obtain ⟨t, hexec, hpc, -⟩ := hr.branches hi hiss hb (by rw [consume_grp])
  refine ⟨t, hexec, fun l hl => (hpc l hl).trans ?_⟩
  cases he : env.e.getLsbD l with
  | true => exact htgt l he
  | false => rfl

theorem brx_traps (hi : i ∈ [Instr.brx, .brxExt]) (hiss : Issues (i f) s env) (hpt : NoPoisonTrap s) {tgt : LaneId → Word}
    (htgt : ∀ l : LaneId, env.e.getLsbD l = true → (regTarget env ((turn s).grp env.k) l).1 = tgt l) {l : LaneId}
    (hl : env.e.getLsbD l = true) (hbad : badTarget (tgt l) = true)
    (hlow : ∀ j : LaneId, env.e.getLsbD j = true → j < l → badTarget (tgt j) = false) : Traps (i f) s env.k 0x0B (tgt l) := by
  have hr : Runs .brx .brxExt 0x20 brxBody := {}
  rw [NoPoisonTrap, ← hr.env_k hi hiss] at hpt
  obtain ⟨n, hb⟩ := brxBody_of_bad hpt hl (by rw [htgt l hl]; exact hbad) fun j hj hlt => by rw [htgt j hj]; exact hlow j hj hlt
  rw [← htgt l hl]
  exact hr.trap hi hiss hb (by rw [consume_grp]; exact ⟨rfl, rfl⟩)

/-- LOOP without poison writes the counter less 1 and branches while that is not 0 (R121). -/
theorem loop_completes (hi : i ∈ [Instr.loop, .loopExt]) (hiss : Issues (i f) s env)
    (hpoi : (((turn s).grp env.k).rdS f.d.toNat).poi = 0) :
    let cnt := (((turn s).grp env.k).rdS f.d.toNat).val - 1
    Completes (i f) s fun t => (t.grp env.k).rdS f.d.toNat = (if f.d = 0 then {} else .of cnt)
      ∧ (cnt ≠ 0 → GoesTo env t fun _ => wordTarget env (offset12 f)) ∧ (cnt = 0 → Advances env t) := by
  intro cnt
  have hr : Runs .loop .loopExt 0x23 loopBody := {}
  obtain ⟨-, rfl⟩ := hr.env_eq hi hiss
  have hclean : (((turn s).grp env.k).rdS env.f.d.toNat).bad = false := by simp [Reg.bad, hpoi]
  have hb : loopBody env (turn s) = .pcs (((turn s).setGrp env.k (((turn s).grp env.k).wrS env.f.d.toNat (.of cnt))).consume env.k 0)
      (if cnt = 0 then fun _ => env.nxt else env.goTo (env.target (f12 env.f))) := by
    unfold loopBody
    dsimp only
    rw [hclean]
    rfl
  have hgrp : (((turn s).setGrp env.k (((turn s).grp env.k).wrS env.f.d.toNat (.of cnt))).consume env.k 0).grp env.k
      = ((turn s).grp env.k).wrS env.f.d.toNat (.of cnt) := by rw [consume_grp, State.grp_setGrp, if_pos rfl]
  obtain ⟨t, hexec, hpc, hregs⟩ := hr.branches hi hiss hb (by rw [hgrp]; exact Group.wrS_lane ..)
  rw [hgrp] at hregs
  rw [← target12_eq_wordTarget]
  refine ⟨t, hexec, ?_, fun h => ?_, fun h => ?_⟩
  · rw [hregs.rdS, Group.rdS_wrS, if_pos rfl]
    exact if_congr (BitVec.toNat_inj (y := 0)) rfl rfl
  · rwa [if_neg h] at hpc
  · rwa [if_pos h] at hpc

end

/-- Settles O17: each branch sends the lanes of its path where its condition, its targets or its counter say. -/
theorem branchResults : Obligations.BranchResults := by
  refine fun f s env hpt => ⟨fun i hi hiss => bra_completes hi hiss, fun i hi hiss => brp_completes hi hiss, fun i hi hiss => ?_,
    fun i hi hiss hpoi => loop_completes hi hiss hpoi⟩
  intro tgt hpoi
  have hr : Runs .brx .brxExt 0x20 brxBody := {}
  have htgt (l : LaneId) (hl : env.e.getLsbD l = true) : (regTarget env ((turn s).grp env.k) l).1 = tgt l := by
    rw [regTarget_of_clean (hpoi l hl), (hr.env_eq hi hiss).2]
  refine ⟨fun hall => brx_completes hi hiss hpt htgt fun l hl => badTarget_eq_false (hall l hl).1 (hall l hl).2, fun l hl hbad hlow => ?_⟩
  exact brx_traps hi hiss hpt htgt hl (badTarget_eq_true hbad) fun j hj hlt => badTarget_eq_false (hlow j hj hlt).1 (hlow j hj hlt).2

end Sys2Proof.Machine
end

section
/-!
RULES of kernels, queues and records (R265 to R272) for O51: what a queue and its records are after a change, and the functions of the model
that leave the kernels of every context, and so every queue, as they were.
-/

namespace Sys2Proof.Machine

/-! ### Changes of a queue -/

theorem smGet_map {α β : Type} {d : α} {d' : β} {F : α → β} (hF : F d = d') (m : SMap α) (k : Nat) :
    smGet d' (m.map fun e => (e.1, F e.2)) k = F (smGet d m k) := by
  induction m with
  | nil => exact hF.symm
  | cons e m ih =>
    simp only [List.map_cons, smGet, ih]
    split <;> rfl

section
variable (s : State) (c kn n : Nat)

theorem State.kern_modKern (F : Kern → Kern) : (s.modKern c kn F).kern c kn = F (s.kern c kn) := by
  unfold State.modKern State.kern
  rw [State.ctx_modCtx, if_pos rfl]
  exact (smGet_smSet ..).trans (if_pos rfl)

/-- A context in which queues have changed has only other kernels. -/
theorem State.ctx_modQueue (F : Queue → Queue) (d : Nat) : ∃ kerns, (s.modQueue c kn n F).ctx d = { s.ctx d with kerns } := by
  unfold State.modQueue State.modKern
  rw [State.ctx_modCtx]
  split
  next h => subst h; exact ⟨_, rfl⟩
  · exact ⟨_, rfl⟩

theorem State.queues_modQueue (F : Queue → Queue) (m : Nat) : ((s.modQueue c kn n F).kern c kn).queues[m]?
    = ((s.kern c kn).queues[m]?).map fun q => if m = n then F q else q := by
  unfold State.modQueue
  rw [State.kern_modKern, List.getElem?_map, List.getElem?_zipIdx, Option.map_map]
  simp only [Nat.zero_add]
  rfl

/-- A queue after a change of the queue of a node that the kernel has. -/
theorem State.queue_modQueue {F : Queue → Queue} (hn : n < (s.kern c kn).queues.length) :
    (s.modQueue c kn n F).queue c kn n = F (s.queue c kn n) := by
  unfold State.queue
  rw [State.queues_modQueue, List.getElem?_eq_getElem hn, Option.map_some, if_pos rfl]
  rfl

/-- The record in a slot of a queue. -/
def State.recAt (key : Nat) : Option Rec := (s.queue c kn n).rec? key

/-- A queue that holds a record is one of its kernel's. -/
theorem State.lt_of_recAt {key : Nat} {r : Rec} (h : s.recAt c kn n key = some r) : n < (s.kern c kn).queues.length := by
  by_contra hno
  unfold State.recAt State.queue at h
  rw [List.getElem?_eq_none (Nat.le_of_not_lt hno)] at h
  cases h

theorem Queue.rec_setRec (q : Queue) (key k : Nat) (r : Option Rec) : (q.setRec key r).rec? k = if k = key then r else q.rec? k := smGet_smSet ..

/-- The record in a slot after a change of a queue that the kernel has. -/
theorem State.recAt_modQueue {F : Queue → Queue} (hn : n < (s.kern c kn).queues.length) (key : Nat) :
    (s.modQueue c kn n F).recAt c kn n key = (F (s.queue c kn n)).rec? key := by
  unfold State.recAt
  rw [State.queue_modQueue _ _ _ _ hn]

end

/-! ### Functions that leave every kernel as it was -/

/-- The kernels of every context. -/
def State.kerns (s : State) (c : Nat) : SMap Kern := (s.ctx c).kerns

theorem State.queue_of_kerns {s t : State} (h : t.kerns = s.kerns) (c kn n : Nat) : t.queue c kn n = s.queue c kn n := by
  have hc : (t.ctx c).kerns = (s.ctx c).kerns := congrFun h c
  unfold State.queue State.kern
  rw [hc]

theorem State.recAt_of_kerns {s t : State} (h : t.kerns = s.kerns) (c kn n key : Nat) : t.recAt c kn n key = s.recAt c kn n key :=
  congrArg (Queue.rec? · key) (State.queue_of_kerns h c kn n)

theorem State.kerns_of_ctxs {s t : State} (h : t.ctxs = s.ctxs) : t.kerns = s.kerns := by
  unfold State.kerns State.ctx
  rw [h]

section
variable (s : State)

theorem State.kerns_modCtx (c : Nat) {F : Ctx → Ctx} (hF : ∀ x, (F x).kerns = x.kerns) : (s.modCtx c F).kerns = s.kerns := by
  funext d
  unfold State.kerns
  rw [State.ctx_modCtx]
  split
  next h => rw [hF, h]
  · rfl

theorem State.kerns_setStore (x : Store) (m : Memory) (p : SMap Bool) : (s.setStore x m p).kerns = s.kerns := by cases x <;> rfl

theorem State.kerns_ctxCount (c : Nat) (i : Fin 8) (n : Nat) : (s.ctxCount c i n).kerns = s.kerns := by
  unfold State.ctxCount
  split
  · rfl
  · exact s.kerns_modCtx c fun _ => rfl

theorem State.kerns_ctxEvent (c n : Nat) : (s.ctxEvent c n).kerns = s.kerns := by
  unfold State.ctxEvent
  dsimp only
  split
  · rfl
  · have hmod := s.kerns_modCtx c (F := fun x => { x with
      events := x.oldEvents s.time, evNew := x.newEvents s.time ||| (1 <<< n), evTime := s.time }) fun _ => rfl
    split
    · exact hmod
    · exact hmod

theorem State.kerns_hostErr (c : Nat) : (s.hostErr c).kerns = s.kerns := (State.kerns_ctxEvent ..).trans (s.kerns_ctxCount ..)

theorem State.kerns_eccMeet (c : Nat) (x : Store) (w : Nat) : (s.eccMeet c x w).kerns = s.kerns := by
  unfold State.eccMeet
  dsimp only
  split
  · rfl
  · exact State.kerns_ctxCount ..
  · exact (State.kerns_ctxCount ..).trans (State.kerns_setStore ..)

theorem State.kerns_l2Meet (c ln : Nat) (m : BitVec 32) : (s.l2Meet c ln m).kerns = s.kerns := by
  rw [State.l2Meet_eq]
  split
  · rfl
  · exact (State.kerns_ctxCount ..).trans (State.kerns_ctxCount ..)

theorem State.kerns_l2Clean (c ln : Nat) : (s.l2Clean c ln).kerns = s.kerns := by
  unfold State.l2Clean
  dsimp only
  split
  · rfl
  · exact s.kerns_l2Meet c ln _

theorem State.kerns_l2Make (c ln : Nat) : (s.l2Make c ln).kerns = s.kerns := by
  unfold State.l2Make
  dsimp only
  split
  · rfl
  · split
    · exact s.kerns_l2Clean c _
    · rfl

theorem State.kerns_l2Fetch (c pa n : Nat) (wr : Bool) : (s.l2Fetch c pa n wr).kerns = s.kerns :=
  foldl_unchanged State.kerns (fun s _ => s.kerns_eccMeet ..) _ s

theorem State.kerns_l2Touch (c pa n cls : Nat) (wr : Bool) : (s.l2Touch c pa n cls wr).kerns = s.kerns := by
  unfold State.l2Touch
  split
  · rfl
  · exact ((s.l2Make c (pa / 256)).kerns_l2Meet c (pa / 256) _).trans (s.kerns_l2Make c (pa / 256))

theorem State.kerns_runTouch (c cls : Nat) (r : List WByte) : (s.runTouch c cls r).kerns = s.kerns := by
  unfold State.runTouch
  split
  · rfl
  · exact (State.kerns_l2Touch ..).trans (State.kerns_l2Fetch ..)

theorem State.kerns_noteLines (lns : List Nat) : (s.noteLines lns).kerns = s.kerns := by
  unfold State.noteLines
  split
  · rfl
  · refine foldl_unchanged State.kerns (fun s ln => ?_) lns s
    split
    · rfl
    · split <;> rfl

theorem State.kerns_hostInval (pas : List Nat) : (s.hostInval pas).kerns = s.kerns := by
  refine foldl_unchanged State.kerns (fun s ln => ?_) _ s
  split <;> rfl

theorem State.kerns_putBytes (x : Store) (bs : List WByte) : (s.putBytes x bs).kerns = s.kerns := s.kerns_setStore x _ _

theorem State.kerns_wrStore (c : Nat) (x : Store) (bs : List WByte) : (s.wrStore c x bs).kerns = s.kerns := by
  unfold State.wrStore
  rw [State.kerns_putBytes]
  refine foldl_unchanged State.kerns (fun s w => ?_) _ s
  split
  · exact State.kerns_of_ctxs (by dsimp only)
  · exact s.kerns_eccMeet c x w

theorem State.kerns_chanWr (c : Nat) (bs : List WByte) (cls : Nat) : (s.chanWr c bs cls).kerns = s.kerns := by
  unfold State.chanWr
  split
  · rfl
  · rw [State.kerns_noteLines]
    split
    · rw [State.kerns_putBytes]
      exact foldl_unchanged State.kerns (fun s r => s.kerns_runTouch c cls r) _ s
    · exact s.kerns_wrStore c .hbm _

theorem State.kerns_homeWr (tag c : Nat) (bs : List WByte) (cls : Nat) : (s.homeWr tag c bs cls).1.kerns = s.kerns := by
  unfold State.homeWr State.homePut
  split
  · rfl
  · split
    · rw [State.kerns_chanWr]
      exact s.kerns_hostInval _
    · rfl

theorem State.kerns_orderWr (p : Nat) (rep : Option Nat) (op : Nat) (who : Option Nat) (c core lane : Nat) (bs : List WByte) :
    (s.orderWr p rep op who c core lane bs).kerns = s.kerns := by
  unfold State.orderWr
  split
  · rfl
  · refine foldl_unchanged State.kerns (fun s r => ?_) _ s
    split <;> rfl

/-! ### Save areas and stops (R309 to R316, R364) -/

theorem State.kerns_saveLine (c : Nat) (bs : List (Nat × Byte × Bool)) : (s.saveLine c bs).kerns = s.kerns := by
  unfold State.saveLine
  split
  · rfl
  · dsimp only
    split
    · rfl
    next pa rep _ =>
      generalize hw : s.homeWr (s.ctx c).part c _ 0 = r
      have hkerns : r.1.kerns = s.kerns := by rw [← hw]; exact s.kerns_homeWr ..
      obtain ⟨u, ok⟩ := r
      cases ok
      · exact (u.kerns_hostErr c).trans hkerns
      · exact (u.kerns_orderWr ..).trans hkerns

theorem State.kerns_imageWrite (tk off n : Nat) (f : Nat → Byte × Bool) : (s.imageWrite tk off n f).kerns = s.kerns := by
  unfold State.imageWrite
  split
  · exact foldl_unchanged State.kerns (fun s i => s.kerns_saveLine ..) _ s
  · rfl

theorem State.kerns_quiesceImages (c : Nat) : (s.quiesceImages c).kerns = s.kerns := by
  unfold State.quiesceImages
  refine foldl_unchanged State.kerns (fun s tk => ?_) _ s
  unfold State.quiesceImage
  rw [State.kerns_imageWrite]
  rfl

theorem State.kerns_preemptDone (c : Nat) : (s.preemptDone c).kerns = s.kerns := by
  unfold State.preemptDone
  split
  · rw [State.kerns_ctxEvent, State.kerns_modCtx]
    rotate_left
    · intro _; rfl
    split
    · exact s.kerns_quiesceImages c
    · rfl
  · rfl

theorem State.kerns_freeMmas (k : Nat) : (s.freeMmas k).kerns = s.kerns := rfl

theorem State.kerns_stopMmas (k : Nat) : (s.stopMmas k).kerns = s.kerns := by
  unfold State.stopMmas
  dsimp only
  split <;> rfl

theorem State.kerns_foldl_modGrp (F : Group → Group) (ks : List Nat) : (ks.foldl (fun s k => s.modGrp k F) s).kerns = s.kerns :=
  foldl_unchanged State.kerns (f := fun s k => s.modGrp k F) (fun _ _ => rfl) ks s

theorem State.kerns_askStop (tk : Nat) (r : StopReason) (force : Bool) : (s.askStop tk r force).kerns = s.kerns := by
  unfold State.askStop
  dsimp only
  split
  · rfl
  · generalize hF : (fun g : Group => if force = true then { g with stopReq := some r }
      else if g.stopReq = some .castling then { g with stopReq := none } else g) = F
    clear hF
    split
    · rw [foldl_unchanged State.kerns State.kerns_freeMmas]
      exact State.kerns_foldl_modGrp ..
    · split
      · exact State.kerns_foldl_modGrp ..
      · rw [foldl_unchanged State.kerns State.kerns_stopMmas]
        exact State.kerns_foldl_modGrp ..

theorem State.kerns_preempt (c : Nat) : (s.preempt c).kerns = s.kerns := by
  unfold State.preempt
  dsimp only
  refine (foldl_unchanged State.kerns (fun s _ => s.kerns_askStop ..) _ _).trans ?_
  exact s.kerns_modCtx c fun _ => rfl

theorem Queue.close_recs (q : Queue) (t : Word) : (q.close t).recs = q.recs := by
  unfold Queue.close
  split
  · rfl
  · split <;> rfl

/-- A kernel whose queues close at a time. -/
def Kern.closeQueues (t : Word) (k : Kern) : Kern := { k with queues := k.queues.map fun q => q.close t }

/-- A context that faults closes its queues and keeps their records (R305). -/
theorem State.recAt_enterFault (c d kn n key : Nat) : (s.enterFault c).recAt d kn n key = s.recAt d kn n key := by
  have hfold (l : List (Nat × Team)) (t : State) : (l.foldl (fun s e => (s.groupsOf e.1).foldl (fun s k => s.modGrp k fun g =>
      if g.st = .ready || g.st = .held then { g with holdReq := true } else g) s) t).kerns = t.kerns :=
    foldl_unchanged State.kerns (fun t e => t.kerns_foldl_modGrp _ _) l t
  unfold State.enterFault
  dsimp only
  rw [State.recAt_of_kerns (State.kerns_ctxEvent ..), State.recAt_of_kerns (hfold _ _)]
  unfold State.recAt State.queue State.kern
  rw [State.ctx_modCtx]
  split
  next h =>
    subst h
    have hkern := smGet_map (F := Kern.closeQueues s.time) (d := {}) (d' := {}) rfl (s.ctx d).kerns kn
    dsimp only [Kern.closeQueues] at hkern ⊢
    rw [hkern, List.getElem?_map]
    cases (smGet {} (s.ctx d).kerns kn).queues[n]? with
    | none => rfl
    | some q => exact congrArg (smGet none · key) (q.close_recs s.time)
  · rfl

/-- Whatever state a context comes to, its queues keep their records (R305, R306). -/
theorem State.recAt_ctxSettle (c d kn n key : Nat) : (s.ctxSettle c).recAt d kn n key = s.recAt d kn n key := by
  have hset (st : CtxState) : (s.setCtxSt c st).kerns = s.kerns := s.kerns_modCtx c fun _ => rfl
  unfold State.ctxSettle
  dsimp only
  split
  · exact State.recAt_of_kerns (s.kerns_preemptDone c) ..
  split
  · rfl
  split
  · exact State.recAt_of_kerns (hset _) ..
  have hsettled : ∀ u, u = (if (s.teamsOf c).any fun e => e.2.resident then s.setCtxSt c .running
      else s.setCtxSt c (if s.workDue c then .runnable else .loaded)) → u.kerns = s.kerns := by
    rintro _ rfl
    split <;> exact hset _
  generalize (if (s.teamsOf c).any fun e => e.2.resident then s.setCtxSt c .running
      else s.setCtxSt c (if s.workDue c then .runnable else .loaded)) = u at hsettled ⊢
  have hu := hsettled u rfl
  split
  · rw [State.recAt_enterFault, State.recAt_of_kerns hu]
  split
  · have hmod : (u.modCtx c fun x => { x with pending := false }).kerns = u.kerns := u.kerns_modCtx c fun _ => rfl
    refine State.recAt_of_kerns ?_ d kn n key
    rw [State.kerns_preemptDone, State.kerns_preempt, hmod, hu]
  · rw [State.recAt_of_kerns hu]

end

end Sys2Proof.Machine
end

section
/-!
RULES of quiet contexts for O51: a context that neither stops, nor faults, nor waits to stop only changes its own state when it settles (R304);
what the events of queues leave of the groups, teams and contexts that they do not name.
-/

namespace Sys2Proof.Machine

section
variable {s : State} {c : Nat}

/-- A context without a fault or a stop to come. -/
structure State.Quiet (s : State) (c : Nat) : Prop where
  fault : (s.ctx c).pendFault = false
  pending : (s.ctx c).pending = false
  stops : (s.ctx c).stops = false

/-- A quiet context that settles changes at most its own state. -/
theorem State.ctxSettle_of_quiet (h : s.Quiet c) : s.ctxSettle c = s ∨ ∃ st, s.ctxSettle c = s.setCtxSt c st := by
  obtain ⟨hfault, hpend, hstops⟩ := h
  unfold State.ctxSettle
  dsimp only
  rw [hfault, hpend, hstops, if_neg Bool.false_ne_true]
  split
  · exact .inl rfl
  · split
    · exact .inr ⟨_, rfl⟩
    · rw [if_neg Bool.false_ne_true, if_neg Bool.false_ne_true]
      split
      · exact .inr ⟨_, rfl⟩
      · exact .inr ⟨_, rfl⟩

/-- What does not read the state of a context is as it was after a quiet context has settled. -/
theorem State.ctxSettle_keeps {β : Type} (h : s.Quiet c) (φ : State → β) (hφ : ∀ st, φ (s.setCtxSt c st) = φ s) : φ (s.ctxSettle c) = φ s := by
  obtain heq | ⟨st, heq⟩ := State.ctxSettle_of_quiet h
  · rw [heq]
  · rw [heq, hφ]

theorem State.runs_setCtxSt (d : Nat) (st : CtxState) : ((s.setCtxSt c st).ctx d).runs = (s.ctx d).runs := by
  unfold State.setCtxSt
  rw [State.ctx_modCtx]
  split
  next h => rw [h]
  · rfl

theorem State.stops_of_loaded (h : (s.ctx c).st = .loaded ∨ (s.ctx c).st = .saved) : (s.ctx c).stops = false := by
  unfold Ctx.stops
  obtain h | h := h <;> rw [h] <;> rfl

theorem State.stops_of_active (h : (s.ctx c).st = .runnable ∨ (s.ctx c).st = .running) : (s.ctx c).stops = false := by
  unfold Ctx.stops
  obtain h | h := h <;> rw [h] <;> rfl

/-- A context stays quiet while only its kernels and runs change. -/
theorem State.Quiet.of_ctx {t : State} (h : s.Quiet c) {kerns : SMap Kern} {runs : List Run} (ht : t.ctx c = { s.ctx c with kerns, runs }) :
    t.Quiet c := by
  obtain ⟨hfault, hpend, hstops⟩ := h
  unfold Ctx.stops at hstops
  constructor
  · rw [ht]; exact hfault
  · rw [ht]; exact hpend
  · unfold Ctx.stops
    rw [ht]
    exact hstops

end

/-! ### Groups changed alike -/

/-- The groups of a list that change alike, each as often as it stands there, by a change that a second one does not add to. -/
theorem State.grp_foldl_modGrp (F : Word → Group → Group) (hF : ∀ t g, F t (F t g) = F t g) (ks : List Nat) (s : State) (k : Nat) :
    (ks.foldl (fun s k => s.modGrp k (F s.time)) s).grp k = if k ∈ ks then F s.time (s.grp k) else s.grp k := by
  induction ks generalizing s with
  | nil => rfl
  | cons j ks ih =>
    rw [List.foldl_cons, ih, State.grp_modGrp]
    show (if k ∈ ks then F s.time _ else _) = _
    by_cases hk : k = j
    · subst hk
      rw [if_pos rfl, hF, ite_self, if_pos List.mem_cons_self]
    · simp only [hk, List.mem_cons, false_or, if_false]

theorem State.kept_foldl_modGrp {β : Type} (φ : State → β) (F : Word → Group → Group) (hφ : ∀ s k G, φ (s.modGrp k G) = φ s) (ks : List Nat)
    (s : State) : φ (ks.foldl (fun s k => s.modGrp k (F s.time)) s) = φ s :=
  foldl_unchanged φ (f := fun s k => s.modGrp k (F s.time)) (fun s k => hφ s k _) ks s

/-! ### Timers and reopening (R270, R272) -/

/-- A queue that reopens is open. -/
theorem Queue.reopen_closed (q : Queue) (t : Word) : (q.reopen t).closed = false := by
  unfold Queue.reopen
  split
  next h => exact Bool.not_eq_true' _ |>.mp h
  · dsimp only
    split <;> rfl

section
variable {s : State} {c kn n : Nat} (hn : n < (s.kern c kn).queues.length)
include hn

theorem queueTimerExpiry_expires {x : Word} (hst : s.stage = .closing) (hx : (s.queue c kn n).timer = some x)
    (hdue : x.toNat ≤ s.time.toNat) (hopen : (s.queue c kn n).closed = false) :
    Completes (.queueTimerExpiry c kn n) s fun t => (t.queue c kn n).expired = true ∧ (t.queue c kn n).timer = none := by
  refine ⟨_, rfl, ?_⟩
  dsimp only
  rw [if_neg (by rw [hst]; decide), State.queue_modQueue _ _ _ _ hn, hx]
  dsimp only
  rw [hopen, if_pos (by simpa using hdue)]
  exact ⟨rfl, rfl⟩

theorem queueReopen_opens (hctx : (s.ctx c).st = .loaded ∨ (s.ctx c).st = .saved) (hfault : (s.ctx c).pendFault = false)
    (hpend : (s.ctx c).pending = false) : Completes (.queueReopen c kn n) s fun t => (t.queue c kn n).closed = false := by
  refine ⟨_, rfl, ?_⟩
  have hquiet : s.Quiet c := ⟨hfault, hpend, State.stops_of_loaded hctx⟩
  obtain ⟨kerns, hkerns⟩ := s.ctx_modQueue c kn n (fun q => q.reopen s.time) c
  dsimp only
  rw [State.queue_of_kerns (State.ctxSettle_keeps (hquiet.of_ctx hkerns) State.kerns fun st => State.kerns_modCtx _ _ fun _ => rfl),
    State.queue_modQueue _ _ _ _ hn]
  exact Queue.reopen_closed ..

end

/-! ### Wakes (R123) -/

/-- What a wake makes of a group at a time. -/
def wokenAt (time : Word) (g : Group) : Group :=
  if g.sleepEnd.isSome then
    let g := g.endSleep
    if g.st = .held && g.hold = .sleep then { g with st := .ready, hold := .none, lastReady := time } else g
  else g

theorem endSleep_held (g : Group) : g.endSleep.st = g.st ∧ g.endSleep.hold = g.hold := by
  unfold Group.endSleep
  split
  · exact ⟨rfl, rfl⟩
  · unfold Group.lowerSb
    split <;> exact ⟨rfl, rfl⟩

theorem endSleep_sleepEnd (g : Group) : g.endSleep.sleepEnd = none := by
  unfold Group.endSleep
  split
  next h => exact Option.isNone_iff_eq_none.mp h
  · unfold Group.lowerSb
    split <;> rfl

theorem wokenAt_sleepEnd (time : Word) (g : Group) : (wokenAt time g).sleepEnd = none := by
  unfold wokenAt
  split
  · dsimp only
    split
    · exact endSleep_sleepEnd g
    · exact endSleep_sleepEnd g
  next h => exact Option.not_isSome_iff_eq_none.mp h

theorem wokenAt_wokenAt (time : Word) (g : Group) : wokenAt time (wokenAt time g) = wokenAt time g := by
  have hend := wokenAt_sleepEnd time g
  generalize wokenAt time g = h at hend ⊢
  unfold wokenAt
  rw [hend]
  rfl

theorem wakeEvent_wakes {s : State} {tk : Nat} (htk : tk ∈ s.wakes) : Completes (.wakeEvent tk) s fun t => t.wakes = s.wakes.erase tk
    ∧ ∀ k ∈ s.groupsOf tk, (s.grp k).st = .held → (s.grp k).hold = .sleep → (s.grp k).sleepEnd.isSome = true →
        (t.grp k).st = .ready ∧ (t.grp k).sleepEnd = none := by
  refine ⟨_, rfl, ?_⟩
  rw [if_pos (List.contains_iff_mem.mpr htk)]
  refine ⟨State.kept_foldl_modGrp State.wakes wokenAt (fun _ _ _ => rfl) _ _, fun k hk hst hhold hsleep => ?_⟩
  have hgrp : (({ s with wakes := s.wakes.erase tk } : State).wakeTeam tk).grp k = wokenAt s.time (s.grp k) :=
    (State.grp_foldl_modGrp wokenAt wokenAt_wokenAt (s.groupsOf tk) _ k).trans (if_pos hk)
  rw [hgrp]
  refine ⟨?_, wokenAt_sleepEnd ..⟩
  have hend : (s.grp k).endSleep.st = (s.grp k).st ∧ (s.grp k).endSleep.hold = (s.grp k).hold := endSleep_held _
  unfold wokenAt
  rw [if_pos hsleep]
  dsimp only
  rw [hend.1, hend.2, hst, hhold]
  rfl

/-! ### A started team issues (R275, R301; log 80) -/

theorem acquire_keeps (s : State) (core : Nat) :
    ((s.acquire core 3).groups, (s.acquire core 3).teams, (s.acquire core 3).ctxs, (s.acquire core 3).time) = (s.groups, s.teams, s.ctxs, s.time) := rfl

theorem teamStart_waits {s : State} {tk : Nat} (hwait : ∃ k ∈ s.groupsOf tk, (s.core (coreOf k)).wait = true) :
    Completes (.teamStart tk) s fun t => t = s := by
  refine ⟨_, rfl, ?_⟩
  have hany : ((s.groupsOf tk).any fun k => (s.core (coreOf k)).wait) = true := List.any_eq_true.mpr hwait
  dsimp only
  rw [hany, Bool.or_true, if_pos rfl]

/-- The groups of a team that becomes ready. -/
def readyAt (time : Word) (g : Group) : Group := { g with lastReady := time }

theorem readyAt_fields {time : Word} {g h : Group} (e : h = readyAt time g) : h.st = g.st ∧ h.lastReady = time := by
  subst e
  exact ⟨rfl, rfl⟩

theorem teamStart_starts {s : State} {tk : Nat} (hst : (s.team tk).st = .starting)
    (hctx : (s.ctx (s.team tk).ctx).st = .runnable ∨ (s.ctx (s.team tk).ctx).st = .running) (hfault : (s.ctx (s.team tk).ctx).pendFault = false)
    (hpend : (s.ctx (s.team tk).ctx).pending = false) (hstop : ∀ k ∈ s.groupsOf tk, (s.grp k).stopReq = none)
    (hwait : ∀ k ∈ s.groupsOf tk, (s.core (coreOf k)).wait = false) :
    Completes (.teamStart tk) s fun t => (t.team tk).st = .resident
      ∧ ∀ k ∈ s.groupsOf tk, (t.grp k).st = (s.grp k).st ∧ (t.grp k).lastReady = s.time := by
  refine ⟨_, rfl, ?_⟩
  have hany : ((s.groupsOf tk).any fun k => (s.core (coreOf k)).wait) = false := List.any_eq_false.mpr fun k hk => by simp [hwait k hk]
  dsimp only
  rw [hany, Bool.or_false, if_neg (by rw [hst]; decide)]
  generalize hu : ((s.groupsOf tk).map coreOf).eraseDups.foldl (fun s c => s.acquire c 3) s = u
  have hkeep : (u.groups, u.teams, u.ctxs, u.time) = (s.groups, s.teams, s.ctxs, s.time) := by
    rw [← hu]
    exact foldl_unchanged (fun s : State => (s.groups, s.teams, s.ctxs, s.time)) acquire_keeps _ s
  simp only [Prod.mk.injEq] at hkeep
  obtain ⟨hgroups, hteams, hctxs, htime⟩ := hkeep
  have hgrp (k : Nat) : u.grp k = s.grp k := by unfold State.grp; rw [hgroups]
  have hteam (i : Nat) : u.team i = s.team i := by unfold State.team; rw [hteams]
  have huctx (d : Nat) : u.ctx d = s.ctx d := by unfold State.ctx; rw [hctxs]
  have hstops : (s.ctx (s.team tk).ctx).stops = false := State.stops_of_active hctx
  have hnone : ((s.groupsOf tk).any fun k => (u.grp k).stopReq.isSome) = false := List.any_eq_false.mpr fun k hk => by
    simp [hgrp, hstop k hk]
  rw [huctx, hstops, hnone, Bool.or_false, if_neg Bool.false_ne_true]
  generalize hv : u.modTeam tk (fun t => { t with st := .resident }) = v
  have hvtime : v.time = s.time := by rw [← hv, ← htime]; rfl
  have hvgrp (k : Nat) : v.grp k = s.grp k := by rw [← hgrp, ← hv]; rfl
  have hvteam : (v.team tk).st = .resident := by rw [← hv, State.team_modTeam, if_pos rfl]
  have hvctx (d : Nat) : v.ctx d = s.ctx d := by rw [← huctx, ← hv]; rfl
  have hready : ∀ F, F = readyAt → ((s.groupsOf tk).foldl (fun s k => s.modGrp k (F s.time)) v).Quiet (s.team tk).ctx := by
    rintro _ rfl
    have hctx' := (State.kept_foldl_modGrp (State.ctx · (s.team tk).ctx) readyAt (fun _ _ _ => rfl) (s.groupsOf tk) v).trans (hvctx _)
    constructor <;> rw [hctx'] <;> assumption
  have hquiet := hready _ rfl
  constructor
  · refine (congrArg Team.st (State.ctxSettle_keeps hquiet (State.team · tk) fun st => rfl)).trans ?_
    exact (congrArg Team.st (State.kept_foldl_modGrp (State.team · tk) readyAt (fun _ _ _ => rfl) _ v)).trans hvteam
  · intro k hk
    have hgrp' := (State.ctxSettle_keeps hquiet (State.grp · k) fun st => rfl).trans
      ((State.grp_foldl_modGrp readyAt (fun _ _ => rfl) (s.groupsOf tk) v k).trans (if_pos hk))
    rw [hvgrp, hvtime] at hgrp'
    exact readyAt_fields hgrp'

end Sys2Proof.Machine
end

section
/-!
RULES of windows and starts for O51: reads and writes of a team's window (R186), the runs of a context, and what a start makes of a team and
its groups (R275, R286, R301).
-/

namespace Sys2Proof.Machine

/-! ### Windows (R186) -/

/-- What a change of ECC words and scratchpad bytes leaves: the groups and the teams. -/
def State.crew (s : State) : SMap Group × SMap Team := (s.groups, s.teams)

theorem State.grp_of_crew {s t : State} (h : t.crew = s.crew) (k : Nat) : t.grp k = s.grp k :=
  congrArg (fun x : SMap Group × SMap Team => (smGet {} x.1 k : Group)) h

theorem State.team_of_crew {s t : State} (h : t.crew = s.crew) (i : Nat) : t.team i = s.team i :=
  congrArg (fun x : SMap Group × SMap Team => (smGet {} x.2 i : Team)) h

section
variable (s : State)

theorem State.crew_ctxCount (c : Nat) (i : Fin 8) (n : Nat) : (s.ctxCount c i n).crew = s.crew := by
  unfold State.ctxCount
  split <;> rfl

theorem State.spad_ctxCount (c : Nat) (i : Fin 8) (n : Nat) : (s.ctxCount c i n).spad = s.spad := by
  unfold State.ctxCount
  split <;> rfl

theorem State.eccMeet_spad (c w : Nat) : (s.eccMeet c .spad w).crew = s.crew ∧ (s.eccMeet c .spad w).spad = s.spad := by
  unfold State.eccMeet
  dsimp only
  split
  · exact ⟨rfl, rfl⟩
  · rw [State.crew_ctxCount, State.spad_ctxCount]
    exact ⟨rfl, rfl⟩
  · rw [State.crew_ctxCount, State.spad_ctxCount]
    exact ⟨rfl, rfl⟩

/-- A read of a window answers the scratchpad's bytes and changes neither these nor the queues, groups and teams. -/
theorem State.spadRd_eq (tk off n : Nat) : ∃ t ps, s.spadRd tk off n = (t, memRead s.spad ((s.team tk).spadAddr off) n, ps)
    ∧ t.kerns = s.kerns ∧ t.crew = s.crew := by
  unfold State.spadRd State.rdStore
  generalize wordsOf ((s.team tk).spadAddr off) n = ws
  generalize (s.team tk).ctx = c
  have hspad := foldl_unchanged State.spad (fun s w => (s.eccMeet_spad c w).2) ws s
  have hcrew := foldl_unchanged State.crew (fun s w => (s.eccMeet_spad c w).1) ws s
  have hkerns := foldl_unchanged State.kerns (fun s w => s.kerns_eccMeet c .spad w) ws s
  exact ⟨_, _, Prod.ext rfl (Prod.ext (congrArg (memRead · _ n) hspad) rfl), hkerns, hcrew⟩

/-- A write into a window leaves the queues, groups and teams. -/
theorem State.kerns_spadWr (tk off : Nat) (bs : List Byte) (ps : List Bool) : (s.spadWr tk off bs ps).kerns = s.kerns :=
  (State.kerns_of_ctxs (by unfold State.spadWr; rfl)).trans (s.kerns_wrStore (s.team tk).ctx .spad (wbytes ((s.team tk).spadAddr off) bs ps))

theorem State.wrStore_spad (c : Nat) (bs : List WByte) :
    (s.wrStore c .spad bs).crew = s.crew ∧ (s.wrStore c .spad bs).spad = memPut s.spad bs := by
  unfold State.wrStore
  generalize (bs.map fun b => b.1 / 8).eraseDups = ws
  have hfold := foldl_unchanged (fun s : State => (s.crew, s.spad)) (f := fun s w =>
    if 8 ≤ bs.countP (fun b => b.1 / 8 = w) then { s with ecc := smSet 0 s.ecc (2 ^ 60 * Store.spad.num + w) 0 } else s.eccMeet c .spad w)
    (fun s w => by
      split
      · rfl
      · rw [(s.eccMeet_spad c w).1, (s.eccMeet_spad c w).2]) ws s
  obtain ⟨hcrew, hspad⟩ := Prod.mk.inj hfold
  exact ⟨hcrew, congrArg (memPut · bs) hspad⟩

theorem State.crew_spadWr (tk off : Nat) (bs : List Byte) (ps : List Bool) : (s.spadWr tk off bs ps).crew = s.crew :=
  (s.wrStore_spad _ _).1

/-- The bytes of a window after a write. -/
theorem State.memGet_spadWr (tk off : Nat) (bs : List Byte) (ps : List Bool) {j : Nat} {b : Byte} (h : bs[j]? = some b) :
    memGet (s.spadWr tk off bs ps).spad ((s.team tk).spadAddr off + j) = b := by
  have hspad : (s.spadWr tk off bs ps).spad = memPut s.spad (wbytes ((s.team tk).spadAddr off) bs ps) := (s.wrStore_spad _ _).2
  rw [hspad]
  exact memGet_memPut _ _ _ _ h

end

end Sys2Proof.Machine
end

section
/-!
RULES of runs and starts for O51: the open runs of a context (R273, R286), and what a start makes of a team and its groups (R275, R301).
-/

namespace Sys2Proof.Machine

/-! ### Runs -/

/-- A run found in a list whose runs have changed and kept their identifiers. -/
theorem find?_run_map {F : Run → Run} (hF : ∀ r, (F r).grid = r.grid) (l : List Run) (grid : BitVec 32) :
    (l.map F).find? (fun r => r.grid = grid) = (l.find? fun r => r.grid = grid).map F := by
  rw [List.find?_map]
  refine congrArg (Option.map F) (congrArg (List.find? · l) (funext fun r => ?_))
  exact congrArg (fun g => decide (g = grid)) (hF r)

section
variable (s : State) (c : Nat)

/-- The run of an identifier after a change of it. -/
theorem State.run?_modRun {r : Run} {F : Run → Run} (hF : ∀ r, (F r).grid = r.grid) (h : s.run? c r.grid = some r) :
    (s.modRun c r.grid F).run? c r.grid = some (F r) := by
  unfold State.run? State.modRun at *
  rw [State.ctx_modCtx, if_pos rfl]
  refine (find?_run_map (F := fun x => if x.grid = r.grid then F x else x) (fun x => ?_) _ _).trans ?_
  · split
    · exact hF x
    · rfl
  · rw [h]
    exact congrArg some (if_pos rfl)

theorem State.ctx_modRun (grid : BitVec 32) (F : Run → Run) : ∃ runs, (s.modRun c grid F).ctx c = { s.ctx c with runs } :=
  ⟨_, (State.ctx_modCtx ..).trans (if_pos rfl)⟩

end

/-! ### A start (R275, R301) -/

section
variable (s : State) (c kn node : Nat) (r : Run) (set : Nat × List Nat × Nat) (teamid s2 depth : Nat)

/-- The team that a start makes. -/
def startedTeam : Team :=
  { st := .starting, ctx := c, grid := r.grid, teamid := BitVec.ofNat 32 teamid, kern := kn, node, site := siteOf (set.2.1.headD 0), wbase := set.2.2
    wsize := ((s.kern c kn).spad + 63) / 64 * 64, nbars := (s.kern c kn).nbars, slots := set.2.1, setNo := set.1 }

/-- What a start makes of a group of a kernel at a time. -/
def startedGroup (k : Kern) (d : CtxDescr) (r : Run) (teamid s2 depth : Nat) (time : Word) (g : Group) : Group :=
  let h := startGroup g.bind g.err k d time
  { ((((h.wrS 1 (.of r.addr)).wrS 2 (.of (BitVec.ofNat 64 s2))).wrS 3 (.of k.data)).wrS 4 (.of (BitVec.ofNat 64 r.n))) with
    teamid := BitVec.ofNat 32 teamid, gridid := r.grid, depth }

/-- What a start makes of a run of its context: the run of the team counts the cores of the team. -/
def startedRun (x : Run) : Run :=
  if x.grid = r.grid then { x with cores := set.2.1.foldl (fun l i => if l.contains (coreOf i) then l else coreOf i :: l) x.cores } else x

theorem startedRun_fields (x : Run) : (startedRun r set x).grid = x.grid ∧ (startedRun r set x).locals = x.locals := by
  unfold startedRun
  split <;> exact ⟨rfl, rfl⟩

variable (k : Kern) (d : CtxDescr) (time : Word)

theorem startedGroup_twice (g : Group) : startedGroup k d r teamid s2 depth time (startedGroup k d r teamid s2 depth time g)
    = startedGroup k d r teamid s2 depth time g := rfl

theorem startedGroup_team {g : Group} (hg : g.ctx = c) :
    (startedGroup k d r teamid s2 depth time g).team = teamKey c r.grid (BitVec.ofNat 32 teamid) :=
  congrArg (teamKey · r.grid (BitVec.ofNat 32 teamid)) hg

theorem startedGroup_rdS (g : Group) : (startedGroup k d r teamid s2 depth time g).rdS 1 = .of r.addr
    ∧ (startedGroup k d r teamid s2 depth time g).rdS 4 = .of (BitVec.ofNat 64 r.n) := by
  generalize hh : (startGroup g.bind g.err k d time).wrS 1 (.of r.addr) = h
  have hregs (n : Nat) : (startedGroup k d r teamid s2 depth time g).rdS n
      = (((h.wrS 2 (.of (BitVec.ofNat 64 s2))).wrS 3 (.of k.data)).wrS 4 (.of (BitVec.ofNat 64 r.n))).rdS n := by
    rw [← hh]
    rfl
  rw [hregs, hregs]
  simp [← hh]

theorem openWindow_keeps (tk : Nat) (zero : Bool) : ((s.openWindow tk zero).crew, (s.openWindow tk zero).ctxs, (s.openWindow tk zero).time)
    = (s.crew, s.ctxs, s.time) := by
  refine foldl_unchanged (fun s : State => (s.crew, s.ctxs, s.time)) (fun s i => ?_) _ s
  dsimp only
  split <;> rfl

/-- What a start makes of a quiet context's team, groups and runs. -/
theorem startTeam_started (hq : s.Quiet c) {t : State} (ht : s.startTeam c kn node r set teamid s2 depth = t) :
    t.team (teamKey c r.grid (BitVec.ofNat 32 teamid)) = startedTeam s c kn node r set teamid
      ∧ (∀ k ∈ set.2.1, t.grp k = startedGroup (s.kern c kn) (s.ctx c).desc r teamid s2 depth s.time (s.grp k))
      ∧ t.kerns = s.kerns ∧ (t.ctx c).runs = (s.ctx c).runs.map (startedRun r set) := by
  generalize htk : teamKey c r.grid (BitVec.ofNat 32 teamid) = tk
  generalize hw : (s.modTeam tk fun _ => startedTeam s c kn node r set teamid).openWindow tk (s.kern c kn).spadZero = w
  have hkeep := openWindow_keeps (s.modTeam tk fun _ => startedTeam s c kn node r set teamid) tk (s.kern c kn).spadZero
  rw [hw] at hkeep
  simp only [Prod.mk.injEq] at hkeep
  obtain ⟨hcrew, hctxs, htime⟩ := hkeep
  have hteam : w.team tk = startedTeam s c kn node r set teamid := by
    rw [State.team_of_crew hcrew, State.team_modTeam, if_pos rfl]
  have hctx : w.ctx c = s.ctx c := by
    unfold State.ctx
    rw [hctxs]
    rfl
  generalize hF : startedGroup (s.kern c kn) (w.ctx c).desc r teamid s2 depth = F
  have htwice (time : Word) (g : Group) : F time (F time g) = F time g := by rw [← hF]; exact startedGroup_twice ..
  generalize hv : set.2.1.foldl (fun u i => u.modGrp i (F u.time)) w = v
  have hvteam : v.team tk = w.team tk := by
    rw [← hv]
    exact State.kept_foldl_modGrp (State.team · tk) F (fun _ _ _ => rfl) _ w
  have hvctxs : v.ctxs = w.ctxs := by
    rw [← hv]
    exact State.kept_foldl_modGrp State.ctxs F (fun _ _ _ => rfl) _ w
  have hvgrp (k : Nat) (hk : k ∈ set.2.1) : v.grp k = F w.time (w.grp k) := by
    rw [← hv, State.grp_foldl_modGrp F htwice, if_pos hk]
  generalize hx : (v.modCtx c fun x => { x with runs := x.runs.map (startedRun r set) }) = x
  have heq : x.ctxSettle c = t := by
    rw [← ht, ← hx, ← hv, ← hF, ← hw, ← htk]
    rfl
  have hxctx : x.ctx c = { s.ctx c with runs := (s.ctx c).runs.map (startedRun r set) } := by
    have hvctx : v.ctx c = s.ctx c := by
      rw [← hctx]
      unfold State.ctx
      rw [hvctxs]
    rw [← hx, State.ctx_modCtx, if_pos rfl, hvctx]
  have hquiet : x.Quiet c := hq.of_ctx hxctx
  rw [← heq]
  refine ⟨?_, fun k hk => ?_, ?_, ?_⟩
  · rw [State.ctxSettle_keeps hquiet (State.team · tk) fun st => rfl, ← hteam, ← hvteam, ← hx]
    rfl
  · rw [State.ctxSettle_keeps hquiet (State.grp · k) fun st => rfl]
    have hxgrp : x.grp k = v.grp k := by rw [← hx]; rfl
    have hwtime : w.time = s.time := htime
    have hwgrp : w.grp k = s.grp k := State.grp_of_crew hcrew k
    rw [hxgrp, hvgrp k hk, hwtime, hwgrp, ← hF, hctx]
  · rw [State.ctxSettle_keeps hquiet State.kerns fun st => State.kerns_modCtx _ _ fun _ => rfl, ← hx]
    refine (State.kerns_modCtx v c (F := fun x => { x with runs := x.runs.map (startedRun r set) }) fun _ => rfl).trans ?_
    exact (State.kerns_of_ctxs (hvctxs.trans hctxs)).trans rfl
  · rw [State.ctxSettle_keeps hquiet (fun s => (s.ctx c).runs) fun st => State.runs_setCtxSt c st, hxctx]

end

/-- A context that may place a team on a site does not stop. -/
theorem State.stops_of_siteOpen {s : State} {c site : Nat} (h : s.siteOpen c site = true) : (s.ctx c).stops = false := by
  unfold State.siteOpen at h
  simp only [Bool.and_eq_true, Bool.or_eq_true, decide_eq_true_eq] at h
  obtain ⟨⟨hst, -⟩, -⟩ := h
  unfold Ctx.stops
  obtain ((hst | hst) | hst) | hst := hst <;> rw [hst] <;> rfl

/-- A context with a free bind set does not stop. -/
theorem State.stops_of_freeSet {s : State} {c kn node : Nat} {only : Option Nat} {set : Nat × List Nat × Nat}
    (h : s.freeSet c kn node only = some set) : (s.ctx c).stops = false := by
  unfold State.freeSet at h
  dsimp only at h
  obtain ⟨x, -, hx⟩ := List.exists_of_findSome?_eq_some h
  split at hx
  · cases hx
  · split at hx
    · cases hx
    next k0 _ =>
      split at hx
      · cases hx
      next hopen =>
        refine State.stops_of_siteOpen (site := siteOf k0) ?_
        simp only [Bool.or_eq_true, not_or, Bool.not_eq_true', Bool.not_eq_false] at hopen
        exact hopen.1.2

end Sys2Proof.Machine
end

section
/-!
RULES of launches for O51: a tile fetches grid indices and launches them (R286), and a launcher starts a team from eligible records
(R273 to R275).
-/

namespace Sys2Proof.Machine

/-! ### Grids (R286) -/

section
variable {s : State} {c site : Nat} {r : Run} (hrun : s.run? c r.grid = some r) (hrestore : s.restoring c = false)
include hrun hrestore

theorem gridCounterFetch_takes (hleft : r.counter < r.n) (hlocal : smGet [] r.locals site = [])
    (hfree : (s.freeSet c r.kern 0 (some site)).isSome = true) :
    Completes (.gridCounterFetch c r.grid.toNat site) s fun t => ∃ r', t.run? c r.grid = some r' ∧ r'.counter = r.counter + 8
      ∧ smGet [] r'.locals site = (List.range (min 8 (r.n - r.counter))).map fun i => r.counter + i := by
  have hgrid : BitVec.ofNat 32 r.grid.toNat = r.grid := (BitVec.ofNat_toNat ..).trans (BitVec.setWidth_eq _)
  refine ⟨_, rfl, ?_⟩
  dsimp only
  rw [hgrid, hrun]
  dsimp only
  rw [if_neg (by simp [hrestore, hlocal, Option.isSome_iff_ne_none.mp hfree, hleft])]
  refine ⟨_, State.run?_modRun s c (fun _ => rfl) hrun, rfl, ?_⟩
  dsimp only
  rw [smGet_smSet, if_pos rfl]
  have hn : min (r.counter + 8) r.n - r.counter = min 8 (r.n - r.counter) := by omega
  rw [hn]

theorem gridTeamLaunch_starts {i : Nat} {rest : List Nat} {set : Nat × List Nat × Nat} (hfree : s.freeSet c r.kern 0 (some site) = some set)
    (hsaved : r.saved = []) (hlocal : smGet [] r.locals site = i :: rest) (hks : ∀ k ∈ set.2.1, (s.grp k).ctx = c)
    (hfault : (s.ctx c).pendFault = false) (hpend : (s.ctx c).pending = false) :
    let tk := teamKey c r.grid (BitVec.ofNat 32 i)
    Completes (.gridTeamLaunch c r.grid.toNat site) s fun t => (t.team tk).st = .starting ∧ (t.team tk).slots = set.2.1
      ∧ (∃ r', t.run? c r.grid = some r' ∧ smGet [] r'.locals site = rest)
      ∧ ∀ k ∈ set.2.1, (t.grp k).st = .ready ∧ (t.grp k).team = tk
          ∧ (t.grp k).rdS 1 = .of r.addr ∧ (t.grp k).rdS 4 = .of (BitVec.ofNat 64 r.n) := by
  have hgrid : BitVec.ofNat 32 r.grid.toNat = r.grid := (BitVec.ofNat_toNat ..).trans (BitVec.setWidth_eq _)
  refine ⟨_, rfl, ?_⟩
  dsimp only
  rw [hgrid, hrun]
  dsimp only
  rw [hrestore, if_neg Bool.false_ne_true, hfree, hsaved, hlocal]
  dsimp only
  generalize hu : (s.modRun c r.grid fun r => { r with locals := smSet [] r.locals site rest }) = u
  have hquiet : s.Quiet c := ⟨hfault, hpend, State.stops_of_freeSet hfree⟩
  obtain ⟨runs, hruns⟩ := s.ctx_modRun c r.grid fun r => { r with locals := smSet [] r.locals site rest }
  rw [hu] at hruns
  have hurun : u.run? c r.grid = some { r with locals := smSet [] r.locals site rest } := by
    rw [← hu]
    exact State.run?_modRun s c (fun _ => rfl) hrun
  have hgrp (k : Nat) : u.grp k = s.grp k := by rw [← hu]; rfl
  generalize ht : u.startTeam c r.kern 0 r set i 0 0 = t
  obtain ⟨hteam, hgroups, -, htruns⟩ := startTeam_started u c r.kern 0 r set i 0 0 (hquiet.of_ctx hruns) ht
  refine ⟨?_, ?_, ?_, fun k hk => ?_⟩
  · rw [hteam]; rfl
  · rw [hteam]; rfl
  · unfold State.run? at hurun ⊢
    rw [htruns, find?_run_map (fun x => (startedRun_fields r set x).1), hurun]
    refine ⟨_, rfl, ?_⟩
    rw [(startedRun_fields ..).2]
    exact (smGet_smSet ..).trans (if_pos rfl)
  · rw [hgroups k hk, hgrp]
    exact ⟨rfl, startedGroup_team _ _ _ _ _ _ _ _ (hks k hk), startedGroup_rdS ..⟩

end

/-! ### Launchers (R273 to R275) -/

section
variable (s : State) (c kn n : Nat)

/-- A change of a queue that keeps a record keeps it in the state. -/
theorem State.recAt_modQueue_kept {F : Queue → Queue} {key : Nat} (hF : ∀ q, (F q).rec? key = q.rec? key) :
    (s.modQueue c kn n F).recAt c kn n key = s.recAt c kn n key := by
  unfold State.recAt State.queue
  rw [State.queues_modQueue]
  cases (s.kern c kn).queues[n]? with
  | none => rfl
  | some q =>
    rw [Option.map_some, if_pos rfl]
    exact hF q

/-- A record that has left its slot is not there, and its context has only other kernels. -/
theorem State.freeRec_frees (key : Nat) : (s.freeRec c kn n key).recAt c kn n key = none
    ∧ (∃ kerns, (s.freeRec c kn n key).ctx c = { s.ctx c with kerns }) ∧ (s.freeRec c kn n key).groups = s.groups := by
  unfold State.freeRec
  split
  next hnone => exact ⟨hnone, ⟨_, rfl⟩, rfl⟩
  next r hr =>
    have hfree : (s.modQueue c kn n fun q => { q.setRec key none with gens := smMod 0 q.gens key (· + 1) }).recAt c kn n key = none := by
      rw [State.recAt_modQueue _ _ _ _ (State.lt_of_recAt s c kn n hr)]
      exact (Queue.rec_setRec (s.queue c kn n) key key none).trans (if_pos rfl)
    obtain ⟨kerns, hkerns⟩ := s.ctx_modQueue c kn n (fun q => { q.setRec key none with gens := smMod 0 q.gens key (· + 1) }) c
    dsimp only
    split
    · exact ⟨hfree, ⟨kerns, hkerns⟩, rfl⟩
    · exact ⟨hfree, ⟨kerns, hkerns⟩, rfl⟩

end

theorem State.kerns_modRun (s : State) (c : Nat) (grid : BitVec 32) (F : Run → Run) : (s.modRun c grid F).kerns = s.kerns :=
  s.kerns_modCtx c (F := fun x => { x with runs := x.runs.map fun r => if r.grid = grid then F r else r }) fun _ => rfl

theorem Queue.arm_recs (q : Queue) (t : Nat) (now : Word) : (q.arm t now).recs = q.recs := by
  unfold Queue.arm
  split <;> rfl

theorem Queue.taken_recs (q : Queue) (d : NodeDecl) (now : Word) : (q.taken d now).recs = q.recs := by
  unfold Queue.taken
  dsimp only
  split
  · rfl
  · split
    · exact q.arm_recs ..
    · rfl

section
variable {s : State} {c kn n : Nat} {r : Run} {set : Nat × List Nat × Nat} {e : Nat × Rec}

/-- What a launch does whose record is the only one eligible (R273, R274). -/
theorem execTeamLaunch_single (horder : (s.queue c kn n).order = [e]) (hopen : (s.queue c kn n).closed = false) (hst : s.stage = .closing)
    (hlaunched : (s.queue c kn n).launched ≠ some s.time) (hrestore : s.restoring c = false) (hnode : n < (s.kern c kn).nodes.length)
    (hwait : s.waiting (s.queue c kn n) = []) (hk : 1 ≤ ((s.kern c kn).node n).k)
    (hdue : ((s.kern c kn).node n).k = 1 ∨ (s.queue c kn n).expired = true) (hrun : s.nodeRun c kn = some r)
    (hfree : s.freeSet c kn n none = some set) : exec (.teamLaunch c kn n) s = .next (State.spadWr (State.startTeam
      (((s.freeRec c kn n e.1).modQueue c kn n fun q => { q.taken ((s.kern c kn).node n) (s.freeRec c kn n e.1).time with
        launched := some (s.freeRec c kn n e.1).time }).modRun c r.grid fun r => { r with counter := r.counter + 1 })
      c kn n r set r.counter 1 (max 0 e.2.depth)) (teamKey c r.grid (BitVec.ofNat 32 r.counter)) (0 * ((s.kern c kn).node n).size)
      e.2.bytes.1 e.2.bytes.2) := by
  show execTeamLaunch c kn n s = _
  unfold execTeamLaunch
  dsimp only
  have hdue' : 1 < ((s.kern c kn).node n).k → (s.queue c kn n).expired = true := fun h => hdue.resolve_left (Nat.ne_of_gt h)
  rw [horder, if_neg (by simpa [hst, hlaunched, hopen, hrestore, hnode, hwait] using hdue'), hrun, hfree]
  dsimp only
  rw [List.take_of_length_le (by simpa using hk)]
  rfl

theorem teamLaunch_starts (horder : (s.queue c kn n).order = [e]) (hopen : (s.queue c kn n).closed = false) (hst : s.stage = .closing)
    (hlaunched : (s.queue c kn n).launched ≠ some s.time) (hrestore : s.restoring c = false) (hnode : n < (s.kern c kn).nodes.length)
    (hwait : s.waiting (s.queue c kn n) = []) (hk : 1 ≤ ((s.kern c kn).node n).k)
    (hdue : ((s.kern c kn).node n).k = 1 ∨ (s.queue c kn n).expired = true) (hrun : s.nodeRun c kn = some r)
    (hfree : s.freeSet c kn n none = some set) (hks : ∀ k ∈ set.2.1, (s.grp k).ctx = c) (hfault : (s.ctx c).pendFault = false)
    (hpend : (s.ctx c).pending = false) :
    let tk := teamKey c r.grid (BitVec.ofNat 32 r.counter)
    Completes (.teamLaunch c kn n) s fun t => (t.queue c kn n).rec? e.1 = none ∧ (t.team tk).st = .starting ∧ (t.team tk).node = n
      ∧ (t.team tk).slots = set.2.1 ∧ (∀ k ∈ set.2.1, (t.grp k).st = .ready ∧ (t.grp k).team = tk)
      ∧ ∀ (j : Nat) (b : Byte), e.2.bytes.1[j]? = some b → memGet t.spad ((t.team tk).spadAddr 0 + j) = b := by
  refine ⟨_, execTeamLaunch_single horder hopen hst hlaunched hrestore hnode hwait hk hdue hrun hfree, ?_⟩
  dsimp only
  generalize htk : teamKey c r.grid (BitVec.ofNat 32 r.counter) = tk
  obtain ⟨hrec, ⟨_, hctx⟩, hgroups⟩ := s.freeRec_frees c kn n e.1
  generalize s.freeRec c kn n e.1 = u at hrec hctx hgroups ⊢
  generalize hv : (u.modQueue c kn n fun q => { q.taken ((s.kern c kn).node n) u.time with launched := some u.time }) = v
  have hvrec : v.recAt c kn n e.1 = none := by
    rw [← hv, State.recAt_modQueue_kept _ _ _ _ fun q => ?_, hrec]
    exact congrArg (smGet none · e.1) (q.taken_recs ..)
  obtain ⟨_, hvctx⟩ := u.ctx_modQueue c kn n (fun q => { q.taken ((s.kern c kn).node n) u.time with launched := some u.time }) c
  generalize hw : (v.modRun c r.grid fun r => { r with counter := r.counter + 1 }) = w
  obtain ⟨_, hwctx⟩ := v.ctx_modRun c r.grid fun r => { r with counter := r.counter + 1 }
  rw [hv] at hvctx
  rw [hw, hvctx, hctx] at hwctx
  have hwrec : w.recAt c kn n e.1 = none := by
    rw [← hw, ← hvrec]
    exact State.recAt_of_kerns (State.kerns_modRun ..) ..
  have hwgrp (k : Nat) : w.grp k = s.grp k := by
    have hukeep : w.grp k = u.grp k := by
      rw [← hw, ← hv]
      rfl
    unfold State.grp at hukeep ⊢
    rw [hukeep, hgroups]
  have hquiet : s.Quiet c := ⟨hfault, hpend, State.stops_of_freeSet hfree⟩
  generalize ht : w.startTeam c kn n r set r.counter 1 (max 0 e.2.depth) = t
  obtain ⟨hteam, hstarted, hkerns, -⟩ := startTeam_started w c kn n r set r.counter 1 (max 0 e.2.depth) (hquiet.of_ctx hwctx) ht
  rw [htk] at hteam
  have hcrew := t.crew_spadWr tk (0 * ((s.kern c kn).node n).size) e.2.bytes.1 e.2.bytes.2
  simp only [State.team_of_crew hcrew, State.grp_of_crew hcrew]
  refine ⟨?_, ?_, ?_, ?_, fun k hk => ?_, fun j b hj => ?_⟩
  · exact (State.recAt_of_kerns ((t.kerns_spadWr ..).trans hkerns) ..).trans hwrec
  · rw [hteam]; rfl
  · rw [hteam]; rfl
  · rw [hteam]; rfl
  · rw [hstarted k hk, hwgrp, ← htk]
    exact ⟨rfl, startedGroup_team _ _ _ _ _ _ _ _ (hks k hk)⟩
  · rw [Nat.zero_mul]
    exact t.memGet_spadWr tk 0 _ _ hj

end

end Sys2Proof.Machine
end

section
/-!
RULES of queue operations at their homes for O51: a home reserves the records of the lanes that it checks (R277).
-/

namespace Sys2Proof.Machine

/-! ### Reserved records (R277) -/

/-- A record that an operation holds. -/
def Rec.held (id : Nat) (r : Rec) : Rec := { r with lock := some id }

/-- A home reserves the record of a lane for an operation. -/
def State.reserve (s : State) (c kn id : Nat) (x : QLane) : State :=
  s.modQueue c kn (handleNode x.handle) fun q => q.setRec (handleKey x.handle) ((q.rec? (handleKey x.handle)).map (Rec.held id))

/-- The record that a lane of an operation names. -/
def State.recOf (s : State) (c kn : Nat) (x : QLane) : Option Rec := s.recAt c kn (handleNode x.handle) (handleKey x.handle)

section
variable (s : State) (c kn id : Nat)

/-- The record of a lane after the reservation for another, which may name the same record. -/
theorem State.recOf_reserve (x y : QLane) : (s.reserve c kn id x).recOf c kn y = (s.recOf c kn y).map fun r =>
    if handleNode y.handle = handleNode x.handle ∧ handleKey y.handle = handleKey x.handle then r.held id else r := by
  unfold State.recOf State.recAt State.reserve State.queue
  rw [State.queues_modQueue]
  cases (s.kern c kn).queues[handleNode y.handle]? with
  | none => rfl
  | some q =>
    dsimp only [Option.map_some, Option.getD_some]
    by_cases hn : handleNode y.handle = handleNode x.handle
    · rw [if_pos hn, Queue.rec_setRec]
      by_cases hk : handleKey y.handle = handleKey x.handle
      · simp [hn, hk]
      · simp [hk]
    · simp [hn]

/-- After the reservations of a list of lanes a record that was there and named, or was reserved before, is reserved. -/
theorem State.reserved_foldl (l : List QLane) (y : QLane)
    (h : (y ∈ l ∧ (s.recOf c kn y).isSome = true) ∨ ∃ r, s.recOf c kn y = some r ∧ r.lock = some id) :
    ∃ r, (l.foldl (fun s x => s.reserve c kn id x) s).recOf c kn y = some r ∧ r.lock = some id := by
  induction l generalizing s with
  | nil => simpa using h
  | cons x l ih =>
    refine ih _ ?_
    rw [State.recOf_reserve]
    obtain ⟨hy, hsome⟩ | ⟨r, hr, hlock⟩ := h
    · obtain ⟨r, hr⟩ := Option.isSome_iff_exists.mp hsome
      rw [hr]
      obtain rfl | hy := List.mem_cons.mp hy
      · exact .inr ⟨_, rfl, congrArg Rec.lock (if_pos ⟨rfl, rfl⟩)⟩
      · exact .inl ⟨hy, rfl⟩
    · rw [hr]
      refine .inr ⟨_, rfl, ?_⟩
      split
      · rfl
      · exact hlock

end

/-- The operation of an identifier after a change of it. -/
theorem State.op?_modOp {s : State} {id : Nat} {o : Op} {F : Op → Op} (hF : ∀ o, (F o).id = o.id) (h : s.op? id = some o) :
    (s.modOp id F).op? id = some (F o) := by
  have hid : o.id = id := by simpa using List.find?_some h
  unfold State.op? State.modOp at *
  dsimp only
  rw [List.find?_map]
  have hpred : ((fun o : Op => decide (o.id = id)) ∘ fun o => if o.id = id then F o else o) = fun o => decide (o.id = id) := by
    funext o
    dsimp only [Function.comp_apply]
    split
    next h => rw [hF]
    · rfl
  rw [hpred, h]
  exact congrArg some (if_pos hid)

theorem Queue.rec_of_lookup {q : Queue} {h : Word} {r : Rec} (hr : q.lookup h = some r) : q.rec? (handleKey h) = some r :=
  (Option.ite_none_right_eq_some.mp hr).2

/-- A home that finds no fault in a lane has its record. -/
theorem recOf_of_queueLaneFault {s : State} {c kn : Nat} {kind : QKind} {lanes : List QLane} {x : QLane}
    (h : queueLaneFault (s.queue c kn (handleNode x.handle)) kind lanes x = 0) : (s.recOf c kn x).isSome = true := by
  unfold queueLaneFault at h
  split at h
  · cases h
  next r hr =>
    exact Option.isSome_iff_exists.mpr ⟨r, Queue.rec_of_lookup hr⟩

theorem queueHomeCheck_reserves {s : State} {id home : Nat} {o : Op} {kind : QKind} (hop : s.op? id = some o) (hkind : o.q = some kind)
    (hnew : home ∉ o.checked) (hmine : ∃ x ∈ o.qlanes, s.qhome o x = home) (hway : s.cutBoth o.part (siteOf o.k) home = false)
    (hlanes : ∀ x ∈ o.qlanes, s.qhome o x = home →
      queueLaneFault (s.queue (o.team % 4096) (s.team o.team).kern (handleNode x.handle)) kind o.qlanes x = 0
        ∧ ∀ r, (s.queue (o.team % 4096) (s.team o.team).kern (handleNode x.handle)).lookup x.handle = some r → r.lock = none) :
    Completes (.queueHomeCheck id home) s fun t => (t.op? id).map (fun o => o.checked) = some (home :: o.checked)
      ∧ ∀ x ∈ o.qlanes, s.qhome o x = home → ∃ r, (t.queue (o.team % 4096) (s.team o.team).kern (handleNode x.handle)).rec?
          (handleKey x.handle) = some r ∧ r.lock = some id := by
  generalize hmineEq : o.qlanes.filter (fun x => s.qhome o x = home) = mine
  have hmem (x : QLane) : x ∈ mine ↔ x ∈ o.qlanes ∧ s.qhome o x = home := by rw [← hmineEq]; simp
  have hempty : mine.isEmpty = false := by
    obtain ⟨x, hx⟩ := hmine
    exact List.isEmpty_eq_false_iff_exists_mem.mpr ⟨x, (hmem x).mpr hx⟩
  have hfold : mine.foldl (fun t x =>
      if queueLaneFault (s.queue (o.team % 4096) (s.team o.team).kern (handleNode x.handle)) kind o.qlanes x != 0 then t
      else t.modQueue (o.team % 4096) (s.team o.team).kern (handleNode x.handle) fun q => q.setRec (handleKey x.handle)
        ((q.rec? (handleKey x.handle)).map fun r => { r with lock := some id })) s
      = mine.foldl (fun t x => t.reserve (o.team % 4096) (s.team o.team).kern id x) s := by
    refine List.foldl_ext _ _ _ fun t x hx => ?_
    obtain ⟨hx, hhome⟩ := (hmem x).mp hx
    rw [(hlanes x hx hhome).1]
    rfl
  generalize ht : mine.foldl (fun t x => t.reserve (o.team % 4096) (s.team o.team).kern id x) s = t at hfold
  refine ⟨_, rfl, ?_⟩
  dsimp only
  rw [hop]
  dsimp only
  rw [hkind]
  dsimp only
  rw [hmineEq, if_neg ?guard, hway, if_neg Bool.false_ne_true, hfold]
  case guard =>
    rw [hempty, List.contains_eq_mem, decide_eq_false hnew, Bool.false_or, Bool.false_or, Bool.not_eq_true, List.any_eq_false]
    intro x hx
    obtain ⟨hx, hhome⟩ := (hmem x).mp hx
    split
    next r hr => simp [(hlanes x hx hhome).2 r hr]
    · exact Bool.false_ne_true
  refine ⟨?_, fun x hx hhome => ?_⟩
  · have hops : t.ops = s.ops := by
      rw [← ht]
      exact foldl_unchanged State.ops (f := fun t x => t.reserve (o.team % 4096) (s.team o.team).kern id x) (fun _ _ => rfl) mine s
    have hopt : t.op? id = some o := by
      unfold State.op? at hop ⊢
      rw [hops, hop]
    rw [State.op?_modOp ?_ hopt]
    · rfl
    · exact fun _ => rfl
  · have hrec := s.reserved_foldl (o.team % 4096) (s.team o.team).kern id mine x
      (.inl ⟨(hmem x).mpr ⟨hx, hhome⟩, recOf_of_queueLaneFault (hlanes x hx hhome).1⟩)
    rw [ht] at hrec
    exact hrec

end Sys2Proof.Machine
end

section
/-!
RULES of queue operations as their homes apply them for O51: what an RCOMMIT, RFREE or RJOIN of one lane makes of its record (R280 to R282).
-/

namespace Sys2Proof.Machine

/-! ### Records that become eligible (R271) -/

theorem State.kerns_setWakes (s : State) (ts : List Nat) : ({ s with wakes := ts } : State).kerns = s.kerns :=
  State.kerns_of_ctxs (by dsimp only)

section
variable (s : State) (c kn n key : Nat)

/-- The record that becomes eligible is in its slot, eligible since now. -/
theorem State.recAt_makeElig {r : Rec} (hr : s.recAt c kn n key = some r) :
    (s.makeElig c kn n key).recAt c kn n key = some { r with elig := true, etime := s.time } := by
  have hrec : (s.queue c kn n).rec? key = some r := hr
  unfold State.makeElig
  dsimp only
  rw [State.recAt_ctxSettle]
  rw [State.recAt_of_kerns (State.kerns_setWakes ..)]
  rw [State.recAt_modQueue _ _ _ _ (s.lt_of_recAt c kn n hr), hrec]
  dsimp only
  split
  · exact (congrArg (smGet none · key) (Queue.arm_recs ..)).trans ((Queue.rec_setRec ..).trans (if_pos rfl))
  · exact (Queue.rec_setRec ..).trans (if_pos rfl)

theorem State.recAt_modTeam (i : Nat) (F : Team → Team) : (s.modTeam i F).recAt c kn n key = s.recAt c kn n key := rfl

/-- The record of a slot after a record has been put there. -/
theorem State.recAt_setRec {r : Rec} (hr : s.recAt c kn n key = some r) (r' : Rec) :
    (s.modQueue c kn n fun q => q.setRec key (some r')).recAt c kn n key = some r' := by
  rw [State.recAt_modQueue _ _ _ _ (s.lt_of_recAt c kn n hr)]
  exact (Queue.rec_setRec ..).trans (if_pos rfl)

end

/-! ### One lane applied (R280 to R282) -/

/-- A record becomes eligible where it is committed, has no joins left and is not eligible yet (R271). -/
def State.promote (s : State) (c kn n key : Nat) : State :=
  match (s.queue c kn n).rec? key with
  | some r => if r.committed && r.join = 0 && !r.elig then s.makeElig c kn n key else s
  | none => s

section
variable (s : State) (c kn n key : Nat)

theorem State.promote_of_none (h : s.recAt c kn n key = none) : s.promote c kn n key = s := by
  have hrec : (s.queue c kn n).rec? key = none := h
  unfold State.promote
  rw [hrec]

/-- A record in its slot stays there and keeps what a lane gave it; it is eligible where it was, or where it may be. -/
theorem State.recAt_promote {r : Rec} (h : s.recAt c kn n key = some r) : (s.promote c kn n key).recAt c kn n key = some
    (if r.committed && r.join = 0 && !r.elig then { r with elig := true, etime := s.time } else r) := by
  have hrec : (s.queue c kn n).rec? key = some r := h
  unfold State.promote
  rw [hrec]
  dsimp only
  split
  · exact s.recAt_makeElig c kn n key h
  · exact h

end

section
variable {u : State} {o : Op} {x : QLane} (hx : o.qlanes = [x]) {c kn n key : Nat} (hc : o.team % 4096 = c) (hkn : (u.team o.team).kern = kn)
  (hn : handleNode x.handle = n) (hkey : handleKey x.handle = key) {r : Rec} (hr : u.recAt c kn n key = some r)
include hx hc hkn hn hkey hr

theorem applyLanes_free : u.applyLanes o .free = (u.freeRec c kn n key).promote c kn n key := by
  have hrec : (u.queue c kn n).rec? key = some r := hr
  unfold State.applyLanes
  rw [hx, hc, hkn]
  simp only [List.foldl_cons, List.foldl_nil, List.map_cons, List.map_nil, hn, hkey, hrec]
  rfl

theorem applyLanes_join : u.applyLanes o .join
    = (u.modQueue c kn n fun q => q.setRec key (some { r with join := r.join - 1 })).promote c kn n key := by
  have hrec : (u.queue c kn n).rec? key = some r := hr
  unfold State.applyLanes
  rw [hx, hc, hkn]
  simp only [List.foldl_cons, List.foldl_nil, List.map_cons, List.map_nil, hn, hkey, hrec]
  rfl

theorem applyLanes_commit {t : State} {v : List Byte} {ps : List Bool}
    (hread : u.spadRd o.team x.ea.toNat (((u.kern c kn).node n).size - 16) = (t, v, ps)) : u.applyLanes o .commit
    = ((t.modQueue c kn n fun q => q.setRec key (some { r with committed := true, payload := v, ppoi := ps })).modTeam r.team fun t =>
        { t with uncommitted := t.uncommitted - 1 }).promote c kn n key := by
  have hrec : (u.queue c kn n).rec? key = some r := hr
  unfold State.applyLanes
  rw [hx, hc, hkn]
  simp only [List.foldl_cons, List.foldl_nil, List.map_cons, List.map_nil, hn, hkey, hrec, hread]
  rfl

/-- RFREE empties the slot (R281). -/
theorem recAt_applyLanes_free : (u.applyLanes o .free).recAt c kn n key = none ∧ (u.applyLanes o .free).groups = u.groups := by
  obtain ⟨hfree, -, hgroups⟩ := u.freeRec_frees c kn n key
  rw [applyLanes_free hx hc hkn hn hkey hr, State.promote_of_none _ _ _ _ _ hfree]
  exact ⟨hfree, hgroups⟩

/-- RJOIN takes one from the joins of its record (R282). -/
theorem recAt_applyLanes_join : ((u.applyLanes o .join).recAt c kn n key).map (fun r => r.join) = some (r.join - 1) := by
  rw [applyLanes_join hx hc hkn hn hkey hr, State.recAt_promote _ _ _ _ _ (u.recAt_setRec c kn n key hr { r with join := r.join - 1 })]
  refine congrArg some ?_
  split <;> rfl

/-- RCOMMIT commits its record with the bytes of the window, and the record is eligible where it has no joins (R280). -/
theorem recAt_applyLanes_commit : ∃ r', (u.applyLanes o .commit).recAt c kn n key = some r' ∧ r'.committed = true
    ∧ r'.payload = memRead u.spad ((u.team o.team).spadAddr x.ea.toNat) (((u.kern c kn).node n).size - 16) ∧ (r.join = 0 → r'.elig = true) := by
  obtain ⟨t, ps, hread, hkerns, -⟩ := u.spadRd_eq o.team x.ea.toNat (((u.kern c kn).node n).size - 16)
  generalize hv : memRead u.spad ((u.team o.team).spadAddr x.ea.toNat) (((u.kern c kn).node n).size - 16) = v at hread ⊢
  have hset := t.recAt_setRec c kn n key ((State.recAt_of_kerns hkerns ..).trans hr) { r with committed := true, payload := v, ppoi := ps }
  rw [applyLanes_commit hx hc hkn hn hkey hr hread, State.recAt_promote _ _ _ _ _ ((State.recAt_modTeam ..).trans hset)]
  refine ⟨_, rfl, ?_⟩
  split
  · exact ⟨rfl, rfl, fun _ => rfl⟩
  next helig => exact ⟨rfl, rfl, fun hjoin => by simpa [hjoin] using helig⟩

end

end Sys2Proof.Machine
end

section
/-!
QUEUE_APPLY for O51: the operation leaves the list and gives up its reservations, and its lanes trap or are applied (R277).
-/

namespace Sys2Proof.Machine

/-! ### The operation leaves (R277) -/

/-- An operation that is applied or traps: its reservations end and it is no longer in the list. -/
def State.dropOp (s : State) (id : Nat) : State := { s.unlock id with ops := s.ops.filter fun x => x.id != id }

theorem State.dropOp_keeps (s : State) (id : Nat) : (s.dropOp id).crew = s.crew ∧ (s.dropOp id).spad = s.spad := by
  unfold State.dropOp State.unlock
  split
  · exact ⟨rfl, rfl⟩
  · exact ⟨rfl, rfl⟩

/-- A record that an operation held is free of it. -/
def Rec.freed (id : Nat) (r : Rec) : Rec := if r.lock = some id then { r with lock := none } else r

theorem Rec.freed_join (id : Nat) (r : Rec) : (r.freed id).join = r.join := by
  unfold Rec.freed
  split <;> rfl

/-- A queue whose records are free of an operation. -/
def Queue.freed (id : Nat) (q : Queue) : Queue := { q with recs := q.recs.map fun e => (e.1, e.2.map (Rec.freed id)) }

section
variable {s : State} {id : Nat} {o : Op} (hop : s.op? id = some o)

include hop

theorem State.kern_dropOp : (s.dropOp id).kern (o.team % 4096) (s.team o.team).kern
    = { s.kern (o.team % 4096) (s.team o.team).kern with
        queues := (s.kern (o.team % 4096) (s.team o.team).kern).queues.map (Queue.freed id) } := by
  unfold State.dropOp State.unlock
  rw [hop]
  exact s.kern_modKern (o.team % 4096) (s.team o.team).kern fun k => { k with queues := k.queues.map (Queue.freed id) }

/-- A record of the operation's kernel after the operation has left. -/
theorem State.recAt_dropOp (n key : Nat) : (s.dropOp id).recAt (o.team % 4096) (s.team o.team).kern n key
    = (s.recAt (o.team % 4096) (s.team o.team).kern n key).map (Rec.freed id) := by
  unfold State.recAt State.queue
  rw [State.kern_dropOp hop]
  dsimp only
  rw [List.getElem?_map]
  cases (s.kern (o.team % 4096) (s.team o.team).kern).queues[n]? with
  | none => rfl
  | some q => exact smGet_map (d := none) (F := Option.map (Rec.freed id)) rfl q.recs key

/-! ### Traps (R277) -/

theorem queueApply_traps {x : QLane} (hq : o.q.isSome = true) (hchecked : ∀ y ∈ o.qlanes, s.qhome o y ∈ o.checked)
    (hbad : o.qlanes.find? (fun y => y.bad != 0) = some x) (hst : (s.grp o.k).st = .held) (hreq : (s.grp o.k).trapReq = none) :
    Traps (.queueApply id) s o.k x.bad (if x.bad = 0x18 then x.handle else o.addr) := by
  obtain ⟨kind, hkind⟩ := Option.isSome_iff_exists.mp hq
  have hgrp : (s.dropOp id).grp o.k = s.grp o.k := State.grp_of_crew (s.dropOp_keeps id).1 o.k
  have hexec : exec (.queueApply id) s = .next ((s.dropOp id).trap o.k x.bad (if x.bad = 0x18 then x.handle else o.addr) 0) := by
    show execQueueApply id s = _
    unfold execQueueApply
    rw [hop]
    dsimp only
    rw [hkind]
    dsimp only
    rw [if_neg ?hall, hbad]
    · rfl
    case hall => simpa using hchecked
  exact ⟨_, hexec, State.trap_taken _ _ _ _ _ (.inr (hgrp ▸ hst)) (hgrp ▸ hreq)⟩

end

/-! ### Lanes applied (R280 to R282) -/

section
variable {o : Op}

theorem getLsbD_maskOf (ls : List Nat) (l : LaneId) : (maskOf ls).getLsbD l = ls.contains l.val := by
  unfold maskOf
  rw [BitVec.getLsbD_ofFnLE, dif_pos l.isLt]

/-- The instruction of an operation as its homes apply it. -/
def applyEnv (u : State) (o : Op) (kind : QKind) (sh : Shape) : Env :=
  let path := maskOf (o.lanes.map fun x => x.lane)
  { k := o.k, pc := o.addr, nxt := BitVec.ofNat 64 ((o.addr.toNat + o.f.bytes) % 2 ^ 56), maj := if kind = .join then 0x6E else 0x6D, f := o.f
    sh, path, e := path &&& (u.grp o.k).guard o.f }

theorem State.kerns_finish_start (d v : State) (env : Env) (op : Op) : (finish d env false (.start v op)).kerns = v.kerns := by
  refine State.kerns_of_ctxs ?_
  unfold finish
  dsimp only [State.complete, State.launch, State.modCore, State.modGrp, State.setGrp]

/-- The end of an applied instruction leaves the records as the lanes made them. -/
theorem recAt_applyBody (d u : State) (env : Env) (kind : QKind) (c kn n key : Nat) :
    (finish d env false (applyBody o kind env u)).recAt c kn n key = (u.applyLanes o kind).recAt c kn n key := by
  unfold applyBody
  dsimp only
  split
  · rw [State.recAt_of_kerns (State.kerns_finish_start ..)]
    rfl
  · rw [State.recAt_of_kerns (State.kerns_finish_start ..)]

/-- A lane of an applied RCOMMIT or RFREE goes on at the next instruction. -/
theorem applyBody_advances (d u : State) {kind : QKind} (hkind : kind ≠ .join) (sh : Shape) (hgroups : (u.applyLanes o kind).groups = u.groups)
    {l : LaneId} (hl : ∃ y ∈ o.lanes, y.lane = l.val) (hlive : (u.grp o.k).lane[l].st = .live) :
    ((finish d (applyEnv u o kind sh) false (applyBody o kind (applyEnv u o kind sh) u)).grp o.k).lane[l].pcv
      = BitVec.ofNat 64 ((o.addr.toNat + o.f.bytes) % 2 ^ 56) := by
  unfold applyBody
  dsimp only
  rw [if_neg hkind]
  have hpath : (applyEnv u o kind sh).path.getLsbD l = true := by
    obtain ⟨y, hy, hlane⟩ := hl
    have hmem : l.val ∈ o.lanes.map fun x => x.lane := List.mem_map.mpr ⟨y, hy, hlane⟩
    exact (getLsbD_maskOf ..).trans (List.contains_iff_mem.mpr hmem)
  have hgrp : (u.applyLanes o kind).grp o.k = u.grp o.k := by
    unfold State.grp
    rw [hgroups]
  refine complete_path_pcv hpath ?_
  rw [lanes_of_group (launch_lane ..) l]
  show ((u.applyLanes o kind).grp o.k).lane[l].st = .live
  rw [hgrp]
  exact hlive

/-- An RCOMMIT of one lane whose staging offset stands in the window has no fault (R280). -/
theorem stageFault_single {s : State} {x : QLane} (hx : o.qlanes = [x]) (halign : x.ea.toNat % 16 = 0) (hwindow : x.ea.toNat
    + ((s.kern (o.team % 4096) (s.team o.team).kern).node (handleNode x.handle)).size - 16 ≤ (s.team o.team).wsize) : s.stageFault o = none := by
  unfold State.stageFault
  rw [hx]
  simp only [List.findSome?_cons, List.findSome?_nil]
  rw [if_neg (by simp [halign]), if_neg (Nat.not_lt.mpr hwindow)]

end

section
variable {s : State} {id : Nat} {o : Op} (hop : s.op? id = some o)

section
variable {kind : QKind} {sh : Shape} (hkind : o.q = some kind) (hgood : ∀ y ∈ o.qlanes, s.qhome o y ∈ o.checked ∧ y.bad = 0)
  (hstage : kind = .commit → s.stageFault o = none) (hrel : ∀ rel, o.rel = some rel → s.relDone rel = true)
  (hsh : shape (if kind = .join then 0x6E else 0x6D) o.f = some sh)
include hop hkind hgood hstage hrel hsh

/-- An operation without a fault whose release is complete is applied. -/
theorem execQueueApply_applies : exec (.queueApply id) s = .next (finish (s.dropOp id) (applyEnv (s.dropOp id) o kind sh) false
    (applyBody o kind (applyEnv (s.dropOp id) o kind sh) (s.dropOp id))) := by
  have hnone : o.qlanes.find? (fun y => y.bad != 0) = none := List.find?_eq_none.mpr fun y hy => by simp [(hgood y hy).2]
  have hfault : (if kind = .commit then s.stageFault o else none) = none := by
    split
    next h => exact hstage h
    · rfl
  show execQueueApply id s = _
  unfold execQueueApply
  rw [hop]
  dsimp only
  rw [hkind]
  dsimp only
  rw [if_neg ?hall, hnone, hfault]
  · dsimp only
    rw [if_pos ?hdone, hsh]
    · rfl
    case hdone =>
      split
      next rel h => exact hrel rel h
      · rfl
  case hall => simpa using fun y hy => (hgood y hy).1

end

/-! ### Operations of one lane (R280 to R282) -/

section
variable {x : QLane} (hgood : ∀ y ∈ o.qlanes, s.qhome o y ∈ o.checked ∧ y.bad = 0) (hx : o.qlanes = [x]) {r : Rec}
  (hr : (s.queue (o.team % 4096) (s.team o.team).kern (handleNode x.handle)).rec? (handleKey x.handle) = some r)
  (hshape : (shape (if o.q = some .join then 0x6E else 0x6D) o.f).isSome = true) (hrel : ∀ rel, o.rel = some rel → s.relDone rel = true)
include hop hgood hx hr hshape hrel

theorem queueApply_free (hkind : o.q = some .free) : Completes (.queueApply id) s fun t =>
    (t.queue (o.team % 4096) (s.team o.team).kern (handleNode x.handle)).rec? (handleKey x.handle) = none
      ∧ ∀ l : LaneId, (∃ y ∈ o.lanes, y.lane = l.val) → (s.grp o.k).lane[l].st = .live → (t.grp o.k).lane[l].pcv =
          BitVec.ofNat 64 ((o.addr.toNat + o.f.bytes) % 2 ^ 56) := by
  rw [hkind] at hshape
  obtain ⟨sh, hsh⟩ := Option.isSome_iff_exists.mp hshape
  refine ⟨_, execQueueApply_applies hop hkind hgood nofun hrel hsh, ?_⟩
  have hcrew := (s.dropOp_keeps id).1
  obtain ⟨hnone, hgroups⟩ := recAt_applyLanes_free (u := s.dropOp id) hx rfl (congrArg Team.kern (State.team_of_crew hcrew o.team)) rfl rfl
    ((State.recAt_dropOp hop ..).trans (congrArg (Option.map (Rec.freed id)) hr))
  refine ⟨(recAt_applyBody ..).trans hnone, fun l hl hlive => applyBody_advances _ _ (kind := .free) (by decide) sh hgroups hl ?_⟩
  rw [State.grp_of_crew hcrew]
  exact hlive

theorem queueApply_join (hkind : o.q = some .join) : Completes (.queueApply id) s fun t =>
    ((t.queue (o.team % 4096) (s.team o.team).kern (handleNode x.handle)).rec? (handleKey x.handle)).map (fun r => r.join)
      = some (r.join - 1) := by
  rw [hkind] at hshape
  obtain ⟨sh, hsh⟩ := Option.isSome_iff_exists.mp hshape
  refine ⟨_, execQueueApply_applies hop hkind hgood nofun hrel hsh, ?_⟩
  have hcrew := (s.dropOp_keeps id).1
  have hjoin := recAt_applyLanes_join (u := s.dropOp id) hx rfl (congrArg Team.kern (State.team_of_crew hcrew o.team)) rfl rfl
    ((State.recAt_dropOp hop ..).trans (congrArg (Option.map (Rec.freed id)) hr))
  rw [Rec.freed_join] at hjoin
  exact (congrArg (Option.map fun r : Rec => r.join) (recAt_applyBody ..)).trans hjoin

theorem queueApply_commit (hkind : o.q = some .commit) (halign : x.ea.toNat % 16 = 0) (hwindow : x.ea.toNat
    + ((s.kern (o.team % 4096) (s.team o.team).kern).node (handleNode x.handle)).size - 16 ≤ (s.team o.team).wsize) :
    Completes (.queueApply id) s fun t => ∃ r',
      (t.queue (o.team % 4096) (s.team o.team).kern (handleNode x.handle)).rec? (handleKey x.handle) = some r' ∧ r'.committed = true
        ∧ r'.payload = memRead s.spad ((s.team o.team).spadAddr x.ea.toNat)
            (((s.kern (o.team % 4096) (s.team o.team).kern).node (handleNode x.handle)).size - 16)
        ∧ (r.join = 0 → r'.elig = true) := by
  rw [hkind] at hshape
  obtain ⟨sh, hsh⟩ := Option.isSome_iff_exists.mp hshape
  refine ⟨_, execQueueApply_applies hop hkind hgood (fun _ => stageFault_single hx halign hwindow) hrel hsh, ?_⟩
  obtain ⟨hcrew, hspad⟩ := s.dropOp_keeps id
  have hteam := State.team_of_crew hcrew o.team
  obtain ⟨r', hr', hcommitted, hpayload, helig⟩ := recAt_applyLanes_commit (u := s.dropOp id) hx rfl (congrArg Team.kern hteam) rfl rfl
    ((State.recAt_dropOp hop ..).trans (congrArg (Option.map (Rec.freed id)) hr))
  rw [State.kern_dropOp hop, hteam, hspad] at hpayload
  rw [Rec.freed_join] at helig
  exact ⟨r', (recAt_applyBody ..).trans hr', hcommitted, hpayload, helig⟩

end

end

end Sys2Proof.Machine
end

section
/-!
OBLIGATION O51: the events of queues, launches and wakes, each by the lemma about it above.
-/

namespace Sys2Proof.Machine

/-- Settles O51: each event by the rule about it, the queue operations of one lane by what they make of its record. -/
theorem queueEvents : Obligations.QueueEvents := by
  unfold Obligations.QueueEvents
  intro s
  refine ⟨?homeCheck, ?apply, ?traps, ?queues, ?wakes, ?starts, ?grids⟩
  case homeCheck =>
    intro id home o kind hop hkind hnew q hmine hway hlanes
    exact queueHomeCheck_reserves hop hkind hnew hmine hway hlanes
  case apply =>
    intro id o x hop hgood hx c kn n key r hr hshape hrel
    exact ⟨queueApply_free hop hgood hx hr hshape hrel, fun hkind _ => queueApply_join hop hgood hx hr hshape hrel hkind,
      queueApply_commit hop hgood hx hr hshape hrel⟩
  case traps =>
    intro id o x hop hq hchecked hbad hst hreq
    exact queueApply_traps hop hq hchecked hbad hst hreq
  case queues =>
    intro c kn n hn
    refine ⟨fun x hst hx hdue hopen => queueTimerExpiry_expires hn hst hx hdue hopen,
      fun hctx hfault hpend _ => queueReopen_opens hn hctx hfault hpend, ?_⟩
    intro r set e horder hopen hst hlaunched hrestore hnode hwait hk hdue hrun hfree hks hfault hpend
    exact teamLaunch_starts horder hopen hst hlaunched hrestore hnode hwait hk hdue hrun hfree hks hfault hpend
  case wakes => exact fun tk htk => wakeEvent_wakes htk
  case starts =>
    intro tk hst hctx hfault hpend hstop
    exact ⟨teamStart_waits, teamStart_starts hst hctx hfault hpend hstop⟩
  case grids =>
    intro c site r hrun hrestore
    refine ⟨gridCounterFetch_takes hrun hrestore, ?_⟩
    intro i rest set hfree hsaved hlocal hks hfault hpend
    exact gridTeamLaunch_starts hrun hrestore hfree hsaved hlocal hks hfault hpend

end Sys2Proof.Machine
end
